-- ==== Sys2Proof/Word.lean ====
section
/-! DEFINITION. The word types of the appliance link: the byte a frame is made of and the two-byte field (R160, R168). -/

namespace Sys2Proof

/-- One byte of a frame (R160: eight data bits). -/
abbrev Byte := BitVec 8

/-- A two-byte field, sent high byte first (R168), and the CRC-16 register (R160). -/
abbrev Word := BitVec 16

end Sys2Proof
end

