-- ==== Sys2Proof/Config.lean ====
section
/-! DEFINITION. What the model fixes once, and the values the manual leaves open (free values, with no body). -/

namespace Sys2Proof.Config

/-- How many internal events one command may run through before the model calls the cascade unending.
DESIGN CHOICE (log 5): the manual has no bound, and a table set can make an event replace two failing
sequences by each other for ever. Safe: the model stops where the manual gives no resulting state. -/
def cascadeLimit : Nat := 65536

/-- Free value (log 9): whether a remaining time that is no whole number of seconds is reported rounded up.
R55, R127, R141 and R152 speak of "seconds remaining" and do not state the rounding. -/
opaque roundUpSeconds : Nat → Bool

/-- Free value (log 8): what an assertion of RESETN leaves of a store write in flight; the argument is the clock.
0 modulo 3: the copy or image fails its check; 1: it holds what it held before; 2: the write is complete.
R150 and R166 state the outcome for power loss only. -/
opaque resetWriteFate : Nat → Nat

end Sys2Proof.Config
end

