-- ==== Sys2Proof/Syntax.lean ====
section
/-! DEFINITION. The commands of the block: one constructor per row of spec/opcode_table.json, in the table's order. -/

namespace Sys2Proof

/-- The two ports of the part (R160): the control segment's and the field segment's. -/
inductive Port where
  | control
  | field
  deriving DecidableEq, Repr

/-- The two general inputs (R6). -/
inductive GeneralInput where
  | in2
  | in3
  deriving DecidableEq, Repr

/-- How the reception of a frame ended on the line (R160). -/
inductive ReceptionEnd where
  /-- every byte the header announced was read, or a byte too many was announced -/
  | complete
  /-- a byte's stop bit was dominant -/
  | stopBit
  /-- a quiet interval fell before the last CRC byte -/
  | quiet
  deriving DecidableEq, Repr

/-- A frame as received or to be sent, less its length byte and CRC, which follow from it (R160, Table 40).
`kind` is the whole kind byte: frame kind in the high four bits, sub-code in the low four (R168). -/
structure Frame where
  src : Byte
  dst : Byte
  kind : Byte
  payload : List Byte
  deriving DecidableEq, Repr

/-- The commands. Each is one whole and indivisible step of the part (95_what_each_step_holds). -/
inductive Instr where
  /-- DEVICE_RESET: power-on, or RESETN asserted; `adr` is the value read on ADR1:ADR0 (R151, R162). -/
  | deviceReset (adr : Nat)
  /-- POWER_ON_IMAGE_CHECK: completion of the check of the stored image (R167). -/
  | powerOnImageCheck
  /-- FRAME_RECEIVE_DISCARD: a reception that R160 discards; the bytes read and how it ended. -/
  | frameReceiveDiscard (port : Port) (bytes : List Byte) (ending : ReceptionEnd)
  /-- TRANSMIT_START: the port begins to send its frame in hand (R161). -/
  | transmitStart (port : Port)
  /-- ARBITRATION_LOST: the sending port lost to `winner`, the lower source address (R161). -/
  | arbitrationLost (port : Port) (winner : Byte)
  /-- COLLISION: a differing bit after the source byte (R161). -/
  | collision (port : Port)
  /-- FRAME_SENT: the last CRC byte of the frame in hand is sent (R161). -/
  | frameSent (port : Port)
  /-- CONTROL_FRAME: a frame received whole from the control segment (R128). -/
  | controlFrame (f : Frame)
  /-- DRIVE_INTERCEPTION: a DRIVE frame from the control segment (R130). -/
  | driveInterception (src dst : Byte) (sub : BitVec 4) (payload : List Byte)
  /-- LINKRESET: a broadcast LINKRESET from the control segment (R139). -/
  | linkreset (src : Byte) (sub : BitVec 4)
  /-- FIELD_FRAME: a frame from the field segment (R129). -/
  | fieldFrame (f : Frame)
  /-- SAMPLE: a SAMPLE frame from the field segment (R5). -/
  | sample (src dst : Byte) (sub : BitVec 4) (payload : List Byte)
  /-- STATE: a STATE frame from the field segment (R123). -/
  | state (src dst : Byte) (sub : BitVec 4) (payload : List Byte)
  /-- INPUT_LEVEL_CHANGE: IN2 or IN3 takes a new level (R6). -/
  | inputLevelChange (input : GeneralInput) (high : Bool)
  /-- POINT_SECOND_MARK: the Point Unit's one-second mark (R12). -/
  | pointSecondMark
  /-- HOLD_EXPIRY: the hold timer of a condition expires (R32). -/
  | holdExpiry (cond : Nat)
  /-- RISE_WINDOW_EXPIRY: the rise-window timer expires (R51). -/
  | riseWindowExpiry
  /-- MIN_DWELL_MARK: the running step reaches its governing minimum (R64). -/
  | minDwellMark
  /-- MAX_DWELL_EXPIRY: the running step reaches its governing maximum (R67). -/
  | maxDwellExpiry
  /-- FROST_SECOND_MARK: the Frost Unit's one-second mark (R101). -/
  | frostSecondMark
  /-- REFRESH_EXPIRY: a field role's refresh timer expires (R122). -/
  | refreshExpiry (role : Nat)
  /-- CONFIRM_EXPIRY: a field role's confirm timer expires (R124). -/
  | confirmExpiry (role : Nat)
  /-- HEARD_TIMER_EXPIRY: a field role's heard timer runs out (R123). -/
  | heardTimerExpiry (role : Nat)
  /-- SENSE_CHANGE: a line's sense input takes a new level (R119). -/
  | senseChange (line : Nat) (on : Bool)
  /-- SETTLE_EXPIRY: a line's readback settle ends (R119). -/
  | settleExpiry (line : Nat)
  /-- LIMIT_OPENING: the LIMIT input opens (R120). -/
  | limitOpening
  /-- LIMIT_CLOSING: the LIMIT input closes (R120). -/
  | limitClosing
  /-- UNLOCK_EDGE: an active edge on the UNLOCK input (R121). -/
  | unlockEdge
  /-- ABSENCE_TIMER_EXPIRY: the controller-absence timer expires (R138). -/
  | absenceTimerExpiry
  /-- REGAIN_EXPIRY: the regain timer expires (R149). -/
  | regainExpiry
  /-- PERSISTENCE_WRITE_COMPLETE: a lockout-data copy write completes (R150). -/
  | persistenceWriteComplete
  /-- COMMIT_COMPLETION: the store write of a commit completes (R166). -/
  | commitCompletion
  /-- LOAD request: table kind, index, part byte and the part's fields (R164, Table 42). -/
  | load (src kind index part : Byte) (fields : List Byte)
  /-- READ request (R163, Table 42). -/
  | read (src image kind index part : Byte)
  /-- DISCARD request (R163). -/
  | discard (src : Byte)
  /-- COMMIT request (R165). -/
  | commit (src : Byte)
  /-- DEMAND ON request (R75). -/
  | demandOn (src : Byte)
  /-- DEMAND OFF request (R75). -/
  | demandOff (src : Byte)
  /-- RUN request (R78). -/
  | run (src seq : Byte)
  /-- STOP request (R78). -/
  | stop (src : Byte)
  /-- SET ROLE request (R117). -/
  | setRole (src role : Byte) (value : Word)
  /-- UNLOCK request (R147). -/
  | unlock (src : Byte)
  /-- STATUS request (R163). -/
  | status (src page : Byte)
  /-- TRACE READ request (R158). -/
  | traceRead (src : Byte) (index : Word) (count : Byte)
  /-- TRACE RELEASE request (R158). -/
  | traceRelease (src half : Byte)
  /-- QUIET_INTERVAL: 16 recessive bit times on a segment (R160). -/
  | quietInterval (port : Port)
  /-- UNLOCK_INPUT_LEAVES_ACTIVE_LEVEL: the UNLOCK input returns to its inactive level (R121). -/
  | unlockInputLeavesActiveLevel
  /-- POWER_LOSS: the supply fails (R150). -/
  | powerLoss
  deriving DecidableEq, Repr

end Sys2Proof
end

