-- ==== Sys2Proof/WellFormed.lean ====
section
/-! DEFINITION. Which commands are well formed: the operands name things the part has, and a frame received
whole is one that R160 can deliver. -/

namespace Sys2Proof

/-- A frame a port can hand to the gate (R160): its source is not 0 and its payload is at most 24 bytes. -/
def Frame.wellFormed (f : Frame) : Bool :=
  f.src != 0 && f.payload.length ≤ 24

/-- A command whose operands are in range. `exec` is total all the same (log 28). -/
def Instr.wellFormed : Instr → Bool
  | .deviceReset adr => adr < 4
  | .powerOnImageCheck => true
  | .frameReceiveDiscard _ bytes _ => bytes.length ≤ 30
  | .transmitStart _ => true
  | .arbitrationLost _ _ => true
  | .collision _ => true
  | .frameSent _ => true
  | .controlFrame f => f.wellFormed
  | .driveInterception src _ _ payload => src != 0 && payload.length ≤ 24
  | .linkreset src _ => src != 0
  | .fieldFrame f => f.wellFormed && f.kind.toNat / 16 != 1 && f.kind.toNat / 16 != 2
  | .sample src _ _ payload => src != 0 && payload.length ≤ 24
  | .state src _ _ payload => src != 0 && payload.length ≤ 24
  | .inputLevelChange _ _ => true
  | .pointSecondMark => true
  | .holdExpiry cond => cond < 32
  | .riseWindowExpiry => true
  | .minDwellMark => true
  | .maxDwellExpiry => true
  | .frostSecondMark => true
  | .refreshExpiry role => role < 12
  | .confirmExpiry role => role < 12
  | .heardTimerExpiry role => role < 12
  | .senseChange line _ => line < 8
  | .settleExpiry line => line < 8
  | .limitOpening => true
  | .limitClosing => true
  | .unlockEdge => true
  | .absenceTimerExpiry => true
  | .regainExpiry => true
  | .persistenceWriteComplete => true
  | .commitCompletion => true
  | .load src _ _ _ fields => src != 0 && fields.length ≤ 21
  | .read src _ _ _ _ => src != 0
  | .discard src => src != 0
  | .commit src => src != 0
  | .demandOn src => src != 0
  | .demandOff src => src != 0
  | .run src _ => src != 0
  | .stop src => src != 0
  | .setRole src _ _ => src != 0
  | .unlock src => src != 0
  | .status src _ => src != 0
  | .traceRead src _ _ => src != 0
  | .traceRelease src _ => src != 0
  | .quietInterval _ => true
  | .unlockInputLeavesActiveLevel => true
  | .powerLoss => true

end Sys2Proof
end

