-- ==== Sys2Proof/Decode.lean ====
section
/-! DEFINITION. The table's bits. No row of spec/opcode_table.json gives bits (98_reader: n_rows_with_fixed 0,
n_rows_with_fields 0), so no word spells a command. The bytes of frames, entries and requests are read and
written in Machine/Operands.lean. -/

namespace Sys2Proof

/-- The command that a word of `nbits` bits spells by the table's bits: none, for every word. -/
def decodeTableWord (_nbits _w : Nat) : Option Instr := none

end Sys2Proof
end

