-- ==== Sys2Proof/Machine/Tables.lean ====
section
/-! DEFINITION. The loaded fields of the eight kinds of table entry (Tables 13, 16, 19, 24, 25, 30, 34 and the
device settings of R164), a table set, and the initial form of R167. Indexes and counts are Nat, quantities that
may be negative Int. -/

namespace Sys2Proof.Machine

/-- Three-valued results (00_scope 6.3): TRUE, FALSE, UNKNOWN. -/
inductive Tri where
  | yes
  | no
  | unknown
  deriving DecidableEq, Repr

/-- Point kinds, in the order of Table 13. -/
inductive PointKind where
  | temp
  | draught
  | flame
  | level
  | contact
  deriving DecidableEq, Repr

/-- A point entry (R2, Table 13). -/
structure PointEntry where
  source : Nat
  channel : Nat
  kind : PointKind
  offset : Int
  gain : Nat
  plausLo : Int
  plausHi : Int
  k : Nat
  staleLimit : Nat
  inUse : Bool
  deriving DecidableEq, Repr

/-- Condition kinds, in the order of Table 16. -/
inductive CondKind where
  | above
  | below
  | contact
  | roleConfirmed
  | both
  | either
  | flueDraught
  | flueBlocked
  | flueSpill
  | flueRise
  deriving DecidableEq, Repr

/-- A condition entry (R20, Table 16). A field that the kind does not read is kept as loaded. -/
structure CondEntry where
  kind : CondKind
  point : Nat
  threshold : Int
  hyst : Nat
  level : Nat
  role : Nat
  a : Nat
  b : Nat
  hold : Nat
  inUse : Bool
  deriving DecidableEq, Repr

/-- The flue record (R38, Table 19); a point field is none where the record holds NONE. -/
structure FlueRecord where
  draughtPt : Option Nat
  fluePt : Option Nat
  spillPt : Option Nat
  roomPt : Option Nat
  dReq : Nat
  dBlock : Nat
  tCold : Int
  tWarm : Int
  rCold : Nat
  rWarm : Nat
  riseWindow : Nat
  sDelta : Nat
  kW : Nat
  aMax : Nat
  deriving DecidableEq, Repr

/-- Output modes, coded in this order (R168). -/
inductive OutMode where
  | off
  | on
  | level
  | free
  deriving DecidableEq, Repr

/-- One output of a step or of a frost circuit: its mode, and the ten value bits as loaded (R57, R168). -/
structure Output where
  mode : OutMode
  value : Nat
  deriving DecidableEq, Repr

/-- One supervision entry (R57): condition, expected value TRUE or FALSE, unknown mode FAIL or TOLERATE. -/
structure Supervision where
  cond : Nat
  expected : Bool
  fail : Bool
  deriving DecidableEq, Repr

/-- Where an advance goes (R57, R66). -/
inductive NextStep where
  | step (k : Nat)
  | finish
  | hold
  deriving DecidableEq, Repr

/-- What a max-dwell expiry does (R57, R67). -/
inductive OnTimeout where
  | goto (k : Nat)
  | fault
  | none
  deriving DecidableEq, Repr

/-- The two classes a step's faults may have (R57), coded in this order. -/
inductive StepClass where
  | recycle
  | lockout
  deriving DecidableEq, Repr

/-- A step record (R57, Table 24). -/
structure StepEntry where
  outputs : List Output
  proving : Option Nat
  provingValue : Bool
  minDwell : Nat
  maxDwell : Nat
  warmup : Bool
  armRise : Bool
  call : Option Nat
  supervision : List Supervision
  next : NextStep
  onTimeout : OnTimeout
  faultCode : Nat
  faultClass : StepClass
  success : Bool
  inUse : Bool
  deriving DecidableEq, Repr

/-- Sequence classes, in the order of Table 25. -/
inductive SeqClass where
  | heat
  | stop
  | recovery
  | frost
  | protect
  | service
  | lockoutPurge
  deriving DecidableEq, Repr

/-- How a saved step is taken up on return (R59, R71). -/
inductive ResumeMode where
  | restartStep
  | continueStep
  deriving DecidableEq, Repr

/-- A sequence descriptor (R59, Table 25). -/
structure SeqEntry where
  entryStep : Nat
  cls : SeqClass
  priority : Nat
  stopLink : Option Nat
  recoveryLink : Option Nat
  recycleLimit : Nat
  resumeMode : ResumeMode
  trigger : Option Nat
  trace : Bool
  tracePoints : List Nat
  inUse : Bool
  deriving DecidableEq, Repr

/-- One tier-1 role of a frost circuit (R98). -/
structure TierRole where
  role : Nat
  output : Output
  deriving DecidableEq, Repr

/-- A frost circuit entry (R98, Table 30); the two tier-1 places as the layout of Table 44 has them. -/
structure CircuitEntry where
  point : Nat
  tF : Int
  l1 : Nat
  l2 : Nat
  dFb : Nat
  margin : Nat
  tierA : Option TierRole
  tierB : Option TierRole
  tier2 : Option Nat
  inUse : Bool
  deriving DecidableEq, Repr

/-- Role kinds (R114), coded in this order. -/
inductive RoleKind where
  | switched
  | level
  deriving DecidableEq, Repr

/-- A role's target (R114). -/
inductive Target where
  | none
  | line (l : Nat)
  | field (node channel : Nat)
  deriving DecidableEq, Repr

/-- A role entry (R114, Table 34). -/
structure RoleEntry where
  kind : RoleKind
  target : Target
  tolerance : Nat
  confirmWindow : Nat
  ctlAllowed : Bool
  ctlMin : Nat
  ctlMax : Nat
  deriving DecidableEq, Repr

/-- The device settings (R164, R140). -/
structure DeviceEntry where
  ctlAddr : Nat
  startSeq : Nat
  lockoutSeq : Nat
  absenceTimeout : Nat
  refresh : Nat
  passUnrouted : Bool
  unlockHigh : Bool
  deriving DecidableEq, Repr

/-- A table set: the active tables, the staging image or the stored image. -/
structure Tables where
  points : List PointEntry
  conds : List CondEntry
  flue : FlueRecord
  steps : List StepEntry
  seqs : List SeqEntry
  circuits : List CircuitEntry
  roles : List RoleEntry
  device : DeviceEntry
  deriving DecidableEq, Repr

/-- The table kinds of R164, coded POINT 0 to DEVICE 7. -/
inductive TableKind where
  | point
  | condition
  | flue
  | step
  | sequence
  | circuit
  | role
  | device
  deriving DecidableEq, Repr

/-! ### The initial form (R167): "The other fields of each entry take the lowest value of their range" (log 29). -/

/-- A point entry in the initial form (R167). -/
def PointEntry.initial : PointEntry :=
  { source := 0, channel := 0, kind := .temp, offset := -32768, gain := 0, plausLo := -32768, plausHi := -32768,
    k := 0, staleLimit := 1, inUse := false }

/-- A condition entry in the initial form (R167). -/
def CondEntry.initial : CondEntry :=
  { kind := .above, point := 0, threshold := -32768, hyst := 0, level := 0, role := 0, a := 0, b := 0, hold := 0,
    inUse := false }

/-- The flue record in the initial form: "the flue record names no points" (R167). -/
def FlueRecord.initial : FlueRecord :=
  { draughtPt := none, fluePt := none, spillPt := none, roomPt := none, dReq := 0, dBlock := 0, tCold := -400,
    tWarm := -400, rCold := 0, rWarm := 0, riseWindow := 1, sDelta := 0, kW := 0, aMax := 0 }

/-- An OFF output, the lowest code. -/
def Output.off : Output := { mode := .off, value := 0 }

/-- A step record in the initial form (R167). -/
def StepEntry.initial : StepEntry :=
  { outputs := List.replicate 12 Output.off, proving := some 0, provingValue := false, minDwell := 0, maxDwell := 0,
    warmup := false, armRise := false, call := some 0, supervision := [], next := .step 0, onTimeout := .goto 0,
    faultCode := 1, faultClass := .recycle, success := false, inUse := false }

/-- A sequence descriptor in the initial form (R167). -/
def SeqEntry.initial : SeqEntry :=
  { entryStep := 0, cls := .heat, priority := 0, stopLink := some 0, recoveryLink := some 0, recycleLimit := 1,
    resumeMode := .restartStep, trigger := some 0, trace := false, tracePoints := [], inUse := false }

/-- A circuit entry in the initial form (R167). -/
def CircuitEntry.initial : CircuitEntry :=
  { point := 0, tF := -400, l1 := 1, l2 := 1, dFb := 0, margin := 0, tierA := none, tierB := none, tier2 := some 0,
    inUse := false }

/-- A role entry in the initial form: "every role has target NONE" (R167). -/
def RoleEntry.initial : RoleEntry :=
  { kind := .switched, target := .none, tolerance := 0, confirmWindow := 1, ctlAllowed := false, ctlMin := 0,
    ctlMax := 0 }

/-- The device settings' defaults (R140, R167). -/
def DeviceEntry.initial : DeviceEntry :=
  { ctlAddr := 48, startSeq := 0, lockoutSeq := 0, absenceTimeout := 30, refresh := 10, passUnrouted := false,
    unlockHigh := false }

/-- The initial form of a table set (R167). -/
def Tables.initial : Tables :=
  { points := List.replicate 24 PointEntry.initial, conds := List.replicate 32 CondEntry.initial,
    flue := FlueRecord.initial, steps := List.replicate 96 StepEntry.initial,
    seqs := List.replicate 12 SeqEntry.initial, circuits := List.replicate 6 CircuitEntry.initial,
    roles := List.replicate 12 RoleEntry.initial, device := DeviceEntry.initial }

/-! ### Entries by index -/

/-- Point entry P`i`. -/
def Tables.point (t : Tables) (i : Nat) : PointEntry := t.points.getD i PointEntry.initial
/-- Condition entry C`i`. -/
def Tables.cond (t : Tables) (i : Nat) : CondEntry := t.conds.getD i CondEntry.initial
/-- Step record `i`. -/
def Tables.step (t : Tables) (i : Nat) : StepEntry := t.steps.getD i StepEntry.initial
/-- Sequence descriptor S`i`. -/
def Tables.seq (t : Tables) (i : Nat) : SeqEntry := t.seqs.getD i SeqEntry.initial
/-- Circuit entry F`i`. -/
def Tables.circuit (t : Tables) (i : Nat) : CircuitEntry := t.circuits.getD i CircuitEntry.initial
/-- Role entry `i`. -/
def Tables.role (t : Tables) (i : Nat) : RoleEntry := t.roles.getD i RoleEntry.initial

/-- Output `r` of a step (R57: one entry per role). -/
def StepEntry.output (e : StepEntry) (r : Nat) : Output := e.outputs.getD r Output.off

/-- The role that targets line `l`, the lowest if there are several (R115 check 1 keeps it unique). -/
def Tables.roleOfLine (t : Tables) (l : Nat) : Option Nat :=
  (List.range 12).find? fun r => (t.role r).target = .line l

/-- The role routed to channel `ch` of field node `node` (R117, R123). -/
def Tables.roleOfField (t : Tables) (node ch : Nat) : Option Nat :=
  (List.range 12).find? fun r => (t.role r).target = .field node ch

/-- Whether role `r` is a field role. -/
def Tables.isField (t : Tables) (r : Nat) : Bool :=
  match (t.role r).target with
  | .field _ _ => true
  | _ => false

end Sys2Proof.Machine
end

