-- ==== Sys2Proof/Machine/Units.lean ====
section
/-! DEFINITION. The runtime state of the part's units and its reset forms, chapter by chapter. Every timer that
counts down holds the deciseconds left; none means stopped. -/

namespace Sys2Proof.Machine

/-! ### The part -/

/-- Whether the part is without supply, between device reset and the end of the image check, under committed
tables, or in fallback mode (R140, R151, R167). -/
inductive Phase where
  | off
  | checking
  | normal
  | fallback
  deriving DecidableEq, Repr

/-- Levels of the input pins and sense inputs as they stand (R6, R118, R120, R121). -/
structure Pins where
  in2High : Bool
  in3High : Bool
  limitClosed : Bool
  unlockHigh : Bool
  sense : List Bool
  deriving DecidableEq, Repr

/-- The pins at State.reset (log 7). -/
def Pins.initial : Pins :=
  { in2High := false, in3High := false, limitClosed := true, unlockHigh := true, sense := List.replicate 8 false }

/-- The order in which the hand-offs of one event are taken where the manual gives none (log 3): the Condition
Unit's group, the Flue (or Sequence) Unit's group, the Trace (or Fault) Unit's group. -/
inductive HandoffOrder where
  | conditionFlueTrace
  | conditionTraceFlue
  | flueConditionTrace
  | flueTraceCondition
  | traceConditionFlue
  | traceFlueCondition
  deriving DecidableEq, Repr

/-! ### Points (R3) -/

/-- A point's quality (R3), coded in this order. -/
inductive Quality where
  | none
  | good
  | implausible
  | stale
  deriving DecidableEq, Repr

/-- A point's runtime record (R3). -/
structure PointRun where
  raw : Option Nat
  value : Option Int
  filtered : Option Int
  quality : Quality
  age : Nat
  deriving DecidableEq, Repr

/-- The empty record of R3 and R18. -/
def PointRun.empty : PointRun := { raw := none, value := none, filtered := none, quality := .none, age := 0 }

/-! ### Conditions (R22) -/

/-- A condition's runtime record (R22); `timer` holds the deciseconds elapsed. -/
structure CondRun where
  raw : Tri
  held : Tri
  timer : Option Nat
  deriving DecidableEq, Repr

/-- The reset form of R22. -/
def CondRun.reset : CondRun := { raw := .unknown, held := .unknown, timer := none }

/-! ### Flue (R42 to R53) -/

/-- States of the rise test (R47), coded in this order. -/
inductive RiseState where
  | idle
  | armed
  | passed
  | failed
  deriving DecidableEq, Repr

/-- The four flue values, in the order in which R168's layouts list them. -/
inductive FlueKind where
  | draught
  | blocked
  | spill
  | rise
  deriving DecidableEq, Repr

/-- The Flue Unit's runtime (R55). -/
structure FlueRun where
  window : List Int
  draught : Tri
  blocked : Tri
  spill : Tri
  rise : RiseState
  baseline : Option Int
  required : Option Nat
  riseTimer : Option Nat
  allowance : Option Nat
  allowanceFrom : Option Int
  deriving DecidableEq, Repr

/-- The reset form of R56. -/
def FlueRun.reset : FlueRun :=
  { window := [], draught := .unknown, blocked := .unknown, spill := .unknown, rise := .idle, baseline := none,
    required := none, riseTimer := none, allowance := none, allowanceFrom := none }

/-- FLUE_RISE follows the rise test's state (R47). -/
def RiseState.value : RiseState → Tri
  | .passed => .yes
  | .failed => .no
  | .idle => .unknown
  | .armed => .unknown

/-- The current value of a flue kind (R30). -/
def FlueRun.value (f : FlueRun) : FlueKind → Tri
  | .draught => f.draught
  | .blocked => f.blocked
  | .spill => f.spill
  | .rise => f.rise.value

/-! ### Sequences (R61, R81, R92) -/

/-- A saved context (R61): step, elapsed dwell, and the allowance that was applied, if any. -/
structure Saved where
  step : Nat
  elapsed : Nat
  allowance : Option Nat
  deriving DecidableEq, Repr

/-- A sequence's runtime (R61); `active`, `nested` and `return_link` are views of the chain (log 30). -/
structure SeqRun where
  saved : Option Saved
  recycle : Nat
  deriving DecidableEq, Repr

/-- The reset form of a descriptor (R61). -/
def SeqRun.reset : SeqRun := { saved := none, recycle := 0 }

/-- The running-step record (R61). -/
structure Running where
  step : Nat
  elapsed : Nat
  minDwell : Nat
  maxDwell : Nat
  allowance : Option Nat
  markTaken : Bool
  hold : Bool
  deriving DecidableEq, Repr

/-- The sources of a pending-trigger flag (R92): the sequence's own condition and the circuits F0 to F5. -/
structure Trigger where
  own : Bool
  circuits : List Bool
  deriving DecidableEq, Repr

/-- A flag with no source. -/
def Trigger.clear : Trigger := { own := false, circuits := List.replicate 6 false }

/-- A flag stands while it has at least one source (R92). -/
def Trigger.stands (t : Trigger) : Bool := t.own || t.circuits.any id

/-- The Sequence Unit (R61, R75, R81, R92, R95). -/
structure SeqUnit where
  chain : List Nat
  runs : List SeqRun
  running : Option Running
  triggers : List Trigger
  demand : Bool
  purgeDue : Bool
  deriving DecidableEq, Repr

/-- The Sequence Unit at device reset (R80, R96). -/
def SeqUnit.reset : SeqUnit :=
  { chain := [], runs := List.replicate 12 SeqRun.reset, running := none,
    triggers := List.replicate 12 Trigger.clear, demand := false, purgeDue := false }

/-! ### Frost circuits (R100) -/

/-- Stages of a circuit (R100), coded in this order. -/
inductive Stage where
  | quiet
  | circulate
  | firingRequested
  | firing
  deriving DecidableEq, Repr

/-- Where a deficit came from (R100), coded in this order. -/
inductive DeficitSource where
  | point
  | fallback
  deriving DecidableEq, Repr

/-- A circuit's runtime (R100). -/
structure CircuitRun where
  debt : Nat
  stage : Stage
  blocked : Bool
  last : Option (Int × DeficitSource)
  deriving DecidableEq, Repr

/-- The reset form of R100. -/
def CircuitRun.reset : CircuitRun := { debt := 0, stage := .quiet, blocked := false, last := none }

/-! ### Roles and lines (R116 to R124) -/

/-- The claimants, highest first (R116), coded in this order. -/
inductive Claimant where
  | limit
  | lockout
  | sequence
  | frost
  | controller
  | default
  deriving DecidableEq, Repr

/-- A role's runtime (R116, R117, R122 to R124). The CONTROLLER slot holds `requested` while `ctlFilled`. -/
structure RoleRun where
  limit : Option Nat
  lockout : Option Nat
  sequence : Option Nat
  frost : Option Nat
  ctlFilled : Bool
  requested : Nat
  applied : Nat
  owner : Claimant
  actual : Option Nat
  since : Bool
  confirm : Option Nat
  heard : Option Nat
  refresh : Option Nat
  deriving DecidableEq, Repr

/-- A role before the tables are restored, and in fallback mode (R125, R126). -/
def RoleRun.reset : RoleRun :=
  { limit := none, lockout := none, sequence := none, frost := none, ctlFilled := false, requested := 0, applied := 0,
    owner := .default, actual := none, since := false, confirm := none, heard := none, refresh := none }

/-- A line's runtime (R118, R119); its sense state is the pin's. -/
structure LineRun where
  commanded : Bool
  settle : Option Nat
  mismatch : Bool
  deriving DecidableEq, Repr

/-- A line at device reset: OFF (R125), mark clear (R119). -/
def LineRun.reset : LineRun := { commanded := false, settle := none, mismatch := false }

/-! ### The gate and the ports (R131 to R140, R160 to R162) -/

/-- Notice kinds (R134), coded in this order (Table 45). -/
inductive NoticeKind where
  | lockout
  | fault
  | frost
  | chain
  | drive
  | trace
  | unlock
  deriving DecidableEq, Repr

/-- An entry of the pending-notice set (R134, R135): its flag, whether its content is newer than the notice in
hand, and the content as laid out by Table 45. -/
structure Notice where
  flag : Bool
  newer : Bool
  content : List Byte
  deriving DecidableEq, Repr

/-- An entry with no notice pending. -/
def Notice.none : Notice := { flag := false, newer := false, content := [] }

/-- A slot of the substitution set (R134); `newer` marks a value placed since the slot was last selected. -/
structure Slot where
  node : Nat
  channel : Nat
  last : Option Nat
  pending : Bool
  newer : Bool
  deriving DecidableEq, Repr

/-- The Frame Gate (R128 to R140). -/
structure Gate where
  up : List Frame
  down : List Frame
  reply : List Frame
  slots : List (Option Slot)
  notices : List Notice
  driveCount : Nat
  present : Bool
  absence : Option Nat
  deriving DecidableEq, Repr

/-- The gate at device reset (R140). -/
def Gate.reset : Gate :=
  { up := [], down := [], reply := [], slots := List.replicate 12 none, notices := List.replicate 7 Notice.none,
    driveCount := 0, present := false, absence := none }

/-- What a port's frame in hand is (R136, R137): it decides what its sending clears. -/
inductive HandTag where
  | forwarded
  | reply
  | notice (k : NoticeKind)
  | substitution (role : Nat)
  deriving DecidableEq, Repr

/-- A frame in hand (R131, R136, R137). -/
structure InHand where
  frame : Frame
  tag : HandTag
  deriving DecidableEq, Repr

/-- What a port may hear next (R160, R161; log 13): a frame that begins after the quiet interval that has ended, the
frame under way that won against its own, or nothing before the next quiet interval. -/
inductive Hearing where
  | ready
  | receiving
  | waiting
  deriving DecidableEq, Repr

/-- A port (R160 to R162). `lastSent` is the model's own record of the bytes last sent whole (log 31). -/
structure PortState where
  hearing : Hearing
  sending : Bool
  hand : Option InHand
  lastSent : List Byte
  deriving DecidableEq, Repr

/-- An idle port: "as if a quiet interval had just ended" (R162). -/
def PortState.idle : PortState := { hearing := .ready, sending := false, hand := none, lastSent := [] }

/-! ### Faults (R143 to R149) -/

/-- Fault classes (R143), coded in this order. -/
inductive FaultClass where
  | notice
  | recycle
  | lockout
  deriving DecidableEq, Repr

/-- What became of a fault (R143), coded in this order. -/
inductive FaultOutcome where
  | noted
  | recycled
  | lockedOut
  | whileLocked
  deriving DecidableEq, Repr

/-- The current fault record (R143). -/
structure FaultRecord where
  code : Nat
  cls : FaultClass
  outcome : FaultOutcome
  limitMark : Bool
  seq : Option Nat
  step : Option Nat
  line : Option Nat
  time : Nat
  flueTemp : Option Int
  deriving DecidableEq, Repr

/-- A lockout history entry (R145). -/
structure HistoryEntry where
  number : Nat
  cause : Nat
  seq : Option Nat
  step : Option Nat
  limitMark : Bool
  flueTemp : Option Int
  second : Option Nat
  deriving DecidableEq, Repr

/-- The lockout data (R150), history newest first. -/
structure LockoutData where
  locked : Bool
  number : Nat
  history : List HistoryEntry
  allowance : Nat
  deriving DecidableEq, Repr

/-- The initial form of the lockout data (R151). -/
def LockoutData.initial : LockoutData := { locked := false, number := 0, history := [], allowance := 3 }

/-- The Fault Unit (R142 to R149). -/
structure FaultUnit where
  record : Option FaultRecord
  data : LockoutData
  regain : Option Nat
  deriving DecidableEq, Repr

/-- A fault as handed to the Fault Unit (R142). -/
structure FaultIn where
  code : Nat
  cls : FaultClass
  seq : Option Nat
  step : Option Nat
  line : Option Nat
  deriving DecidableEq, Repr

/-! ### The trace (R153) -/

/-- A trace entry's kind and payload (R153, Table 38). -/
inductive TraceKind where
  | empty
  | start (seq : Nat)
  | sample (point : Nat) (value : Int)
  | step (seq step : Nat)
  | fault (code : Nat)
  | gap (count : Nat)
  | finish (count : Nat)
  deriving DecidableEq, Repr

/-- A trace entry (R153). -/
structure TraceEntry where
  kind : TraceKind
  record : Nat
  offset : Nat
  deriving DecidableEq, Repr

/-- The entry every place holds at device reset (R159). -/
def TraceEntry.empty : TraceEntry := { kind := .empty, record := 0, offset := 0 }

/-- The open record (R153); `ended` is the offset of its end once it has ended. -/
structure OpenRecord where
  number : Nat
  seq : Nat
  start : Nat
  count : Nat
  ended : Option Nat
  deriving DecidableEq, Repr

/-- The Trace Unit (R153). `gapAt` is the offset of the first uncounted entry (R157). -/
structure TraceUnit where
  mem : List TraceEntry
  pos : Nat
  ready0 : Bool
  ready1 : Bool
  hold : Bool
  gap : Nat
  gapAt : Nat
  counter : Nat
  opened : Option OpenRecord
  deriving DecidableEq, Repr

/-- The Trace Unit at device reset (R159). -/
def TraceUnit.reset : TraceUnit :=
  { mem := List.replicate 512 TraceEntry.empty, pos := 0, ready0 := false, ready1 := false, hold := false, gap := 0,
    gapAt := 0, counter := 0, opened := none }

/-! ### The store (R150, R164 to R167) -/

/-- One copy of the lockout data whose CRC-16 is good (R150). -/
structure Copy where
  data : LockoutData
  generation : Nat
  deriving DecidableEq, Repr

/-- A persistence write in flight (R150). -/
structure CopyWrite where
  target : Nat
  copy : Copy
  deriving DecidableEq, Repr

/-- The commit state (R163, R165, R166): none, accepted and waiting for a persistence write, or writing. -/
inductive CommitPhase where
  | none
  | waiting
  | writing
  deriving DecidableEq, Repr

/-- The Table Store's non-volatile content and writes (R150, R166). An image or copy that fails its check is none
(log 10). -/
structure Store where
  image : Option Tables
  copy0 : Option Copy
  copy1 : Option Copy
  write : Option CopyWrite
  again : Bool
  commit : CommitPhase
  deriving DecidableEq, Repr

/-- The management handler's assembly (R164): kind, index, the part expected next, and the fields so far. -/
structure Assembly where
  kind : TableKind
  index : Nat
  nextPart : Nat
  fields : List Byte
  deriving DecidableEq, Repr

end Sys2Proof.Machine
end

