-- ==== Sys2Proof/Machine/State.lean ====
section
/-! DEFINITION. The whole state of the part, as plain data, the outcomes a step may stop with, and the state after
reset. -/

namespace Sys2Proof.Machine

/-- The state of the U340, and the queue of commands waiting. -/
structure State where
  pending : List Instr
  order : HandoffOrder
  phase : Phase
  clock : Nat
  pins : Pins
  mgmtAddr : Nat
  tables : Tables
  staging : Tables
  assembly : Option Assembly
  points : List PointRun
  pointTimer : Nat
  conds : List CondRun
  flue : FlueRun
  seq : SeqUnit
  circuits : List CircuitRun
  frostTimer : Nat
  roles : List RoleRun
  lines : List LineRun
  gate : Gate
  ctlPort : PortState
  fieldPort : PortState
  fault : FaultUnit
  trace : TraceUnit
  store : Store
  deriving DecidableEq, Repr

/-- Why a step stops with a fault. -/
inductive Fault where
  /-- Raised by every command that runs a cascade, when its internal events never come to an end within
  Config.cascadeLimit (log 5). Safe: the manual gives no resulting state there. -/
  | cascadeUnending
  deriving DecidableEq, Repr

/-- Why a step is refused. -/
inductive Refusal where
  /-- Raised by an arm of exec that has no meaning yet; no arm is so. Safe. -/
  | notModelled (mnemonic : String)
  deriving DecidableEq, Repr

/-- The machine right after the first power-on reset of a part whose storage was never written (R151, R167; logs 6
and 7): the lockout data in its initial form, copy 0 being written and copy 1 to follow, the image check running. -/
def State.reset : State :=
  { pending := [], order := .conditionFlueTrace, phase := .checking, clock := 0, pins := Pins.initial, mgmtAddr := 56,
    tables := Tables.initial, staging := Tables.initial, assembly := none,
    points := List.replicate 24 PointRun.empty, pointTimer := 0, conds := List.replicate 32 CondRun.reset,
    flue := FlueRun.reset, seq := SeqUnit.reset, circuits := List.replicate 6 CircuitRun.reset, frostTimer := 0,
    roles := List.replicate 12 RoleRun.reset, lines := List.replicate 8 LineRun.reset, gate := Gate.reset,
    ctlPort := PortState.idle, fieldPort := PortState.idle,
    fault := { record := none, data := LockoutData.initial, regain := none }, trace := TraceUnit.reset,
    store := { image := none, copy0 := none, copy1 := none,
               write := some { target := 0, copy := { data := LockoutData.initial, generation := 0 } },
               again := true, commit := .none } }

end Sys2Proof.Machine
end

