-- ==== Sys2Proof/Machine/Flags.lean ====
section
/-! DEFINITION. The computations of values and three-valued results, one function per rule, with no state: scaling
and filter, condition kinds, flue values, the rise requirement, the warm-up allowance, the frost debt, the applied
value of a role. -/

namespace Sys2Proof.Machine

/-- A quantity saturated to a signed 16-bit range (R1, R7). -/
def saturate16 (z : Int) : Int :=
  if z < -32768 then -32768 else if 32767 < z then 32767 else z

/-! ### Points (chapter 1) -/

/-- The code as taken: "A code above 4095 is taken as 4095" (R5). -/
def limitCode (code : Nat) : Nat := min code 4095

/-- The scaled value of a limited code (R7). -/
def scaleCode (e : PointEntry) (c : Nat) : Int :=
  saturate16 (e.offset + ((c * e.gain + 2048) / 4096 : Nat))

/-- The contact value of a limited code (R9). -/
def contactValue (c : Nat) : Int := if 2048 ≤ c then 1 else 0

/-- Whether a scaled value is plausible (R8). -/
def plausible (e : PointEntry) (v : Int) : Bool := e.plausLo ≤ v && v ≤ e.plausHi

/-- One update of the filter: the difference over 2^k, truncated towards zero (R10). -/
def filterUpdate (k : Nat) (filtered v : Int) : Int := filtered + Int.tdiv (v - filtered) (2 ^ k)

/-- The filtered value after a plausible reading on the scaled path (R10): an update from GOOD, a seeding otherwise. -/
def filteredAfter (e : PointEntry) (r : PointRun) (v : Int) : Int :=
  match r.quality, r.filtered with
  | .good, some f => filterUpdate e.k f v
  | _, _ => v

/-- The point's record after a plausible reading of value `v` (R8, R11). -/
def takePlausible (c : Nat) (v filtered : Int) : PointRun :=
  { raw := some c, value := some v, filtered := some filtered, quality := .good, age := 0 }

/-- The point's record after an implausible reading (R8): NONE and STALE stay, GOOD becomes IMPLAUSIBLE. -/
def takeImplausible (c : Nat) (r : PointRun) : PointRun :=
  { r with raw := some c, quality := if r.quality = .good then .implausible else r.quality }

/-- Whether a reading of limited code `c` is plausible at the point (R8, R9). -/
def readingPlausible (e : PointEntry) (c : Nat) : Bool :=
  match e.kind with
  | .contact => true
  | _ => plausible e (scaleCode e c)

/-- The point's record after a reading of limited code `c` (R5, R8 to R11). -/
def afterReading (e : PointEntry) (r : PointRun) (c : Nat) : PointRun :=
  match e.kind with
  | .contact => takePlausible c (contactValue c) (contactValue c)
  | _ =>
    if plausible e (scaleCode e c) then takePlausible c (scaleCode e c) (filteredAfter e r (scaleCode e c))
    else takeImplausible c r

/-- The point's record after a second mark (R12). -/
def afterMark (e : PointEntry) (r : PointRun) : PointRun :=
  match r.quality with
  | .none => r
  | q =>
    { r with
      quality := if e.staleLimit ≤ r.age ∧ (q = .good ∨ q = .implausible) then .stale else q
      age := min (r.age + 1) 255 }

/-- Whether two records differ in what R13 hands to the Condition Unit: filtered value or quality. -/
def pointChanged (old new : PointRun) : Bool := old.filtered != new.filtered || old.quality != new.quality

/-- The filtered value of a point that is GOOD; none otherwise. -/
def goodValue (r : PointRun) : Option Int := if r.quality = .good then r.filtered else none

/-! ### Conditions (chapter 2) -/

/-- ABOVE (R24); `v` is the filtered value of a GOOD point. -/
def aboveRaw (v : Option Int) (t : Int) (h : Nat) (previous : Tri) : Tri :=
  match v with
  | none => .unknown
  | some f => if t ≤ f then .yes else if f < t - h then .no else if previous = .yes then .yes else .no

/-- BELOW, the mirror of ABOVE (R25). -/
def belowRaw (v : Option Int) (t : Int) (h : Nat) (previous : Tri) : Tri :=
  match v with
  | none => .unknown
  | some f => if f ≤ t then .yes else if t + h < f then .no else if previous = .yes then .yes else .no

/-- CONTACT (R26). -/
def contactRaw (v : Option Int) (level : Nat) : Tri :=
  match v with
  | none => .unknown
  | some f => if f = level then .yes else .no

/-- BOTH (R29, Table 17). -/
def bothRaw : Tri → Tri → Tri
  | .no, _ => .no
  | _, .no => .no
  | .yes, .yes => .yes
  | _, _ => .unknown

/-- EITHER (R29, Table 17). -/
def eitherRaw : Tri → Tri → Tri
  | .yes, _ => .yes
  | _, .yes => .yes
  | .no, .no => .no
  | _, _ => .unknown

/-- Whether an actual value is within the role's tolerance of the applied value, in either direction (R27). -/
def withinTolerance (tolerance actual applied : Nat) : Bool :=
  actual ≤ applied + tolerance && applied ≤ actual + tolerance

/-- ROLE_CONFIRMED of a field role (R27). -/
def fieldConfirmed (e : RoleEntry) (r : RoleRun) : Tri :=
  if r.since then
    match r.actual with
    | some a => if withinTolerance e.tolerance a r.applied then .yes else .no
    | none => .no
  else if r.confirm.isSome then .unknown else .no

/-- ROLE_CONFIRMED of a direct-line role (R28). -/
def lineConfirmed (r : RoleRun) (l : LineRun) (sense : Bool) : Tri :=
  if l.settle.isSome then .unknown else if sense = (r.applied != 0) then .yes else .no

/-- The held value and the hold timer after an evaluation (R31). -/
def afterEvaluation (hold : Nat) (c : CondRun) (now : Tri) : CondRun :=
  match now, c.raw with
  | .yes, .yes => c
  | .yes, _ => if hold = 0 then { raw := .yes, held := .yes, timer := none } else { c with raw := .yes, timer := some 0 }
  | _, _ => { raw := now, held := now, timer := none }

/-- Whether a supervision entry is violated by a held value (R68). -/
def violated (e : Supervision) (held : Tri) : Bool :=
  match held with
  | .unknown => e.fail
  | .yes => !e.expected
  | .no => e.expected

/-- Whether a held value proves a step (R65); UNKNOWN never does. -/
def proves (value : Bool) (held : Tri) : Bool :=
  match held with
  | .unknown => false
  | .yes => value
  | .no => !value

/-! ### Flue (chapter 3) -/

/-- The draught window after a reading (R42): at most eight values, the oldest removed first. -/
def windowAppend (w : List Int) (v : Int) : List Int := (if 8 ≤ w.length then w.drop (w.length - 7) else w) ++ [v]

/-- FLUE_DRAUGHT (R44). -/
def draughtValue (f : FlueRecord) (w : List Int) : Tri :=
  if w.length < 8 then .unknown else if w.all fun v => decide ((f.dReq : Int) ≤ v) then .yes else .no

/-- FLUE_BLOCKED (R45), from the four newest values. -/
def blockedValue (f : FlueRecord) (w : List Int) : Tri :=
  if w.length < 4 then .unknown
  else if (w.drop (w.length - 4)).all fun v => decide (v < (f.dBlock : Int)) then .yes else .no

/-- FLUE_SPILL (R46), from the values of the two points where they are GOOD. -/
def spillValue (f : FlueRecord) (spill room : Option Int) : Tri :=
  match spill, room with
  | some s, some r => if (f.sDelta : Int) ≤ s - r then .yes else .no
  | _, _ => .unknown

/-- The required rise R_q for a baseline (R49). -/
def requiredRise (f : FlueRecord) (b : Int) : Nat :=
  if b ≤ f.tCold then f.rCold
  else if f.tWarm ≤ b then f.rWarm
  else f.rCold - (f.rCold - f.rWarm) * (b - f.tCold).toNat / (f.tWarm - f.tCold).toNat

/-- The warm-up allowance in ds (R53); `t` is the flue point's value when it is GOOD. -/
def warmupAllowance (f : FlueRecord) (t : Option Int) : Nat :=
  match t with
  | none => f.aMax
  | some v => if f.tCold ≤ v then 0 else min f.aMax ((f.tCold - v).toNat * f.kW / 10)

/-- A maximum dwell with an allowance added: 0 means no limit and stays 0 (R54). -/
def extendMax (maxDwell allowance : Nat) : Nat := if maxDwell = 0 then 0 else maxDwell + allowance

/-! ### Frost (chapter 6) -/

/-- The largest debt (R102). -/
def debtLimit : Nat := 16777215

/-- A circuit's deficit and where it came from (R102). -/
def deficit (e : CircuitEntry) (v : Option Int) : Int × DeficitSource :=
  match v with
  | some f => (e.tF - f, .point)
  | none => (e.dFb, .fallback)

/-- The debt after one mark (R102). -/
def debtAfter (debt : Nat) (d : Int) : Nat :=
  if 0 < d then min (debt + d.toNat) debtLimit else debt - (-d).toNat

/-- Whether a circuit's point is GOOD at or above `T_f` + `margin` (R103, last CIRCULATE row). -/
def warmEnough (e : CircuitEntry) (v : Option Int) : Bool :=
  match v with
  | some f => e.tF + e.margin ≤ f
  | none => false

/-- The stage after one mark (R103, Table 31): the first row that applies. `onChain` is whether `tier2_seq` is on
the chain. -/
def stageAfter (e : CircuitEntry) (stage : Stage) (debt : Nat) (v : Option Int) (onChain : Bool) : Stage :=
  match stage with
  | .quiet => if e.l1 ≤ debt then .circulate else .quiet
  | .circulate =>
    if e.l2 ≤ debt ∧ e.tier2.isSome then (if onChain then .firing else .firingRequested)
    else if debt = 0 ∧ warmEnough e v = true then .quiet
    else .circulate
  | .firingRequested => if debt < e.l1 then .circulate else .firingRequested
  | .firing => .firing

/-- The value an output claims: OFF is 0, ON is 1000, LEVEL v is v, FREE claims nothing (R57, R63, R98). -/
def Output.claim (o : Output) : Option Nat :=
  match o.mode with
  | .off => some 0
  | .on => some 1000
  | .level => some o.value
  | .free => none

/-- The higher of two claims on one role (R105). -/
def maxClaim : Option Nat → Option Nat → Option Nat
  | none, y => y
  | x, none => x
  | some x, some y => some (max x y)

/-! ### Roles (chapter 7) -/

/-- The highest-precedence claimant of a role and its value (R116). -/
def RoleRun.claim (r : RoleRun) : Claimant × Nat :=
  match r.limit, r.lockout, r.sequence, r.frost with
  | some v, _, _, _ => (.limit, v)
  | none, some v, _, _ => (.lockout, v)
  | none, none, some v, _ => (.sequence, v)
  | none, none, none, some v => (.frost, v)
  | none, none, none, none => if r.ctlFilled then (.controller, r.requested) else (.default, 0)

/-- Whether a claimant above CONTROLLER owns the role: the owners whose values are refreshed (R122). -/
def Claimant.refreshed : Claimant → Bool
  | .limit => true
  | .lockout => true
  | .sequence => true
  | .frost => true
  | .controller => false
  | .default => false

/-- A controller value clamped to the role's range and normalised for its kind (R117). -/
def clampRequest (e : RoleEntry) (v : Nat) : Nat :=
  let c := min (max v e.ctlMin) e.ctlMax
  match e.kind with
  | .level => c
  | .switched => if c = 0 then 0 else 1000

/-- The LOCKOUT claim on a role while locked (R116, R145). -/
def lockoutClaim (r : Nat) : Option Nat :=
  if r = 0 ∨ r = 1 ∨ r = 2 ∨ r = 4 then some 0 else if r = 7 then some 1000 else none

/-- The LIMIT claim on a role while the LIMIT input is open (R116, R120). -/
def limitClaim (r : Nat) : Option Nat := if r < 3 then some 0 else none

end Sys2Proof.Machine
end

