-- ==== Sys2Proof/Machine/Operands.lean ====
section
/-! DEFINITION. The byte layouts of chapter 12: frames and their CRC, payload groups, the table entries that LOAD
stages and READ returns, requests and replies, trace entries. -/

namespace Sys2Proof.Machine

/-! ### Numbers and bytes (R168) -/

/-- A byte holding `n` (modulo 256). -/
def u8 (n : Nat) : Byte := BitVec.ofNat 8 n

/-- Two bytes, high byte first (R168). -/
def u16 (n : Nat) : List Byte := [u8 (n / 256), u8 n]

/-- Three bytes, high byte first (R168). -/
def u24 (n : Nat) : List Byte := [u8 (n / 65536), u8 (n / 256), u8 n]

/-- Four bytes, high byte first (R168). -/
def u32 (n : Nat) : List Byte := [u8 (n / 16777216), u8 (n / 65536), u8 (n / 256), u8 n]

/-- A signed two-byte field, two's complement (R168), saturated to its range (R1, log 24). -/
def i16 (z : Int) : List Byte := u16 ((saturate16 z % 65536).toNat)

/-- The number in two bytes, high byte first. -/
def n16 (hi lo : Byte) : Nat := hi.toNat * 256 + lo.toNat

/-- The number in three bytes, high byte first. -/
def n24 (a b c : Byte) : Nat := a.toNat * 65536 + b.toNat * 256 + c.toNat

/-- The signed number in two bytes, two's complement. -/
def s16 (hi lo : Byte) : Int := if 32768 ≤ n16 hi lo then (n16 hi lo : Int) - 65536 else n16 hi lo

/-- A flag as a bit. -/
def bit (b : Bool) : Nat := if b then 1 else 0

/-- Flag bytes list their flags from bit 0 upward (R168). -/
def flagByte (bs : List Bool) : Byte := u8 (bs.foldr (fun b n => bit b + 2 * n) 0)

/-- Bit `i` of a byte. -/
def bitOf (b : Byte) (i : Nat) : Bool := b.toNat / 2 ^ i % 2 = 1

/-- A flag byte whose bits from `n` up are 0: "a bit set where the layout names none" is refused (R169). -/
def flagsOk (n : Nat) (b : Byte) : Bool := b.toNat < 2 ^ n

/-- An index byte holds NONE as 255 (R168). -/
def indexByte (o : Option Nat) : Byte := u8 (o.getD 255)

/-- An optional field's bytes: absent fields still occupy theirs, as 0 (R168). -/
def optU16 (o : Option Nat) : List Byte := u16 (o.getD 0)

/-- An optional signed field's bytes (R168). -/
def optI16 (o : Option Int) : List Byte := i16 (o.getD 0)

/-- An index byte below `n`, or none when it is out of range. -/
def readIndex (n : Nat) (b : Byte) : Option Nat := if b.toNat < n then some b.toNat else none

/-- An index byte below `n` or NONE (255). -/
def readOptIndex (n : Nat) (b : Byte) : Option (Option Nat) :=
  if b.toNat < n then some (some b.toNat) else if b.toNat = 255 then some none else none

/-- Whether `lo ≤ n ≤ hi`. -/
def within (lo n hi : Nat) : Bool := lo ≤ n && n ≤ hi

/-- Whether `lo ≤ z ≤ hi`. -/
def withinI (lo z hi : Int) : Bool := lo ≤ z && z ≤ hi

/-! ### Frames (R160, R168, Table 40) -/

/-- The eight frame kinds. -/
inductive FrameKind where
  | sample
  | state
  | drive
  | manage
  | reply
  | notice
  | linkreset
  | general
  deriving DecidableEq, Repr

/-- The kind in the high four bits of the kind byte; an unassigned code is received as GENERAL (R160, R169). -/
def frameKind (b : Byte) : FrameKind :=
  match b.toNat / 16 with
  | 1 => .sample
  | 2 => .state
  | 3 => .drive
  | 4 => .manage
  | 5 => .reply
  | 6 => .notice
  | 7 => .linkreset
  | _ => .general

/-- A kind byte from its code and sub-code (R168). -/
def kindByte (code sub : Nat) : Byte := u8 (code * 16 + sub)

/-- One bit of the CRC-16 with polynomial x^16 + x^12 + x^5 + 1, most significant bit first (R160). -/
def crcBit (c : Word) : Word := if c.msb then (c <<< 1) ^^^ 0x1021#16 else c <<< 1

/-- One byte of the CRC-16 (R160). -/
def crcByte (c : Word) (b : Byte) : Word :=
  let c := c ^^^ ((b.setWidth 16) <<< 8)
  crcBit (crcBit (crcBit (crcBit (crcBit (crcBit (crcBit (crcBit c)))))))

/-- The CRC-16 of a list of bytes, from an initial value of all ones (R160). -/
def crc16 (bs : List Byte) : Word := bs.foldl crcByte 0xFFFF#16

/-- Header and payload of a frame (R160, Table 40). -/
def frameBody (f : Frame) : List Byte := [f.src, f.dst, f.kind, u8 f.payload.length] ++ f.payload

/-- The bytes of a frame on the line: header, payload, CRC-16 high byte first (R160). -/
def frameBytes (f : Frame) : List Byte := frameBody f ++ u16 (crc16 (frameBody f)).toNat

/-- The frame in a list of received bytes, when it passes R160's checks of length, CRC and source. -/
def receiveBytes (bs : List Byte) : Option Frame :=
  match bs with
  | src :: dst :: kind :: len :: rest =>
    if len.toNat ≤ 24 ∧ rest.length = len.toNat + 2 ∧ src ≠ 0 then
      let f : Frame := { src := src, dst := dst, kind := kind, payload := rest.take len.toNat }
      if rest.drop len.toNat = u16 (crc16 (frameBody f)).toNat then some f else none
    else none
  | _ => none

/-- Whether a reception is one that R160 discards. -/
def discards (bs : List Byte) (ending : ReceptionEnd) : Bool :=
  match ending with
  | .complete => (receiveBytes bs).isNone
  | .stopBit => true
  | .quiet => true

/-- The three-byte groups of a SAMPLE, STATE or DRIVE payload (Table 41): channel and two-byte number. -/
def groups : List Byte → List (Nat × Nat)
  | c :: h :: l :: rest => (c.toNat, n16 h l) :: groups rest
  | _ => []

/-- Whether a payload is 1 to `most` groups of three bytes (R129, R130). -/
def groupsOk (most : Nat) (p : List Byte) : Bool :=
  p.length % 3 = 0 && within 1 (p.length / 3) most

/-- The payload of a list of settings, in order (Table 41). -/
def settingBytes : List (Nat × Nat) → List Byte
  | [] => []
  | (c, v) :: rest => u8 c :: u16 v ++ settingBytes rest

/-! ### Codes of enumerated fields (R168: 0, 1, 2 and onwards in the order listed) -/

/-- A three-valued field: FALSE 0, TRUE 1, UNKNOWN 2. -/
def Tri.code : Tri → Nat
  | .no => 0
  | .yes => 1
  | .unknown => 2

/-- Point kind codes. -/
def PointKind.all : List PointKind := [.temp, .draught, .flame, .level, .contact]
/-- Condition kind codes. -/
def CondKind.all : List CondKind :=
  [.above, .below, .contact, .roleConfirmed, .both, .either, .flueDraught, .flueBlocked, .flueSpill, .flueRise]
/-- Output mode codes. -/
def OutMode.all : List OutMode := [.off, .on, .level, .free]
/-- Step class codes. -/
def StepClass.all : List StepClass := [.recycle, .lockout]
/-- Sequence class codes. -/
def SeqClass.all : List SeqClass := [.heat, .stop, .recovery, .frost, .protect, .service, .lockoutPurge]
/-- Resume mode codes. -/
def ResumeMode.all : List ResumeMode := [.restartStep, .continueStep]
/-- Role kind codes. -/
def RoleKind.all : List RoleKind := [.switched, .level]
/-- Table kind codes, in the order of R164. -/
def TableKind.all : List TableKind := [.point, .condition, .flue, .step, .sequence, .circuit, .role, .device]
/-- Quality codes. -/
def Quality.all : List Quality := [.none, .good, .implausible, .stale]
/-- Rise state codes. -/
def RiseState.all : List RiseState := [.idle, .armed, .passed, .failed]
/-- Stage codes. -/
def Stage.all : List Stage := [.quiet, .circulate, .firingRequested, .firing]
/-- Deficit source codes. -/
def DeficitSource.all : List DeficitSource := [.point, .fallback]
/-- Claimant codes, in the order of R116. -/
def Claimant.all : List Claimant := [.limit, .lockout, .sequence, .frost, .controller, .default]
/-- Fault class codes, in the order of R143. -/
def FaultClass.all : List FaultClass := [.notice, .recycle, .lockout]
/-- Fault outcome codes, in the order of R143. -/
def FaultOutcome.all : List FaultOutcome := [.noted, .recycled, .lockedOut, .whileLocked]
/-- Notice kind codes, in the order of R134. -/
def NoticeKind.all : List NoticeKind := [.lockout, .fault, .frost, .chain, .drive, .trace, .unlock]

/-- The code of a value: its place in the list of its kind. -/
def codeOf {α : Type} [DecidableEq α] (l : List α) (x : α) : Nat := l.findIdx (fun y => decide (y = x))

/-! ### Table entries: reading what LOAD brings (Table 44; ranges of Tables 13, 16, 19, 24, 25, 30, 34 and R164) -/

/-- How many entries a table kind has (Table 6, R164). -/
def TableKind.size : TableKind → Nat
  | .point => 24
  | .condition => 32
  | .flue => 1
  | .step => 96
  | .sequence => 12
  | .circuit => 6
  | .role => 12
  | .device => 1

/-- The lengths of an entry's loaded parts (Table 44). -/
def TableKind.partLengths : TableKind → List Nat
  | .point => [8, 6]
  | .condition => [13]
  | .flue => [16, 7]
  | .step => [20, 15, 9]
  | .sequence => [14]
  | .circuit => [20]
  | .role => [11]
  | .device => [6]

/-- How many runtime parts a READ of the active entry adds (Table 44). -/
def TableKind.runtimeParts : TableKind → Nat
  | .point => 1
  | .condition => 1
  | .flue => 2
  | .step => 0
  | .sequence => 1
  | .circuit => 1
  | .role => 1
  | .device => 0

/-- An output: mode in the top two bits, value in the low ten bits; the bits between are named by nothing, and a
LEVEL value is at most 1000 (R57, R168, R169). The value bits of another mode are kept as loaded (the model's choice,
log 44). -/
def readOutput (hi lo : Byte) : Option Output :=
  let n := n16 hi lo
  match OutMode.all[n / 16384]? with
  | some m =>
    if n / 1024 % 16 = 0 ∧ (m = .level → n % 1024 ≤ 1000) then some { mode := m, value := n % 1024 } else none
  | none => none

/-- A list of outputs. -/
def readOutputs : List Byte → Option (List Output)
  | [] => some []
  | hi :: lo :: rest =>
    match readOutput hi lo, readOutputs rest with
    | some o, some os => some (o :: os)
    | _, _ => none
  | _ => none

/-- A point entry, with the entry checks of R2. -/
def readPoint : List Byte → Option PointEntry
  | [src, ch, kd, o1, o0, g1, g0, fl, lo1, lo0, hi1, hi0, k, st] =>
    match PointKind.all[kd.toNat]? with
    | some kind =>
      let e : PointEntry :=
        { source := src.toNat, channel := ch.toNat, kind := kind, offset := s16 o1 o0, gain := n16 g1 g0,
          plausLo := s16 lo1 lo0, plausHi := s16 hi1 hi0, k := k.toNat, staleLimit := st.toNat, inUse := bitOf fl 0 }
      if flagsOk 1 fl && (e.source = 0 || within 2 e.source 47) && e.channel ≤ 15 && e.k ≤ 4
          && within 1 e.staleLimit 255 && e.plausLo ≤ e.plausHi
          && (e.source != 0 || (e.kind = .contact && (e.channel = 2 || e.channel = 3)))
          && (e.kind ≠ .contact || (e.plausLo ≤ 0 && 1 ≤ e.plausHi)) then some e else none
    | none => none
  | _ => none

/-- Whether the fields that the condition's kind reads are in range (R20, Table 16). -/
def condFieldsOk (e : CondEntry) : Bool :=
  match e.kind with
  | .above => e.point < 24 && e.hyst ≤ 32767
  | .below => e.point < 24 && e.hyst ≤ 32767
  | .contact => e.point < 24 && e.level ≤ 1
  | .roleConfirmed => e.role < 12
  | .both => e.a < 32 && e.b < 32
  | .either => e.a < 32 && e.b < 32
  | .flueDraught => true
  | .flueBlocked => true
  | .flueSpill => true
  | .flueRise => true

/-- Whether an index byte is an index below `n` or NONE (R168): what R169 lets a field hold that the kind does not read. -/
def indexOrNone (n i : Nat) : Bool := i < n || i = 255

/-- Whether every index byte of a condition entry, also one that its kind does not read, is in its list (R164, R169). -/
def condIndicesOk (e : CondEntry) : Bool :=
  indexOrNone 24 e.point && indexOrNone 12 e.role && indexOrNone 32 e.a && indexOrNone 32 e.b

/-- A condition entry, with the checks of R20 and R169. Of the fields that the kind does not read, the index bytes are
checked and `hyst` and `level` are kept as loaded (the model's choice, log 55). -/
def readCond : List Byte → Option CondEntry
  | [kd, pt, t1, t0, h1, h0, lv, ro, a, b, d1, d0, fl] =>
    match CondKind.all[kd.toNat]? with
    | some kind =>
      let e : CondEntry :=
        { kind := kind, point := pt.toNat, threshold := s16 t1 t0, hyst := n16 h1 h0, level := lv.toNat,
          role := ro.toNat, a := a.toNat, b := b.toNat, hold := n16 d1 d0, inUse := bitOf fl 0 }
      if flagsOk 1 fl && e.hold ≤ 600 && condFieldsOk e && condIndicesOk e then some e else none
    | none => none
  | _ => none

/-- The flue record, with the checks of R38. -/
def readFlue : List Byte → Option FlueRecord
  | [dp, fp, sp, rp, q1, q0, b1, b0, c1, c0, w1, w0, rc1, rc0, rw1, rw0, rise1, rise0, sd1, sd0, kw, a1, a0] =>
    match readOptIndex 24 dp, readOptIndex 24 fp, readOptIndex 24 sp, readOptIndex 24 rp with
    | some d, some f, some s, some r =>
      let e : FlueRecord :=
        { draughtPt := d, fluePt := f, spillPt := s, roomPt := r, dReq := n16 q1 q0, dBlock := n16 b1 b0,
          tCold := s16 c1 c0, tWarm := s16 w1 w0, rCold := n16 rc1 rc0, rWarm := n16 rw1 rw0,
          riseWindow := n16 rise1 rise0, sDelta := n16 sd1 sd0, kW := kw.toNat, aMax := n16 a1 a0 }
      if e.dReq ≤ 1000 && e.dBlock ≤ 1000 && withinI (-400) e.tCold 1000 && withinI (-400) e.tWarm 1000
          && e.rCold ≤ 2000 && e.rWarm ≤ 2000 && within 1 e.riseWindow 600 && e.sDelta ≤ 1000 && e.aMax ≤ 3000
      then some e else none
    | _, _, _, _ => none
  | _ => none

/-- The `next` byte: a step, END 253 or HOLD 254 (Table 44). -/
def readNext (b : Byte) : Option NextStep :=
  if b.toNat < 96 then some (.step b.toNat)
  else if b.toNat = 253 then some .finish else if b.toNat = 254 then some .hold else none

/-- The `on_timeout` byte: a step, NONE 254 or FAULT 255 (Table 44). -/
def readTimeout (b : Byte) : Option OnTimeout :=
  if b.toNat < 96 then some (.goto b.toNat)
  else if b.toNat = 254 then some .none else if b.toNat = 255 then some .fault else none

/-- The unused supervision entries: a condition or NONE, and no bit that the layout does not name (R169, log 40). -/
def unusedSupervision : List Byte → Bool
  | c :: f :: rest => (readOptIndex 32 c).isSome && flagsOk 2 f && unusedSupervision rest
  | [] => true
  | [_] => false

/-- The supervision entries: the first `n` pairs of condition and flags (Table 44); the rest is unused. -/
def readSupervision : Nat → List Byte → Option (List Supervision)
  | 0, rest => if unusedSupervision rest then some [] else none
  | n + 1, c :: f :: rest =>
    match readSupervision n rest with
    | some l =>
      if c.toNat < 32 ∧ flagsOk 2 f = true then
        some ({ cond := c.toNat, expected := bitOf f 0, fail := bitOf f 1 } :: l) else none
    | none => none
  | _ + 1, _ => none

/-- The entry checks of a step record (R57). -/
def stepFieldsOk (e : StepEntry) : Bool :=
  e.minDwell ≤ 6000 && e.maxDwell ≤ 6000 && within 1 e.faultCode 63
    && (e.maxDwell = 0 || e.minDwell ≤ e.maxDwell)
    && (match e.onTimeout with
        | .none => e.maxDwell = 0
        | .fault => e.maxDwell != 0
        | .goto _ => e.maxDwell != 0)

/-- Parts 1 (after its outputs) and 2 of a step record. -/
def readStepTail (outputs : List Output) : List Byte → Option StepEntry
  | pr :: fl :: mn1 :: mn0 :: mx1 :: mx0 :: ca :: nx :: ot :: fc :: cl :: n :: sup =>
    match readOptIndex 32 pr, readOptIndex 12 ca, readNext nx, readTimeout ot, StepClass.all[cl.toNat]?,
        (if n.toNat ≤ 4 then readSupervision n.toNat sup else none) with
    | some proving, some call, some next, some timeout, some cls, some supervision =>
      let e : StepEntry :=
        { outputs := outputs, proving := proving, provingValue := bitOf fl 0, minDwell := n16 mn1 mn0,
          maxDwell := n16 mx1 mx0, warmup := bitOf fl 1, armRise := bitOf fl 2, call := call,
          supervision := supervision, next := next, onTimeout := timeout, faultCode := fc.toNat, faultClass := cls,
          success := bitOf fl 3, inUse := bitOf fl 4 }
      if flagsOk 5 fl && stepFieldsOk e then some e else none
    | _, _, _, _, _, _ => none
  | _ => none

/-- A step record, with the entry checks of R57. -/
def readStep (bs : List Byte) : Option StepEntry :=
  match readOutputs (bs.take 24) with
  | some outputs => if outputs.length = 12 ∧ bs.length = 44 then readStepTail outputs (bs.drop 24) else none
  | none => none

/-- The trace points: the first `n` in range, the rest NONE (Table 44: an unused trace point holds NONE). -/
def readTracePoints : Nat → List Byte → Option (List Nat)
  | 0, rest => if rest.all (fun b => b.toNat = 255) then some [] else none
  | n + 1, b :: rest =>
    match readTracePoints n rest with
    | some l => if b.toNat < 24 then some (b.toNat :: l) else none
    | none => none
  | _ + 1, [] => none

/-- A sequence descriptor, with the entry checks of R59. -/
def readSeq : List Byte → Option SeqEntry
  | en :: cl :: pri :: sl :: rl :: lim :: rm :: tr :: fl :: n :: pts =>
    match SeqClass.all[cl.toNat]?, readOptIndex 12 sl, readOptIndex 12 rl, ResumeMode.all[rm.toNat]?,
        readOptIndex 32 tr, (if n.toNat ≤ 4 ∧ pts.length = 4 then readTracePoints n.toNat pts else none) with
    | some cls, some stopLink, some recoveryLink, some resume, some trigger, some points =>
      if en.toNat < 96 && pri.toNat ≤ 3 && within 1 lim.toNat 3 && flagsOk 2 fl then
        some { entryStep := en.toNat, cls := cls, priority := pri.toNat, stopLink := stopLink,
               recoveryLink := recoveryLink, recycleLimit := lim.toNat, resumeMode := resume, trigger := trigger,
               trace := bitOf fl 0, tracePoints := points, inUse := bitOf fl 1 }
      else none
    | _, _, _, _, _, _ => none
  | _ => none

/-- One tier-1 place: role NONE, or a role of 5 to 11 with ON or LEVEL (R98, Table 44). Of the output bytes of a place with
role NONE only the bits that the layout does not name are checked, and a READ returns both as 0 (R169, log 40). -/
def readTier (role hi lo : Byte) : Option (Option TierRole) :=
  if role.toNat = 255 then (if n16 hi lo / 1024 % 16 = 0 then some none else none)
  else
    match readOutput hi lo with
    | some o =>
      if within 5 role.toNat 11 = true ∧ (o.mode = .on ∨ o.mode = .level) then
        some (some { role := role.toNat, output := o }) else none
    | none => none

/-- Whether two tier-1 places name different roles (R98). -/
def tiersDiffer : Option TierRole → Option TierRole → Bool
  | some x, some y => x.role != y.role
  | _, _ => true

/-- A circuit entry, with the entry checks of R98. -/
def readCircuit : List Byte → Option CircuitEntry
  | [pt, t1, t0, la, lb, lc, ma, mb, mc, d1, d0, mg, r1, h1, o1, r2, h2, o2, ts, fl] =>
    match readIndex 24 pt, readTier r1 h1 o1, readTier r2 h2 o2, readOptIndex 12 ts with
    | some point, some tierA, some tierB, some tier2 =>
      let e : CircuitEntry :=
        { point := point, tF := s16 t1 t0, l1 := n24 la lb lc, l2 := n24 ma mb mc, dFb := n16 d1 d0,
          margin := mg.toNat, tierA := tierA, tierB := tierB, tier2 := tier2, inUse := bitOf fl 0 }
      if flagsOk 1 fl && withinI (-400) e.tF 400 && within 1 e.l1 debtLimit && within 1 e.l2 debtLimit
          && e.l1 ≤ e.l2 && e.dFb ≤ 500 && e.margin ≤ 200 && tiersDiffer tierA tierB then some e else none
    | _, _, _, _ => none
  | _ => none

/-- A role's target: type, line or node, channel (Table 44); bytes the type does not use are not read (log 40). -/
def readTarget (ty x ch : Byte) : Option Target :=
  match ty.toNat with
  | 0 => some .none
  | 1 => if x.toNat < 8 then some (.line x.toNat) else none
  | 2 => if within 2 x.toNat 47 && ch.toNat ≤ 15 then some (.field x.toNat ch.toNat) else none
  | _ => none

/-- A role entry, with the entry checks of R114. -/
def readRole : List Byte → Option RoleEntry
  | [kd, ty, x, ch, tol, cw, fl, mn1, mn0, mx1, mx0] =>
    match RoleKind.all[kd.toNat]?, readTarget ty x ch with
    | some kind, some target =>
      let e : RoleEntry :=
        { kind := kind, target := target, tolerance := tol.toNat, confirmWindow := cw.toNat, ctlAllowed := bitOf fl 0,
          ctlMin := n16 mn1 mn0, ctlMax := n16 mx1 mx0 }
      if flagsOk 1 fl && e.tolerance ≤ 100 && within 1 e.confirmWindow 60 && e.ctlMax ≤ 1000 && e.ctlMin ≤ e.ctlMax
      then some e else none
    | _, _ => none
  | _ => none

/-- The device settings, with the ranges of R164. -/
def readDevice : List Byte → Option DeviceEntry
  | [ad, st, lo, ab, rf, fl] =>
    if within 48 ad.toNat 55 && st.toNat < 12 && lo.toNat < 12 && within 5 ab.toNat 250 && within 1 rf.toNat 60
        && flagsOk 2 fl then
      some { ctlAddr := ad.toNat, startSeq := st.toNat, lockoutSeq := lo.toNat, absenceTimeout := ab.toNat,
             refresh := rf.toNat, passUnrouted := bitOf fl 0, unlockHigh := bitOf fl 1 }
    else none
  | _ => none

/-- The staging image with one whole entry replaced, when the entry passes every check (R164). -/
def stageEntry (t : Tables) (kind : TableKind) (i : Nat) (bs : List Byte) : Option Tables :=
  if kind.size ≤ i then none
  else
    match kind with
    | .point => (readPoint bs).map fun e => { t with points := t.points.set i e }
    | .condition => (readCond bs).map fun e => { t with conds := t.conds.set i e }
    | .flue => (readFlue bs).map fun e => { t with flue := e }
    | .step => (readStep bs).map fun e => { t with steps := t.steps.set i e }
    | .sequence => (readSeq bs).map fun e => { t with seqs := t.seqs.set i e }
    | .circuit => (readCircuit bs).map fun e => { t with circuits := t.circuits.set i e }
    | .role => (readRole bs).map fun e => { t with roles := t.roles.set i e }
    | .device => (readDevice bs).map fun e => { t with device := e }

/-! ### Table entries: what READ returns of the loaded fields (Table 44) -/

/-- The bytes of an output (R168). -/
def outputBytes (o : Output) : List Byte := u16 (codeOf OutMode.all o.mode * 16384 + o.value % 1024)

/-- The bytes of a point entry, both parts. -/
def pointBytes (e : PointEntry) : List Byte :=
  [u8 e.source, u8 e.channel, u8 (codeOf PointKind.all e.kind)] ++ i16 e.offset ++ u16 e.gain ++ [flagByte [e.inUse]]
    ++ i16 e.plausLo ++ i16 e.plausHi ++ [u8 e.k, u8 e.staleLimit]

/-- The bytes of a condition entry. -/
def condBytes (e : CondEntry) : List Byte :=
  [u8 (codeOf CondKind.all e.kind), u8 e.point] ++ i16 e.threshold ++ u16 e.hyst
    ++ [u8 e.level, u8 e.role, u8 e.a, u8 e.b] ++ u16 e.hold ++ [flagByte [e.inUse]]

/-- The bytes of the flue record, both parts. -/
def flueBytes (e : FlueRecord) : List Byte :=
  [indexByte e.draughtPt, indexByte e.fluePt, indexByte e.spillPt, indexByte e.roomPt] ++ u16 e.dReq ++ u16 e.dBlock
    ++ i16 e.tCold ++ i16 e.tWarm ++ u16 e.rCold ++ u16 e.rWarm ++ u16 e.riseWindow ++ u16 e.sDelta ++ [u8 e.kW]
    ++ u16 e.aMax

/-- The `next` byte. -/
def nextByte : NextStep → Byte
  | .step k => u8 k
  | .finish => u8 253
  | .hold => u8 254

/-- The `on_timeout` byte. -/
def timeoutByte : OnTimeout → Byte
  | .goto k => u8 k
  | .none => u8 254
  | .fault => u8 255

/-- The bytes of one supervision entry. -/
def supervisionBytes (e : Supervision) : List Byte := [u8 e.cond, flagByte [e.expected, e.fail]]

/-- A list of bytes filled up to a length. -/
def padTo (n : Nat) (x : Byte) (bs : List Byte) : List Byte := (bs ++ List.replicate n x).take n

/-- The bytes of a step record, all three parts; unused supervision entries are 0 (log 19). -/
def stepBytes (e : StepEntry) : List Byte :=
  (e.outputs.map outputBytes).flatten ++ [indexByte e.proving, flagByte [e.provingValue, e.warmup, e.armRise, e.success, e.inUse]]
    ++ u16 e.minDwell ++ u16 e.maxDwell
    ++ [indexByte e.call, nextByte e.next, timeoutByte e.onTimeout, u8 e.faultCode, u8 (codeOf StepClass.all e.faultClass)]
    ++ [u8 e.supervision.length] ++ padTo 8 0 (e.supervision.map supervisionBytes).flatten

/-- The bytes of a sequence descriptor. -/
def seqBytes (e : SeqEntry) : List Byte :=
  [u8 e.entryStep, u8 (codeOf SeqClass.all e.cls), u8 e.priority, indexByte e.stopLink, indexByte e.recoveryLink,
    u8 e.recycleLimit, u8 (codeOf ResumeMode.all e.resumeMode), indexByte e.trigger, flagByte [e.trace, e.inUse],
    u8 e.tracePoints.length] ++ padTo 4 255 (e.tracePoints.map u8)

/-- The bytes of one tier-1 place. -/
def tierBytes : Option TierRole → List Byte
  | none => [255, 0, 0]
  | some t => u8 t.role :: outputBytes t.output

/-- The bytes of a circuit entry. -/
def circuitBytes (e : CircuitEntry) : List Byte :=
  [u8 e.point] ++ i16 e.tF ++ u24 e.l1 ++ u24 e.l2 ++ u16 e.dFb ++ [u8 e.margin] ++ tierBytes e.tierA
    ++ tierBytes e.tierB ++ [indexByte e.tier2, flagByte [e.inUse]]

/-- The bytes of a target: type, line or node, channel. -/
def targetBytes : Target → List Byte
  | .none => [0, 0, 0]
  | .line l => [1, u8 l, 0]
  | .field n c => [2, u8 n, u8 c]

/-- The bytes of a role entry. -/
def roleBytes (e : RoleEntry) : List Byte :=
  [u8 (codeOf RoleKind.all e.kind)] ++ targetBytes e.target ++ [u8 e.tolerance, u8 e.confirmWindow, flagByte [e.ctlAllowed]]
    ++ u16 e.ctlMin ++ u16 e.ctlMax

/-- The bytes of the device settings. -/
def deviceBytes (e : DeviceEntry) : List Byte :=
  [u8 e.ctlAddr, u8 e.startSeq, u8 e.lockoutSeq, u8 e.absenceTimeout, u8 e.refresh, flagByte [e.passUnrouted, e.unlockHigh]]

/-- The loaded bytes of an entry of a table set, all parts together. -/
def entryBytes (t : Tables) (kind : TableKind) (i : Nat) : List Byte :=
  match kind with
  | .point => pointBytes (t.point i)
  | .condition => condBytes (t.cond i)
  | .flue => flueBytes t.flue
  | .step => stepBytes (t.step i)
  | .sequence => seqBytes (t.seq i)
  | .circuit => circuitBytes (t.circuit i)
  | .role => roleBytes (t.role i)
  | .device => deviceBytes t.device

/-- Part `p` of an entry's loaded bytes (Table 44). -/
def entryPart (t : Tables) (kind : TableKind) (i p : Nat) : List Byte :=
  ((entryBytes t kind i).drop (kind.partLengths.take p).sum).take (kind.partLengths.getD p 0)

/-! ### Requests (Table 42) and replies (Table 43) -/

/-- A management request whose code, length and field ranges are right (R163, R169). -/
inductive Request where
  | load (kind : TableKind) (index part : Nat) (fields : List Byte)
  | read (active : Bool) (kind : TableKind) (index part : Nat)
  | discard
  | commit
  | demandOn
  | demandOff
  | run (seq : Nat)
  | stop
  | setRole (role value : Nat)
  | unlock
  | status (page : Nat)
  | traceRead (index count : Nat)
  | traceRelease (half : Nat)
  deriving DecidableEq, Repr

/-- A LOAD: a table kind of the list, the kind's number of parts in the low four bits of the part byte, and fields
of the part's length (R164, R169, Table 42). -/
def readLoad (kd i pb : Byte) (fields : List Byte) : Option Request :=
  match TableKind.all[kd.toNat]? with
  | some kind =>
    if pb.toNat % 16 = kind.partLengths.length ∧ kind.partLengths[pb.toNat / 16]? = some fields.length then
      some (.load kind i.toNat (pb.toNat / 16) fields)
    else none
  | none => none

/-- A READ: an image, a table kind, an index in the kind's range, and a part that the image has (R163, 12.3). -/
def readRead (img kd i p : Byte) : Option Request :=
  match TableKind.all[kd.toNat]? with
  | some kind =>
    if img.toNat ≤ 1 ∧ i.toNat < kind.size
        ∧ p.toNat < kind.partLengths.length + (if img.toNat = 1 then kind.runtimeParts else 0) then
      some (.read (img.toNat = 1) kind i.toNat p.toNat)
    else none
  | none => none

/-- The request in a MANAGE frame's sub-code and payload; none is BAD_REQUEST (R163, R169, Table 42). -/
def readRequest (sub : Nat) (p : List Byte) : Option Request :=
  match sub, p with
  | 1, kd :: i :: pb :: fields => readLoad kd i pb fields
  | 2, [img, kd, i, part] => readRead img kd i part
  | 3, [] => some .discard
  | 4, [] => some .commit
  | 5, [] => some .demandOn
  | 6, [] => some .demandOff
  | 7, [s] => (readIndex 12 s).map .run
  | 8, [] => some .stop
  | 9, [r, h, l] => (readIndex 12 r).map fun r => .setRole r (n16 h l)
  | 10, [] => some .unlock
  | 11, [pg] => (readIndex 13 pg).map .status
  | 12, [h, l, n] => if within 1 n.toNat 4 && n16 h l + n.toNat ≤ 512 then some (.traceRead (n16 h l) n.toNat) else none
  | 13, [h] => (readIndex 2 h).map .traceRelease
  | _, _ => none

/-- Results of a request (Table 43) with their payloads. -/
inductive Result where
  | ok (data : List Byte)
  | deferred
  | refused (reason : Nat) (more : List Byte)
  | busy
  | badRequest
  | applied
  | held
  deriving DecidableEq, Repr

/-- The REPLY sub-code of a result (Table 43). -/
def Result.code : Result → Nat
  | .ok _ => 0
  | .deferred => 1
  | .refused _ _ => 2
  | .busy => 3
  | .badRequest => 4
  | .applied => 5
  | .held => 6

/-- The REPLY payload of a result (Table 43). -/
def Result.payload : Result → List Byte
  | .ok data => data
  | .refused reason more => u8 reason :: more
  | _ => []

/-! Reason codes (Table 43). -/

/-- NOT_IN_USE. -/
def reasonNotInUse : Nat := 0
/-- NOT_PERMITTED. -/
def reasonNotPermitted : Nat := 1
/-- ACTIVE. -/
def reasonActive : Nat := 2
/-- CHAIN_FULL. -/
def reasonChainFull : Nat := 3
/-- ABSENT. -/
def reasonAbsent : Nat := 4
/-- LOCKED. -/
def reasonLocked : Nat := 5
/-- COMMITTING. -/
def reasonCommitting : Nat := 6
/-- CHAIN_BUSY. -/
def reasonChainBusy : Nat := 7
/-- NOT_CONTROLLER. -/
def reasonNotController : Nat := 8
/-- NOT_LOCKED. -/
def reasonNotLocked : Nat := 9
/-- NO_ALLOWANCE. -/
def reasonNoAllowance : Nat := 10
/-- LIMIT_OPEN. -/
def reasonLimitOpen : Nat := 11
/-- PURGING. -/
def reasonPurging : Nat := 12
/-- NOT_READY. -/
def reasonNotReady : Nat := 13
/-- CHECK_FAILED. -/
def reasonCheckFailed : Nat := 14
/-- UNROUTED (DRIVE notice). -/
def reasonUnrouted : Nat := 15
/-- HELD (DRIVE notice). -/
def reasonHeld : Nat := 16
/-- MALFORMED (DRIVE notice). -/
def reasonMalformed : Nat := 17

/-! ### Notices, trace entries, history (Table 45) -/

/-- Nine bytes of a history entry (12.4). -/
def historyBytes (e : HistoryEntry) : List Byte :=
  u16 e.number ++ [u8 e.cause, indexByte e.seq, indexByte e.step,
    u8 (bit e.flueTemp.isSome + 2 * bit e.second.isSome + 128 * bit e.limitMark)] ++ optI16 e.flueTemp ++ [u8 (e.second.getD 0)]

/-- An optional history entry: presence byte and nine bytes (Table 45 LOCKOUT, Table 46 pages 7 to 12, log 19). -/
def optHistoryBytes : Option HistoryEntry → List Byte
  | some e => 1 :: historyBytes e
  | none => List.replicate 10 0

/-- The FAULT notice's payload, which is also status page 6 (Tables 45 and 46). -/
def faultBytes : Option FaultRecord → List Byte
  | none => List.replicate 14 0
  | some r =>
    [flagByte [true, r.line.isSome, r.flueTemp.isSome], u8 r.code, u8 (codeOf FaultClass.all r.cls),
      u8 (codeOf FaultOutcome.all r.outcome), flagByte [r.limitMark], indexByte r.seq, indexByte r.step,
      u8 (r.line.getD 0)] ++ u32 r.time ++ optI16 r.flueTemp

/-- The six bytes of a trace entry (12.4). -/
def traceBytes (e : TraceEntry) : List Byte :=
  let head (code low : Nat) : List Byte := u8 (code * 32 + low) :: u8 e.record :: u16 e.offset
  match e.kind with
  | .empty => head 0 0 ++ [0, 0]
  | .start s => head 1 0 ++ [u8 s, 0]
  | .sample p v => head 2 (p % 32) ++ i16 v
  | .step s k => head 3 0 ++ [u8 s, u8 k]
  | .fault c => head 4 0 ++ [u8 c, 0]
  | .gap n => head 5 0 ++ u16 n
  | .finish n => head 6 0 ++ u16 n

/-- Half-byte of a circuit: stage in bits 0 and 1, `blocked` in bit 2, in use in bit 3 (Table 45 FROST). -/
def circuitNibble (inUse : Bool) (c : CircuitRun) : Nat :=
  codeOf Stage.all c.stage + 4 * bit c.blocked + 8 * bit inUse

end Sys2Proof.Machine
end

