-- ==== Sys2Proof/Machine/Ops.lean ====
section
/-! DEFINITION. Named operations over the state that every family uses: the views of the state, the work list of
one command (which hand-offs wait and in what order), notices, replies, the persistence request. -/

namespace Sys2Proof.Machine

/-! ### Causes and hand-offs -/

/-- Causes of switches, in the order of Table 27. -/
inductive Cause where
  | demand
  | demandOff
  | stopLink
  | absence
  | recycle
  | run
  | stepCall
  | trigger
  | lockout
  deriving DecidableEq, Repr

/-- Cause codes, in the order of Table 27. -/
def Cause.all : List Cause :=
  [.demand, .demandOff, .stopLink, .absence, .recycle, .run, .stepCall, .trigger, .lockout]

/-- Kinds of switch in a CHAIN notice (Table 45). -/
inductive SwitchKind where
  | enter
  | call
  | ret
  | empty
  deriving DecidableEq, Repr

/-- Switch codes: ENTER 0, CALL 1, RETURN 2, EMPTY 3 (Table 45). -/
def SwitchKind.all : List SwitchKind := [.enter, .call, .ret, .empty]

/-- What changed for the Condition Unit (R33); `all` is the evaluation pass of R36. -/
inductive CondInput where
  | point (p : Nat)
  | flue (kinds : List FlueKind)
  | role (r : Nat)
  | hold (c : Nat)
  | all
  deriving DecidableEq, Repr

/-- The internal events and actions of the units inside one command (95_what_each_step_holds). -/
inductive Act where
  /-- READING (R5, R8): a reading from a source on a channel. -/
  | reading (source channel code : Nat)
  /-- R12: the age advance of a second mark. -/
  | ageMark
  /-- CONDITION_WALK (R33). -/
  | condWalk (input : CondInput)
  /-- The Flue Unit takes a plausible reading (with its filtered value) or a quality change of a point (R41). -/
  | flueInput (point : Nat) (sample : Option Int)
  /-- The Trace Unit takes a plausible reading (R15). -/
  | traceSample (point : Nat) (value : Int)
  /-- R123: the Output Unit takes one setting of a STATE frame. -/
  | roleState (role level : Nat)
  /-- SEQUENCE_HANDOFF (R69): a set of held values that changed. -/
  | handoff (set : List (Nat × Tri))
  /-- PENDING_TRIGGER_UPDATE by a hand-off set (R92). -/
  | applyTriggers (set : List (Nat × Tri))
  /-- FROST_REQUEST (R106): circuits with the sequences whose flags they join or leave. -/
  | frostHandoff (adds removes : List (Nat × Nat))
  /-- R64: the minimum-dwell mark. -/
  | minMark
  /-- R67: the max-dwell expiry. -/
  | maxExpiry
  /-- STEP_ADVANCE (R66). -/
  | advance
  /-- ENTRY_CHECKS (R88) and then the entry step of a sequence that has become top. -/
  | enterEntry (n : Nat)
  /-- STEP_ENTRY (R62). -/
  | stepEntry (k : Nat)
  /-- R62 action 9: a step's `call`. -/
  | callRequest (m : Nat)
  /-- RETURN (R89): the top has reached END. -/
  | finishTop
  /-- R89: the head of the chain, still suspended, is taken up or replaced. -/
  | takeUp
  /-- TRIGGER_ARBITER (R93). -/
  | examineTriggers
  /-- SERVE_DEMAND (R76). -/
  | examineDemand
  /-- ABSENCE_START (R78). -/
  | absenceStart
  /-- R96: what the Sequence Unit does at commit completion. -/
  | commitSequence
  /-- FAULT_TAKEN (R142). -/
  | takeFault (f : FaultIn)
  /-- R105: the FROST claims are recomputed and handed over. -/
  | frostClaims
  /-- R63: the SEQUENCE claims are handed over, with the LOCKOUT claims, at the end of an event. -/
  | sequenceClaims
  /-- R110: a FROST notice, raised at the end of an event. -/
  | frostNotice (circuit : Nat)
  /-- R91: a CHAIN notice, raised at the end of an event. -/
  | chainNotice (cause : Option Cause) (kind : SwitchKind) (seq : Option Nat)
  /-- R155: a TRACE notice, raised at the end of an event. -/
  | traceNotice (half : Nat)
  deriving DecidableEq, Repr

/-- The work of one command: the state, the actions left in the event being taken (`stack`), those it makes at its
end (`fins`), the hand-offs it has made (`emitted`) and the events waiting (`queue`) (log 4). -/
structure Work where
  st : State
  stack : List Act
  fins : List Act
  emitted : List Act
  queue : List Act
  deriving DecidableEq, Repr

/-- Nothing to do in a state. -/
def Work.idle (s : State) : Work := { st := s, stack := [], fins := [], emitted := [], queue := [] }

/-- The work with its state replaced. -/
def Work.withSt (w : Work) (s : State) : Work := { w with st := s }

/-- Actions taken next, within the event. -/
def Work.push (w : Work) (acts : List Act) : Work := { w with stack := acts ++ w.stack }

/-- Hand-offs to other units, taken once the event is complete. -/
def Work.emit (w : Work) (acts : List Act) : Work := { w with emitted := w.emitted ++ acts }

/-- An action of the event's end; one already noted moves to the last place. -/
def Work.fin (w : Work) (a : Act) : Work := { w with fins := w.fins.filter (fun x => x != a) ++ [a] }

/-- Three groups of hand-offs in the order of the state's `order` (log 3): the Condition or Output Unit's, the Flue
or Sequence Unit's, the Trace or Fault Unit's. -/
def arrange (o : HandoffOrder) (conditions flue trace : List Act) : List Act :=
  match o with
  | .conditionFlueTrace => conditions ++ flue ++ trace
  | .conditionTraceFlue => conditions ++ trace ++ flue
  | .flueConditionTrace => flue ++ conditions ++ trace
  | .flueTraceCondition => flue ++ trace ++ conditions
  | .traceConditionFlue => trace ++ conditions ++ flue
  | .traceFlueCondition => trace ++ flue ++ conditions

/-! ### Views of the state -/

/-- Runtime record of P`i`. -/
def State.point (s : State) (i : Nat) : PointRun := s.points.getD i PointRun.empty
/-- Runtime record of C`i`. -/
def State.cond (s : State) (i : Nat) : CondRun := s.conds.getD i CondRun.reset
/-- Held value of C`i`: what every consumer reads (R22). -/
def State.held (s : State) (i : Nat) : Tri := (s.cond i).held
/-- Runtime of S`i`. -/
def State.seqRun (s : State) (i : Nat) : SeqRun := s.seq.runs.getD i SeqRun.reset
/-- The pending-trigger flag of S`i`. -/
def State.trigger (s : State) (i : Nat) : Trigger := s.seq.triggers.getD i Trigger.clear
/-- Runtime of F`i`. -/
def State.circuit (s : State) (i : Nat) : CircuitRun := s.circuits.getD i CircuitRun.reset
/-- Runtime of role `i`. -/
def State.role (s : State) (i : Nat) : RoleRun := s.roles.getD i RoleRun.reset
/-- Runtime of line OL`i`. -/
def State.line (s : State) (i : Nat) : LineRun := s.lines.getD i LineRun.reset
/-- Sense state of line OL`i`. -/
def State.sense (s : State) (i : Nat) : Bool := s.pins.sense.getD i false
/-- The substitution slot of role `i`. -/
def State.slot (s : State) (i : Nat) : Option Slot := s.gate.slots.getD i none
/-- An entry of the pending-notice set. -/
def State.notice (s : State) (k : NoticeKind) : Notice := s.gate.notices.getD (codeOf NoticeKind.all k) Notice.none
/-- Whether the lockout state is LOCKED. -/
def State.locked (s : State) : Bool := s.fault.data.locked
/-- Whether a commit's store write is in flight (R165). -/
def State.committing (s : State) : Bool := s.store.commit != .none
/-- Whether the part runs under committed tables. -/
def State.normal (s : State) : Bool := s.phase = .normal
/-- Whether the gate serves frames: the image check is over (R140). -/
def State.serving (s : State) : Bool := s.phase = .normal || s.phase = .fallback
/-- The top of the chain (R81). -/
def State.top (s : State) : Option Nat := s.seq.chain.head?
/-- Whether S`i` is on the chain: its `active` mark (R81). -/
def State.active (s : State) (i : Nat) : Bool := s.seq.chain.contains i
/-- The member beneath S`i` on a chain. -/
def beneath (i : Nat) : List Nat → Option Nat
  | [] => none
  | x :: rest => if x = i then rest.head? else beneath i rest
/-- The `return_link` of S`i`: the sequence beneath it on the chain (R61). -/
def State.returnLink (s : State) (i : Nat) : Option Nat := beneath i s.seq.chain
/-- The filtered value of a point when it is GOOD; none for a point that is not, and for NONE. -/
def State.goodPoint (s : State) (p : Option Nat) : Option Int := p.bind fun i => goodValue (s.point i)
/-- The flue temperature that a fault record takes (R143). -/
def State.flueTemp (s : State) : Option Int := s.goodPoint s.tables.flue.fluePt
/-- Whole seconds since the latest device reset, saturating (R143). -/
def State.faultTime (s : State) : Nat := min (s.clock / 10) 4294967295
/-- Whether the chain holds a HEAT sequence. -/
def State.heatOnChain (s : State) : Bool := s.seq.chain.any fun i => (s.tables.seq i).cls = .heat
/-- Whether the pending-trigger set is empty (R76). -/
def State.noTriggers (s : State) : Bool := s.seq.triggers.all fun t => !t.stands
/-- The step a chain member shows: the running step of the top, the saved step of the others (R91). -/
def State.memberStep (s : State) (i : Nat) : Option Nat :=
  if s.top = some i then s.seq.running.map (·.step) else (s.seqRun i).saved.map (·.step)
/-- Deciseconds as whole seconds remaining; the rounding is open (log 9). -/
def secondsLeft (ds : Nat) : Nat :=
  ds / 10 + (if ds % 10 ≠ 0 ∧ Config.roundUpSeconds ds = true then 1 else 0)

/-- Whether a timer that counts down stands at its end (log 2): only then does its expiry happen. -/
def ranOut (t : Option Nat) : Bool := t = some 0

/-! ### Updates of one entry -/

/-- Point record P`i` replaced. -/
def State.setPoint (s : State) (i : Nat) (r : PointRun) : State := { s with points := s.points.set i r }
/-- Condition record C`i` replaced. -/
def State.setCond (s : State) (i : Nat) (r : CondRun) : State := { s with conds := s.conds.set i r }
/-- Flue runtime replaced. -/
def State.setFlue (s : State) (f : FlueRun) : State := { s with flue := f }
/-- Sequence Unit replaced. -/
def State.setSeq (s : State) (u : SeqUnit) : State := { s with seq := u }
/-- Runtime of S`i` replaced. -/
def State.setSeqRun (s : State) (i : Nat) (r : SeqRun) : State := s.setSeq { s.seq with runs := s.seq.runs.set i r }
/-- The chain replaced. -/
def State.setChain (s : State) (c : List Nat) : State := s.setSeq { s.seq with chain := c }
/-- The running-step record replaced. -/
def State.setRunning (s : State) (r : Option Running) : State := s.setSeq { s.seq with running := r }
/-- The flag of S`i` replaced. -/
def State.setTrigger (s : State) (i : Nat) (t : Trigger) : State :=
  s.setSeq { s.seq with triggers := s.seq.triggers.set i t }
/-- Circuit F`i` replaced. -/
def State.setCircuit (s : State) (i : Nat) (c : CircuitRun) : State := { s with circuits := s.circuits.set i c }
/-- Role `i` replaced. -/
def State.setRole (s : State) (i : Nat) (r : RoleRun) : State := { s with roles := s.roles.set i r }
/-- Line OL`i` replaced. -/
def State.setLine (s : State) (i : Nat) (l : LineRun) : State := { s with lines := s.lines.set i l }
/-- The gate replaced. -/
def State.setGate (s : State) (g : Gate) : State := { s with gate := g }
/-- The substitution slot of role `i` replaced. -/
def State.setSlot (s : State) (i : Nat) (x : Option Slot) : State := s.setGate { s.gate with slots := s.gate.slots.set i x }
/-- The Fault Unit replaced. -/
def State.setFault (s : State) (f : FaultUnit) : State := { s with fault := f }
/-- The lockout data replaced. -/
def State.setData (s : State) (d : LockoutData) : State := s.setFault { s.fault with data := d }
/-- The Trace Unit replaced. -/
def State.setTrace (s : State) (t : TraceUnit) : State := { s with trace := t }
/-- The store replaced. -/
def State.setStore (s : State) (x : Store) : State := { s with store := x }
/-- The pins replaced. -/
def State.setPins (s : State) (p : Pins) : State := { s with pins := p }
/-- A port. -/
def State.port (s : State) : Port → PortState
  | .control => s.ctlPort
  | .field => s.fieldPort
/-- A port replaced. -/
def State.setPort (s : State) (p : Port) (x : PortState) : State :=
  match p with
  | .control => { s with ctlPort := x }
  | .field => { s with fieldPort := x }

/-! ### Notices and replies (R133, R135) -/

/-- An event raises a notice: its content replaces what waits, and its flag is set (R135). -/
def State.raiseNotice (s : State) (k : NoticeKind) (content : List Byte) : State :=
  s.setGate { s.gate with
    notices := s.gate.notices.set (codeOf NoticeKind.all k) { flag := true, newer := true, content := content } }

/-- A REPLY to a request's source, appended as the newest of the reply queue (R133). -/
def State.reply (s : State) (dst : Byte) (r : Result) : State :=
  s.setGate { s.gate with
    reply := s.gate.reply ++ [{ src := u8 s.mgmtAddr, dst := dst, kind := kindByte 5 r.code, payload := r.payload }] }

/-- The LOCKOUT notice's content, taken when the notice is built (R152, Table 45). -/
def State.lockoutContent (s : State) : List Byte :=
  [u8 (bit s.locked)] ++ u16 s.fault.data.number ++ [u8 s.fault.data.allowance]
    ++ optHistoryBytes s.fault.data.history.head?

/-- A chain member as sequence and step bytes (Table 45 CHAIN). -/
def State.memberBytes (s : State) (i : Nat) : List Byte := [u8 i, indexByte (s.memberStep i)]

/-- The CHAIN notice's content (R91, Table 45); unused pairs are NONE (log 19). -/
def State.chainContent (s : State) (c : Option Cause) (k : SwitchKind) (n : Option Nat) : List Byte :=
  [u8 ((c.map (codeOf Cause.all)).getD 255), u8 (codeOf SwitchKind.all k), indexByte n, u8 s.seq.chain.length]
    ++ padTo 8 255 (s.seq.chain.map s.memberBytes).flatten

/-- The three bytes of stages of F0 to F5 (Tables 45 and 46). -/
def State.circuitStages (s : State) : List Byte :=
  let half (i : Nat) : Nat := circuitNibble (s.tables.circuit i).inUse (s.circuit i)
  [u8 (half 0 * 16 + half 1), u8 (half 2 * 16 + half 3), u8 (half 4 * 16 + half 5)]

/-- The FROST notice's content (R110, Table 45). -/
def State.frostContent (s : State) (c : Nat) : List Byte :=
  [u8 c] ++ s.circuitStages ++ ((List.range 6).map fun i => u24 (s.circuit i).debt).flatten

/-- The TRACE notice's content (R155, Table 45). -/
def State.traceContent (s : State) (half : Nat) : List Byte :=
  [u8 half, flagByte [s.trace.ready0, s.trace.ready1, s.trace.hold]] ++ u16 s.trace.gap ++ u16 s.trace.pos

/-- The UNLOCK notice's content (R147, Table 45). -/
def State.unlockContent (s : State) (reason : Nat) : List Byte :=
  [u8 reason, u8 s.fault.data.allowance] ++ u16 s.fault.data.number

/-- A LOCKOUT notice; its content is taken when it is built (R152). -/
def State.raiseLockout (s : State) : State := s.raiseNotice .lockout []

/-! ### Persistence (R150) -/

/-- The newer of the two copies: 0 or 1 with its generation, none when neither is valid (R150). -/
def Store.newer (x : Store) : Option (Nat × Copy) :=
  match x.copy0, x.copy1 with
  | none, none => none
  | some a, none => some (0, a)
  | none, some b => some (1, b)
  | some a, some b => if b.generation = (a.generation + 1) % 65536 then some (1, b) else some (0, a)

/-- A persistence write starts: the whole data as it stands, over the copy that is not the newer one (R150). -/
def Store.startWrite (x : Store) (d : LockoutData) : Store :=
  match x.newer with
  | none => { x with write := some { target := 0, copy := { data := d, generation := 0 } } }
  | some (i, c) =>
    { x with write := some { target := 1 - i, copy := { data := d, generation := (c.generation + 1) % 65536 } } }

/-- PERSISTENCE_WRITE_REQUEST (R150): a write starts, or follows the write in flight. -/
def State.requestPersist (s : State) : State :=
  s.setStore (if s.store.write.isSome || s.store.commit = .writing then { s.store with again := true }
    else s.store.startWrite s.fault.data)

end Sys2Proof.Machine
end

