-- ==== Sys2Proof/Machine/Clock.lean ====
section
/-! DEFINITION. One decisecond of the part's own clock (log 1): every running timer counts. An expiry or a mark is a
command of its own (log 2), so a timer that has reached its end waits there. -/

namespace Sys2Proof.Machine

/-- A countdown timer after one decisecond: 0 is as far as it goes. -/
def countDown (t : Option Nat) : Option Nat := t.map fun n => n - 1

/-- A hold timer after one decisecond, up to its `hold` (R22). -/
def CondRun.tick (hold : Nat) (c : CondRun) : CondRun :=
  { c with timer := c.timer.map fun t => if t < hold then t + 1 else t }

/-- The dwell timer after one decisecond, saturating at 65535 (R61, R64). -/
def Running.tick (x : Running) : Running := { x with elapsed := min (x.elapsed + 1) 65535 }

/-- A field role's timers after one decisecond (R122 to R124). -/
def RoleRun.tick (x : RoleRun) : RoleRun :=
  { x with confirm := countDown x.confirm, heard := countDown x.heard, refresh := countDown x.refresh }

/-- A line's readback settle after one decisecond (R119). -/
def LineRun.tick (x : LineRun) : LineRun := { x with settle := countDown x.settle }

/-- A one-second timer after one decisecond; it waits at 10 for its mark (R12, R101). -/
def secondTick (t : Nat) : Nat := min (t + 1) 10

/-- One decisecond passes in a powered part; nothing counts without supply. -/
def State.tick (s : State) : State :=
  if s.phase = .off then s
  else
    { s with
      clock := s.clock + 1
      pointTimer := secondTick s.pointTimer
      conds := s.conds.mapIdx fun i c => c.tick (s.tables.cond i).hold
      flue := { s.flue with riseTimer := countDown s.flue.riseTimer }
      seq := { s.seq with running := s.seq.running.map Running.tick }
      frostTimer := secondTick s.frostTimer
      roles := s.roles.map RoleRun.tick
      lines := s.lines.map LineRun.tick
      gate := { s.gate with absence := countDown s.gate.absence }
      fault := { s.fault with regain := countDown s.fault.regain } }

end Sys2Proof.Machine
end

