-- ==== Sys2Proof/Machine/Points.lean ====
section
/-! DEFINITION. The Point Unit (chapter 1): matching a reading, taking it, ageing, and what is handed on. -/

namespace Sys2Proof.Machine

/-- The in-use point fed by a source and channel (R5); the committed table holds the pair unique. -/
def matchPoint (t : Tables) (source channel : Nat) : Option Nat :=
  (List.range 24).find? fun i => (t.point i).inUse && (t.point i).source = source && (t.point i).channel = channel

/-- Whether the flue record names point `p` (R14). -/
def flueNames (f : FlueRecord) (p : Nat) : Bool :=
  f.draughtPt = some p || f.fluePt = some p || f.spillPt = some p || f.roomPt = some p

/-- Whether the Trace Unit records point `p`: a record is open, has not ended, and its sequence names it (R15, R154). -/
def tracesPoint (s : State) (p : Nat) : Bool :=
  match s.trace.opened with
  | some r => r.ended.isNone && (s.tables.seq r.seq).tracePoints.contains p
  | none => false

/-- R13: a changed filtered value or quality is handed to the Condition Unit. -/
def pointToConditions (p : Nat) (old new : PointRun) : List Act :=
  if pointChanged old new then [.condWalk (.point p)] else []

/-- R14: plausible readings and quality changes of a named point are handed to the Flue Unit. -/
def pointToFlue (s : State) (p : Nat) (old new : PointRun) (ok : Bool) : List Act :=
  if flueNames s.tables.flue p && (ok || old.quality != new.quality) then
    [.flueInput p (if ok then new.filtered else none)] else []

/-- R15: plausible readings of a traced point are handed to the Trace Unit. -/
def pointToTrace (s : State) (p : Nat) (new : PointRun) (ok : Bool) : List Act :=
  if ok && tracesPoint s p then [.traceSample p (new.filtered.getD 0)] else []

/-- READING at a matched point (R5, R8 to R11, R13 to R15). When a reading of `flue_pt` arms the rise test by its own walk,
taken first, the baseline is the new value and the same reading is then the first sample (the model's choice, log 48). -/
def readAt (p c : Nat) (w : Work) : Work :=
  let e := w.st.tables.point p
  let old := w.st.point p
  let new := afterReading e old c
  let ok := readingPlausible e c
  (w.withSt (w.st.setPoint p new)).emit
    (arrange w.st.order (pointToConditions p old new) (pointToFlue w.st p old new ok) (pointToTrace w.st p new ok))

/-- READING (R4, R5): no reading is taken but under committed tables; an unmatched one is dropped. -/
def actReading (source channel code : Nat) (w : Work) : Work :=
  if w.st.normal then
    match matchPoint w.st.tables source channel with
    | some p => readAt p (limitCode code) w
    | none => w
  else w

/-- One point at a second mark (R12, R13, R14). -/
def agePoint (w : Work) (p : Nat) : Work :=
  if (w.st.tables.point p).inUse then
    let old := w.st.point p
    let new := afterMark (w.st.tables.point p) old
    (w.withSt (w.st.setPoint p new)).emit
      (arrange w.st.order (pointToConditions p old new) (pointToFlue w.st p old new false) [])
  else w

/-- R12: every in-use point in turn, and the points that one mark has changed handed on in ascending index, each point's
Condition and Flue hand-offs together (the model's choice, log 46). -/
def actAgeMark (w : Work) : Work :=
  if w.st.normal then (List.range 24).foldl agePoint w else w

/-- The code of a general input's level (R6). -/
def inputCode (high : Bool) : Nat := if high then 4095 else 0

/-- The samples of IN2 and IN3 (R6): readings from source 0 on channels 2 and 3. -/
def sampleInput (i : GeneralInput) (high : Bool) : Act :=
  match i with
  | .in2 => .reading 0 2 (inputCode high)
  | .in3 => .reading 0 3 (inputCode high)

/-- All records emptied (R18). -/
def State.emptyPoints (s : State) : State := { s with points := List.replicate 24 PointRun.empty }

end Sys2Proof.Machine
end

