-- ==== Sys2Proof/Machine/Conditions.lean ====
section
/-! DEFINITION. The Condition Unit (chapter 2): raw values by kind, one evaluation, and the walk of R33. -/

namespace Sys2Proof.Machine

/-- The raw value of ROLE_CONFIRMED (R27, R28). A role without a target, which R21 refuses at commit, has no
evidence: UNKNOWN (the model's choice, log 54). -/
def roleConfirmedRaw (s : State) (r : Nat) : Tri :=
  match (s.tables.role r).target with
  | .field _ _ => fieldConfirmed (s.tables.role r) (s.role r)
  | .line l => lineConfirmed (s.role r) (s.line l) (s.sense l)
  | .none => .unknown

/-- The raw value that a condition's kind gives from its inputs (R24 to R30). -/
def rawValue (s : State) (e : CondEntry) (previous : Tri) : Tri :=
  match e.kind with
  | .above => aboveRaw (goodValue (s.point e.point)) e.threshold e.hyst previous
  | .below => belowRaw (goodValue (s.point e.point)) e.threshold e.hyst previous
  | .contact => contactRaw (goodValue (s.point e.point)) e.level
  | .roleConfirmed => roleConfirmedRaw s e.role
  | .both => bothRaw (s.held e.a) (s.held e.b)
  | .either => eitherRaw (s.held e.a) (s.held e.b)
  | .flueDraught => s.flue.value .draught
  | .flueBlocked => s.flue.value .blocked
  | .flueSpill => s.flue.value .spill
  | .flueRise => s.flue.value .rise

/-- Whether the kind is a combination (R29). -/
def CondKind.combines : CondKind → Bool
  | .both => true
  | .either => true
  | _ => false

/-- The flue kind a condition presents (R30). -/
def CondKind.flueKind : CondKind → Option FlueKind
  | .flueDraught => some .draught
  | .flueBlocked => some .blocked
  | .flueSpill => some .spill
  | .flueRise => some .rise
  | _ => none

/-- Whether the kind compares a point (2.3). -/
def CondKind.readsPoint : CondKind → Bool
  | .above => true
  | .below => true
  | .contact => true
  | _ => false

/-- Whether an input marks a condition (R33); a hold expiry marks none by itself. -/
def marks (i : CondInput) (e : CondEntry) : Bool :=
  match i with
  | .point p => e.kind.readsPoint && e.point = p
  | .flue kinds => match e.kind.flueKind with | some k => kinds.contains k | none => false
  | .role r => e.kind = .roleConfirmed && e.role = r
  | .hold _ => false
  | .all => true

/-- Whether a changed held value marks a condition: a BOTH or EITHER that names it (R33). -/
def marksCombination (changed : List Nat) (e : CondEntry) : Bool :=
  e.kind.combines && (changed.contains e.a || changed.contains e.b)

/-- One position of the walk (R31, R33): the condition is evaluated when it is in use and marked, and joins the
changed set when its held value changes. -/
def walkAt (i : CondInput) (acc : State × List Nat) (c : Nat) : State × List Nat :=
  let e := acc.1.tables.cond c
  if e.inUse && (marks i e || marksCombination acc.2 e) then
    let old := acc.1.cond c
    let new := afterEvaluation e.hold old (rawValue acc.1 e old.raw)
    (acc.1.setCond c new, if new.held = old.held then acc.2 else acc.2 ++ [c])
  else acc

/-- The walk up the table (R33) from a changed set. -/
def walk (i : CondInput) (s : State) (changed : List Nat) : State × List Nat :=
  (List.range 32).foldl (walkAt i) (s, changed)

/-- Whether a condition's hold timer has run for `hold` deciseconds (R32, log 2). -/
def CondRun.due (hold : Nat) (c : CondRun) : Bool := c.timer.any fun t => hold ≤ t

/-- A hold expiry's own effect (R32): the timer stops and the held value becomes TRUE; nothing when no timer has run for
its `hold`. -/
def expireHold (c : Nat) (s : State) : State × List Nat :=
  if (s.tables.cond c).inUse && (s.cond c).due (s.tables.cond c).hold then
    (s.setCond c { raw := (s.cond c).raw, held := .yes, timer := none }, if (s.cond c).held = .yes then [] else [c])
  else (s, [])

/-- The set handed to the Sequence Unit: each changed condition with its new held value (R34). -/
def handoffSet (s : State) (changed : List Nat) : List (Nat × Tri) := changed.map fun c => (c, s.held c)

/-- Where the walk of an event begins: a hold expiry first takes its own effect, any other event changes nothing by
itself (R32, R33). -/
def walkStart (i : CondInput) (s : State) : State × List Nat :=
  match i with
  | .hold c => expireHold c s
  | _ => (s, [])

/-- CONDITION_WALK: one event of the Condition Unit, taken whole (R23, R32 to R34, R36). -/
def actCondWalk (i : CondInput) (w : Work) : Work :=
  if w.st.normal then
    let after := walk i (walkStart i w.st).1 (walkStart i w.st).2
    let w := w.withSt after.1
    if after.2.isEmpty then w else w.emit [.handoff (handoffSet after.1 after.2)]
  else w

/-- Every record in its reset form (R35). -/
def State.resetConds (s : State) : State := { s with conds := List.replicate 32 CondRun.reset }

end Sys2Proof.Machine
end

