-- ==== Sys2Proof/Machine/Flue.lean ====
section
/-! DEFINITION. The Flue Unit (chapter 3): draught window, spillage, rise test, warm-up allowance. -/

namespace Sys2Proof.Machine

/-- The flue values that differ between two runtimes (R41). -/
def flueChanges (old new : FlueRun) : List FlueKind :=
  [FlueKind.draught, .blocked, .spill, .rise].filter fun k => old.value k != new.value k

/-- The Flue Unit's runtime becomes `f`; changed values are handed to the Condition Unit as one hand-off (R41). The
hand-off names the kinds: of two changes inside one event of the Sequence Unit the last value is read (log 35). -/
def Work.setFlue (w : Work) (f : FlueRun) : Work :=
  let kinds := flueChanges w.st.flue f
  let w' := w.withSt (w.st.setFlue f)
  if kinds.isEmpty then w' else w'.emit [.condWalk (.flue kinds)]

/-- The draught window and its two values after an event of the draught point (R42 to R45): a reading is appended, a
point that is not GOOD empties the window. -/
def draughtInput (rec : FlueRecord) (good : Bool) (sample : Option Int) (f : FlueRun) : FlueRun :=
  let kept := if good then f.window else []
  let w := match sample with | some v => windowAppend kept v | none => kept
  { f with window := w, draught := draughtValue rec w, blocked := blockedValue rec w }

/-- A sample of the rise test (R50): it passes when the rise reaches the requirement; nothing unless ARMED. -/
def riseSample (sample : Option Int) (f : FlueRun) : FlueRun :=
  match f.rise, sample, f.baseline, f.required with
  | .armed, some v, some b, some q => if (q : Int) ≤ v - b then { f with rise := .passed, riseTimer := none } else f
  | _, _, _, _ => f

/-- FLUE_SPILL recomputed (R46). -/
def spillInput (s : State) (f : FlueRun) : FlueRun :=
  { f with spill := spillValue s.tables.flue (s.goodPoint s.tables.flue.spillPt) (s.goodPoint s.tables.flue.roomPt) }

/-- One event of the Flue Unit: a plausible reading or a quality change of point `p`, with each named use of the point
applied (R41). -/
def flueAfter (s : State) (p : Nat) (sample : Option Int) : FlueRun :=
  let rec' := s.tables.flue
  let f := if rec'.draughtPt = some p then draughtInput rec' ((s.point p).quality = .good) sample s.flue else s.flue
  let f := if rec'.fluePt = some p then riseSample sample f else f
  if rec'.spillPt = some p ∨ rec'.roomPt = some p then spillInput s f else f

/-- The Flue Unit takes a hand-off of the Point Unit (R14, R40, R41). -/
def actFlueInput (p : Nat) (sample : Option Int) (w : Work) : Work :=
  if w.st.normal then w.setFlue (flueAfter w.st p sample) else w

/-- RISE_TEST_ARMING (R48): from whatever state; FAILED at once when the flue point is not GOOD. -/
def armedFlue (s : State) : FlueRun :=
  match s.goodPoint s.tables.flue.fluePt with
  | some b =>
    { s.flue with rise := .armed, baseline := some b, required := some (requiredRise s.tables.flue b),
                  riseTimer := some (s.tables.flue.riseWindow * 10) }
  | none => { s.flue with rise := .failed, baseline := none, required := none, riseTimer := none }

/-- Arming as part of a step's entry (R48). -/
def Work.armRise (w : Work) : Work := w.setFlue (armedFlue w.st)

/-- RISE_TEST_IDLE (R52): baseline and requirement absent, timer stopped. -/
def idleFlue (f : FlueRun) : FlueRun := { f with rise := .idle, baseline := none, required := none, riseTimer := none }

/-- The emptying of the chain, told to the Flue Unit (R52). -/
def Work.riseIdle (w : Work) : Work := w.setFlue (idleFlue w.st.flue)

/-- The rise-window expiry (R51): FAILED in ARMED, baseline and requirement kept; the expiry of a window that an arming
has started again does not happen (log 2). -/
def expiredFlue (f : FlueRun) : FlueRun :=
  if f.rise = .armed ∧ ranOut f.riseTimer = true then { f with rise := .failed, riseTimer := none } else f

/-- WARMUP_ALLOWANCE (R53): the figure as the flue point stands. -/
def allowanceNow (s : State) : Nat := warmupAllowance s.tables.flue s.flueTemp

/-- The allowance kept for READ with the value it was computed from (R53, R55). -/
def State.noteAllowance (s : State) : State :=
  s.setFlue { s.flue with allowance := some (allowanceNow s), allowanceFrom := s.flueTemp }

end Sys2Proof.Machine
end

