-- ==== Sys2Proof/Machine/Trace.lean ====
section
/-! DEFINITION. The Trace Unit (chapter 10): records, the two halves, hold and resumption. -/

namespace Sys2Proof.Machine

/-- A count saturating at 65535 (R153). -/
def sat16 (n : Nat) : Nat := min n 65535

/-- The half a position stands in (R153). -/
def halfOf (pos : Nat) : Nat := if pos < 256 then 0 else 1

/-- The ready flag of a half. -/
def TraceUnit.ready (t : TraceUnit) (half : Nat) : Bool := if half = 0 then t.ready0 else t.ready1

/-- The ready flag of a half set to `b`. -/
def TraceUnit.setReady (t : TraceUnit) (half : Nat) (b : Bool) : TraceUnit :=
  if half = 0 then { t with ready0 := b } else { t with ready1 := b }

/-- The writer leaves a half (R155): its flag is set, the position moves to the other half, and HOLD follows when that
half waits. -/
def TraceUnit.leave (t : TraceUnit) (half : Nat) : TraceUnit :=
  let t := t.setReady half true
  { t with pos := if half = 0 then 256 else 0, hold := t.ready (1 - half) }

/-- Whether a position is the last of its half. -/
def lastOfHalf (pos : Nat) : Bool := pos = 255 || pos = 511

/-- An entry placed at the write position, and the position advanced (R155). -/
def TraceUnit.write (t : TraceUnit) (e : TraceEntry) : TraceUnit :=
  let t' := { t with mem := t.mem.set t.pos e }
  if lastOfHalf t.pos then t'.leave (halfOf t.pos) else { t' with pos := t.pos + 1 }

/-- END written, the rest of its half filled with EMPTY, and the half left (R156). -/
def TraceUnit.writeEnd (t : TraceUnit) (e filler : TraceEntry) : TraceUnit :=
  let stop := if t.pos < 256 then 256 else 512
  { t with mem := t.mem.take t.pos ++ e :: List.replicate (stop - t.pos - 1) filler ++ t.mem.drop stop }.leave (halfOf t.pos)

/-- The Trace Unit replaced; a half that has just become ready raises a TRACE notice at the event's end (R155). What the
Sequence Unit reports within one of its events, an emptying and a new top among them, is taken within that event: the notice
shows position, gap and writer state at the end of the whole (the model's choice, log 52). -/
def Work.setTrace (w : Work) (t : TraceUnit) : Work :=
  let w' := w.withSt (w.st.setTrace t)
  let w' := if t.ready0 && !w.st.trace.ready0 then w'.fin (.traceNotice 0) else w'
  if t.ready1 && !w.st.trace.ready1 then w'.fin (.traceNotice 1) else w'

/-- Deciseconds since a record's start, saturating (R153). -/
def offsetOf (s : State) (r : OpenRecord) : Nat := sat16 (s.clock - r.start)

/-- TRACE_ENTRY_WRITE (R154, R155, R157): the entry counts in its record, and is written, or counted in the gap in
HOLD. The gap's offset is that of the first entry lost to it (log 38). -/
def traceEntry (s : State) (r : OpenRecord) (k : TraceKind) : TraceUnit :=
  let t := { s.trace with opened := some { r with count := sat16 (r.count + 1) } }
  if t.hold then { t with gap := sat16 (t.gap + 1), gapAt := if t.gap = 0 then offsetOf s r else t.gapAt }
  else t.write { kind := k, record := r.number, offset := offsetOf s r }

/-- An entry for an event, while a record is open and not ended (R154). -/
def Work.trace (w : Work) (k : TraceKind) : Work :=
  match w.st.trace.opened with
  | some r => if r.ended.isNone then w.setTrace (traceEntry w.st r k) else w
  | none => w

/-- The Trace Unit takes a plausible reading of a traced point (R15, R154). -/
def actTraceSample (p : Nat) (v : Int) (w : Work) : Work :=
  if tracesPoint w.st p then w.trace (.sample p v) else w

/-- TRACE_RECORD_START (R154): a traced sequence has become top and no record is open. -/
def Work.traceTop (w : Work) (n : Nat) : Work :=
  if (w.st.tables.seq n).trace && w.st.trace.opened.isNone then
    let t := w.st.trace
    let r : OpenRecord := { number := t.counter, seq := n, start := w.st.clock, count := 0, ended := none }
    (w.withSt (w.st.setTrace { t with counter := (t.counter + 1) % 256, opened := some r })).trace (.start n)
  else w

/-- The Trace Unit with END written for a record of `count` entries that ended at `off` (R156). -/
def closeRecord (t : TraceUnit) (number count off : Nat) : TraceUnit :=
  { t with opened := none }.writeEnd { kind := .finish count, record := number, offset := off }
    { kind := .empty, record := number, offset := off }

/-- TRACE_RECORD_END (R156, R157): in WRITING the record is closed; in HOLD it is ended but stays open. -/
def Work.traceFinish (w : Work) : Work :=
  match w.st.trace.opened with
  | some r =>
    if r.ended.isNone then
      let count := sat16 (r.count + 1)
      let off := offsetOf w.st r
      if w.st.trace.hold then
        w.withSt (w.st.setTrace { w.st.trace with opened := some { r with count := count, ended := some off } })
      else w.setTrace (closeRecord w.st.trace r.number count off)
    else w
  | none => w

/-- The GAP entry of a resumption (R157); none when nothing was lost. -/
def writeGap (t : TraceUnit) : TraceUnit :=
  if t.gap = 0 then t
  else TraceUnit.write { t with gap := 0 }
    { kind := .gap t.gap, record := (t.opened.map OpenRecord.number).getD 0, offset := t.gapAt }

/-- TRACE_WRITER_RESUME (R157): GAP, then the kept END of a record that has ended, else WRITING. -/
def resumeWriter (t : TraceUnit) : TraceUnit :=
  let t := writeGap { t with hold := false }
  match t.opened with
  | some r =>
    match r.ended with
    | some off => closeRecord t r.number r.count off
    | none => t
  | none => t

/-- After a half has been released (R158), the writer that waits on it resumes (R157). -/
def afterRelease (t : TraceUnit) (half : Nat) : TraceUnit :=
  if t.hold && halfOf t.pos = half then resumeWriter t else t

/-- TRACE RELEASE of a half whose flag is set (R158): the flag is cleared, and the writer may resume. -/
def Work.release (w : Work) (half : Nat) : Work :=
  let w := w.setTrace (w.st.trace.setReady half false)
  w.setTrace (afterRelease w.st.trace half)

/-- The TRACE notice of a half, with the state at the end of the event (R155). -/
def actTraceNotice (half : Nat) (w : Work) : Work :=
  w.withSt (w.st.raiseNotice .trace (w.st.traceContent half))

end Sys2Proof.Machine
end

