-- ==== Sys2Proof/Machine/Output.lean ====
section
/-! DEFINITION. The Output Unit (chapter 7): claim slots, owner and applied value, lines and readback, substitutions,
confirmation, controller requests, and the forms of the image check and of commit completion. -/

namespace Sys2Proof.Machine

/-! ### Owner, confirmation, refresh -/

/-- The law of R116: owner and applied value are those of the highest-precedence claimant. -/
def RoleRun.recompute (x : RoleRun) : RoleRun := { x with owner := x.claim.1, applied := x.claim.2 }

/-- The confirmation restarted (R124). -/
def RoleRun.restart (window : Nat) (x : RoleRun) : RoleRun :=
  { x with actual := none, since := false, confirm := some (window * 10) }

/-- The confirmation renewed at a refresh expiry (R124): only when a STATE frame has answered since. -/
def RoleRun.renew (window : Nat) (x : RoleRun) : RoleRun := if x.since then x.restart window else x

/-- The refresh timer after an event (R122): stopped under CONTROLLER and DEFAULT, started by a placement and by the
owner rising above CONTROLLER, and running on otherwise. -/
def refreshAfter (refresh : Nat) (placed : Bool) (before : Claimant) (x : RoleRun) : Option Nat :=
  if x.owner.refreshed then (if placed || !before.refreshed then some (refresh * 10) else x.refresh) else none

/-! ### Lines and substitutions -/

/-- A line's commanded state set (R118); a change of command starts the readback settle of 2 ds (R119). -/
def LineRun.command (x : LineRun) (on : Bool) : LineRun :=
  if x.commanded = on then x else { x with commanded := on, settle := some 2 }

/-- A placed substitution (R122, R134): the slot's last value is the applied value, and it is pending. -/
def placedSlot (node channel value : Nat) : Slot :=
  { node := node, channel := channel, last := some value, pending := true, newer := true }

/-- A value written into the slot of a field role; nothing for another role. -/
def State.placeSub (s : State) (r value : Nat) : State :=
  match (s.tables.role r).target with
  | .field n c => s.setSlot r (some (placedSlot n c value))
  | _ => s

/-- R130: the last value of a role's slot recorded without marking it pending. -/
def State.recordLast (s : State) (r value : Nat) : State :=
  match s.slot r with
  | some x => s.setSlot r (some { x with last := some value })
  | none => s

/-- A role whose applied value has changed acts on its target (R116): a line takes its command; a field role restarts
its confirmation and places a substitution, unless the controller's own frame carries the value (R117). -/
def State.actOnTarget (s : State) (r : Nat) (carried : Bool) (before : Claimant) : State :=
  let x := s.role r
  let e := s.tables.role r
  match e.target with
  | .line l => s.setLine l ((s.line l).command (x.applied != 0))
  | .field _ _ =>
    let y := x.restart e.confirmWindow
    let s := s.setRole r { y with refresh := refreshAfter s.tables.device.refresh (!carried) before y }
    if carried then s else s.placeSub r x.applied
  | .none => s

/-- A change of owner that leaves the applied value equal: it decides refresh alone (R116, R122). -/
def State.ownerOnly (s : State) (r : Nat) (before : Claimant) : State :=
  if s.tables.isField r then
    s.setRole r { s.role r with refresh := refreshAfter s.tables.device.refresh false before (s.role r) }
  else s

/-- R116 for one role whose slots are now those of `x`: owner and applied value recomputed, and, when the applied value
has changed, the target acted on and the change handed to the Condition Unit. -/
def changeRole (carried : Bool) (r : Nat) (x : RoleRun) (w : Work) : Work :=
  let old := w.st.role r
  let new := x.recompute
  let s := w.st.setRole r new
  if new.applied = old.applied then w.withSt (s.ownerOnly r old.owner)
  else (w.withSt (s.actOnTarget r carried old.owner)).emit [.condWalk (.role r)]

/-- One change handed to the Output Unit (R116): the slots of every role it touches. The role changes of one event reach the
Condition Unit lowest role first (the model's choice, log 43). -/
def applySlots (f : Nat → RoleRun → RoleRun) (w : Work) : Work :=
  (List.range 12).foldl
    (fun w r => if f r (w.st.role r) = w.st.role r then w else changeRole false r (f r (w.st.role r)) w) w

/-- The SEQUENCE claim on role `r`: the running step's output, and nothing on an empty chain (R63). -/
def State.sequenceClaim (s : State) (r : Nat) : Option Nat :=
  match s.seq.running with
  | some x => if s.seq.chain.isEmpty then none else ((s.tables.step x.step).output r).claim
  | none => none

/-- The LOCKOUT claim on role `r` as the lockout state stands (R116). -/
def State.lockoutSlot (s : State) (r : Nat) : Option Nat := if s.locked then lockoutClaim r else none

/-- The LIMIT claim on role `r` as the input stands (R120). -/
def State.limitSlot (s : State) (r : Nat) : Option Nat := if s.pins.limitClosed then none else limitClaim r

/-- The SEQUENCE claims, and with them the LOCKOUT claims, handed over as one change at the end of an event (R63,
R94, R145 action 4; log 11). -/
def actSequenceClaims (w : Work) : Work :=
  if w.st.normal then
    applySlots (fun r x => { x with sequence := w.st.sequenceClaim r, lockout := w.st.lockoutSlot r }) w
  else w

/-- The LIMIT slots follow the input (R120). -/
def applyLimit (w : Work) : Work :=
  if w.st.normal then applySlots (fun r x => { x with limit := w.st.limitSlot r }) w else w

/-! ### Controller requests (R117) -/

/-- The Output Unit's answer to a setting or request on a role. -/
inductive Answer where
  | unrouted
  | notPermitted (role : Nat)
  | held (role : Nat)
  | forward (role value : Nat)
  deriving DecidableEq, Repr

/-- A setting or request on role `r` with value `v` (R117); `carried` when a controller frame carries it. -/
def referRole (carried : Bool) (r v : Nat) (w : Work) : Answer × Work :=
  let e := w.st.tables.role r
  if e.ctlAllowed then
    let q := clampRequest e v
    let x := { w.st.role r with ctlFilled := true, requested := q }
    let w' := changeRole carried r x w
    if x.claim.1 = .controller then (.forward r q, w') else (.held r, w')
  else (.notPermitted r, w)

/-- A DRIVE setting for a node and channel (R117): UNROUTED when no role targets them, and in fallback mode (R125). -/
def referSetting (node channel v : Nat) (w : Work) : Answer × Work :=
  match (if w.st.normal then w.st.tables.roleOfField node channel else none) with
  | some r => referRole true r v w
  | none => (.unrouted, w)

/-! ### Readback (R119) -/

/-- The fault of the Output Unit names the top and its running step, or NONE on an empty chain (R119, R120). -/
def State.outputFault (s : State) (code : Nat) (cls : FaultClass) (line : Option Nat) : FaultIn :=
  { code := code, cls := cls, seq := s.top, step := s.seq.running.map (·.step), line := line }

/-- Whether line `l` is the target of role 0, 1 or 2 (R119). -/
def Tables.safetyLine (t : Tables) (l : Nat) : Bool := (List.range 3).any fun r => (t.role r).target = .line l

/-- Whether a line's sense state disagrees with its command. -/
def State.disagrees (s : State) (l : Nat) : Bool := s.sense l != (s.line l).commanded

/-- The mark after a comparison (R119): agreement clears it, disagreement sets it. -/
def State.compared (s : State) (l : Nat) : State := s.setLine l { s.line l with mismatch := s.disagrees l }

/-- LINE_MISMATCH (R119), device code 65: raised by a disagreement that finds the mark clear. -/
def State.mismatchFault (s : State) (l : Nat) : List Act :=
  if s.disagrees l && !(s.line l).mismatch then
    [.takeFault (s.outputFault 65 (if s.tables.safetyLine l then .lockout else .notice) (some l))]
  else []

/-- The role change that a line's event hands to the Condition Unit (R119, R28). -/
def State.lineToConditions (s : State) (l : Nat) : List Act :=
  match s.tables.roleOfLine l with
  | some r => [.condWalk (.role r)]
  | none => []

/-- A comparison of line `l`, with what it hands on (R119). -/
def compareLine (l : Nat) (w : Work) : Work :=
  (w.withSt (w.st.compared l)).emit (arrange w.st.order (w.st.lineToConditions l) [] (w.st.mismatchFault l))

/-- The settle expiry of line `l` (R119): the line counts as settled and is compared. -/
def settleExpired (l : Nat) (w : Work) : Work :=
  if w.st.normal && ranOut (w.st.line l).settle then
    compareLine l (w.withSt (w.st.setLine l { w.st.line l with settle := none }))
  else w

/-- The sense pin of a line at a new level. -/
def State.setSense (s : State) (l : Nat) (on : Bool) : State :=
  s.setPins { s.pins with sense := s.pins.sense.set l on }

/-- A sense change (R119): compared while settled, recorded while the settle runs, and handed on in both cases. -/
def senseChanged (l : Nat) (on : Bool) (w : Work) : Work :=
  if w.st.sense l = on then w
  else
    let w := w.withSt (w.st.setSense l on)
    if w.st.normal then
      if (w.st.line l).settle.isSome then w.emit (w.st.lineToConditions l) else compareLine l w
    else w

/-! ### Field roles (R122 to R124) -/

/-- R123: one setting of a STATE frame, matched to a field role. -/
def actRoleState (r level : Nat) (w : Work) : Work :=
  if w.st.normal then
    let x := w.st.role r
    let x := { x with actual := some (min level 1000), since := true,
                      heard := some ((w.st.tables.role r).confirmWindow * 10) }
    (w.withSt (w.st.setRole r x)).emit [.condWalk (.role r)]
  else w

/-- The refresh expiry (R122): the applied value placed again, the confirmation renewed, the timer started again. -/
def refreshExpired (r : Nat) (s : State) : State :=
  if s.normal && ranOut (s.role r).refresh then
    let x := (s.role r).renew (s.tables.role r).confirmWindow
    (s.setRole r { x with refresh := some (s.tables.device.refresh * 10) }).placeSub r x.applied
  else s

/-- The confirm timer's expiry (R124), handed to the Condition Unit as a role change. -/
def confirmExpired (r : Nat) (w : Work) : Work :=
  if w.st.normal && ranOut (w.st.role r).confirm then
    (w.withSt (w.st.setRole r { w.st.role r with confirm := none })).emit [.condWalk (.role r)]
  else w

/-- The heard timer runs out: the role is no longer heard (R123). -/
def heardExpired (r : Nat) (s : State) : State :=
  if ranOut (s.role r).heard then s.setRole r { s.role r with heard := none } else s

/-! ### Installing a role table (R126, R140) -/

/-- A role under a table that has just taken effect: slots from the state as it stands, confirmation restarted, heard
timer stopped, refresh by its owner (R126). The runtime of a role that is no field role is cleared (log 25). -/
def State.installedRole (s : State) (frost : Option Nat) (r : Nat) (x : RoleRun) : RoleRun :=
  let y := { x with limit := s.limitSlot r, lockout := s.lockoutSlot r, sequence := none, frost := frost, actual := none,
                    since := false, confirm := none, heard := none, refresh := none }
  let y := y.recompute
  if s.tables.isField r then
    { y.restart (s.tables.role r).confirmWindow with
      refresh := if y.owner.refreshed then some (s.tables.device.refresh * 10) else none }
  else y

/-- Each line under the table (R118, R126): its role's command or OFF, the settle started, the mark as given. -/
def State.installedLine (s : State) (keep : Nat → Bool) (l : Nat) : LineRun :=
  { commanded := match s.tables.roleOfLine l with
      | some r => (s.role r).applied != 0
      | none => false
    settle := some 2
    mismatch := keep l && (s.line l).mismatch }

/-- The substitution set under the table: a slot for each field role, its value placed (R126, R140). -/
def State.installedSlot (s : State) (r : Nat) : Option Slot :=
  match (s.tables.role r).target with
  | .field n c => some (placedSlot n c (s.role r).applied)
  | _ => none

/-- The role table takes effect, from the roles `base` and with the mismatch marks that `keep` names. -/
def State.installRoles (s : State) (base : Nat → RoleRun) (frost : Nat → Option Nat) (keep : Nat → Bool) : State :=
  let s := { s with roles := (List.range 12).map fun r => s.installedRole (frost r) r (base r) }
  let s := { s with lines := (List.range 8).map fun l => s.installedLine keep l }
  s.setGate { s.gate with slots := (List.range 12).map s.installedSlot }

/-- The requested value through a commit (R126): kept, clamped and normalised, 0 where the controller has no claim. -/
def commitRequest (e : RoleEntry) (x : RoleRun) : RoleRun :=
  if e.ctlAllowed then { x with requested := clampRequest e x.requested } else { x with ctlFilled := false, requested := 0 }

/-- Whether a line keeps its mismatch mark at commit completion (R126). -/
def keepsMark (old new : Tables) (l : Nat) : Bool := (new.roleOfLine l).isSome && old.roleOfLine l = new.roleOfLine l

/-- The lines in fallback mode: OL5, OL6 and OL7 ON, the others OFF, no readback (R125). -/
def State.fallbackLines (s : State) : State :=
  { s with lines := (List.range 8).map fun l => { commanded := decide (5 ≤ l), settle := none, mismatch := false } }

end Sys2Proof.Machine
end

