-- ==== Sys2Proof/Machine/Frost.lean ====
section
/-! DEFINITION. The Frost Unit (chapter 6): the second mark, debt and stage, claims, requests, and the reports it takes
from the Sequence and Fault Units. -/

namespace Sys2Proof.Machine

/-! ### Claims (R105) -/

/-- Whether a circuit in this stage claims its tier-1 roles. -/
def Stage.claims : Stage → Bool
  | .quiet => false
  | .circulate => true
  | .firingRequested => true
  | .firing => true

/-- The claim of one tier-1 place on role `r`. -/
def tierClaim (t : Option TierRole) (r : Nat) : Option Nat :=
  match t with
  | some x => if x.role = r then x.output.claim else none
  | none => none

/-- The claim of one circuit on role `r` (R105). -/
def circuitClaim (e : CircuitEntry) (c : CircuitRun) (r : Nat) : Option Nat :=
  if e.inUse && c.stage.claims then maxClaim (tierClaim e.tierA r) (tierClaim e.tierB r) else none

/-- Whether any circuit has its `blocked` mark set. -/
def State.anyBlocked (s : State) : Bool := (List.range 6).any fun c => (s.tables.circuit c).inUse && (s.circuit c).blocked

/-- The FROST claim on role `r` (R105): the highest of the circuits' claims, and ALARM while any circuit is blocked. -/
def State.frostClaim (s : State) (r : Nat) : Option Nat :=
  (List.range 6).foldl (fun m c => maxClaim m (circuitClaim (s.tables.circuit c) (s.circuit c) r))
    (if r = 7 ∧ s.anyBlocked = true then some 1000 else none)

/-- The FROST claims as one change of the Output Unit (R105). -/
def actFrostClaims (w : Work) : Work :=
  if w.st.normal then applySlots (fun r x => { x with frost := w.st.frostClaim r }) w else w

/-- The FROST notice of a circuit's change, with the state at the end of the event (R110). -/
def actFrostNotice (c : Nat) (w : Work) : Work := w.withSt (w.st.raiseNotice .frost (w.st.frostContent c))

/-! ### The second mark (R101 to R103, R106, R107) -/

/-- The `blocked` mark after a mark (R107): set by a request made while locked, cleared by a withdrawal. -/
def blockedAfter (old new : Stage) (locked blocked : Bool) : Bool :=
  match old, new with
  | .circulate, .firingRequested => locked
  | .firingRequested, .circulate => false
  | _, _ => blocked

/-- A circuit after one mark (R102, R103). -/
def circuitAfter (e : CircuitEntry) (c : CircuitRun) (v : Option Int) (onChain locked : Bool) : CircuitRun :=
  let d := deficit e v
  let debt := debtAfter c.debt d.1
  let stage := stageAfter e c.stage debt v onChain
  { debt := debt, stage := stage, blocked := blockedAfter c.stage stage locked c.blocked, last := some d }

/-- Whether a circuit's tier-2 sequence is on the chain. -/
def State.tier2OnChain (s : State) (c : Nat) : Bool :=
  match (s.tables.circuit c).tier2 with
  | some n => s.active n
  | none => false

/-- Circuit F`c` after a mark of the state; one not in use is left in its reset form (R98, R101). -/
def State.markedCircuit (s : State) (c : Nat) : CircuitRun :=
  if (s.tables.circuit c).inUse then
    circuitAfter (s.tables.circuit c) (s.circuit c) (s.goodPoint (some (s.tables.circuit c).point)) (s.tier2OnChain c)
      s.locked
  else s.circuit c

/-- Whether a circuit's stage or mark differs (R110). -/
def circuitMoved (old new : CircuitRun) : Bool := old.stage != new.stage || old.blocked != new.blocked

/-- The circuits of F0 to F5 whose stage or mark differs between two states. -/
def movedCircuits (s t : State) : List Nat := (List.range 6).filter fun c => circuitMoved (s.circuit c) (t.circuit c)

/-- The circuits that made the stage transition `a` to `b`, each with its tier-2 sequence. -/
def transitions (s t : State) (a b : Stage) : List (Nat × Nat) :=
  (List.range 6).filterMap fun c =>
    if (s.circuit c).stage = a ∧ (t.circuit c).stage = b then (s.tables.circuit c).tier2.map fun n => (c, n) else none

/-- The FROST_BLOCKED faults of a mark (R107), code 68, in ascending circuit order. -/
def blockedFaults (s : State) (adds : List (Nat × Nat)) : List Act :=
  if s.locked then
    adds.map fun a => .takeFault { code := 68, cls := .notice, seq := some a.2, step := none, line := none }
  else []

/-- The notices of the circuits that moved (R110), the last one standing: the circuits are taken in ascending order, also in a
report, a lockout or a commit, where the manual gives none (the model's choice, log 45). -/
def Work.frostMoved (w : Work) (moved : List Nat) : Work := moved.foldl (fun w c => w.fin (.frostNotice c)) w

/-- The claims are recomputed when anything moved (R105). -/
def claimsIfMoved (moved : List Nat) : List Act := if moved.isEmpty then [] else [.frostClaims]

/-- All six circuits after a mark. -/
def State.markedCircuits (s : State) : State := { s with circuits := (List.range 6).map s.markedCircuit }

/-- The Frost Unit's second mark (R101). -/
def frostMark (w : Work) : Work :=
  if w.st.normal then
    let s := w.st
    let t := s.markedCircuits
    let moved := movedCircuits s t
    let adds := transitions s t .circulate .firingRequested
    let removes := transitions s t .firingRequested .circulate
    ((w.withSt t).emit
      (arrange s.order (claimsIfMoved moved)
        (if adds.isEmpty && removes.isEmpty then [] else [.frostHandoff adds removes]) (blockedFaults s adds))).frostMoved
      moved
  else w

/-! ### Reports (R104, R108) -/

/-- Every circuit changed by `f`, with the notices and claims that follow. -/
def mapCircuits (f : CircuitEntry → CircuitRun → CircuitRun) (w : Work) : Work :=
  let t : State := { w.st with circuits := (List.range 6).map fun c =>
    if (w.st.tables.circuit c).inUse then f (w.st.tables.circuit c) (w.st.circuit c) else w.st.circuit c }
  let moved := movedCircuits w.st t
  ((w.withSt t).emit (claimsIfMoved moved)).frostMoved moved

/-- S`n` has become active: the circuits that requested it fire (R104). -/
def reportActive (n : Nat) (w : Work) : Work :=
  mapCircuits (fun e c => if c.stage = .firingRequested ∧ e.tier2 = some n then { c with stage := .firing, blocked := false }
    else c) w

/-- S`n` has left the chain: the circuits that followed it circulate (R104). -/
def reportLeft (n : Nat) (w : Work) : Work :=
  mapCircuits (fun e c => if c.stage = .firing ∧ e.tier2 = some n then { c with stage := .circulate } else c) w

/-- Lockout is entered: requesting circuits are blocked, without a fault (R108). -/
def lockoutEntered (w : Work) : Work :=
  mapCircuits (fun _ c => if c.stage = .firingRequested then { c with blocked := true } else c) w

/-- Lockout is cleared: every mark is cleared (R108). -/
def lockoutCleared (w : Work) : Work := mapCircuits (fun _ c => { c with blocked := false }) w

/-! ### Commit completion (R111) -/

/-- A circuit re-derived under a new entry (R111). -/
def rederive (e : CircuitEntry) (c : CircuitRun) : CircuitRun :=
  if e.inUse then
    { c with stage := if e.l1 ≤ c.debt then .circulate else .quiet, blocked := false }
  else CircuitRun.reset

/-- Every circuit re-derived under the tables of the state. -/
def State.rederiveCircuits (s : State) : State :=
  { s with circuits := (List.range 6).map fun c => rederive (s.tables.circuit c) (s.circuit c) }

end Sys2Proof.Machine
end

