-- ==== Sys2Proof/Machine/Chain.lean ====
section
/-! DEFINITION. The sequence chain (chapter 5): the switch checks, joining and leaving the chain, the pending-trigger
set, and the choice of the trigger arbiter. -/

namespace Sys2Proof.Machine

/-! ### The switch checks (R83, R84) -/

/-- Failures of the switch checks, in the order of Table 28. -/
inductive Refuse where
  | notInUse
  | notPermitted
  | active
  | chainFull
  | priority
  | absent
  | locked
  | committing
  deriving DecidableEq, Repr

/-- The reason code of a failure (Table 43). A failure of check 5 has none; no management request meets it. -/
def Refuse.reason : Refuse → Nat
  | .notInUse => reasonNotInUse
  | .notPermitted => reasonNotPermitted
  | .active => reasonActive
  | .chainFull => reasonChainFull
  | .priority => reasonNotPermitted
  | .absent => reasonAbsent
  | .locked => reasonLocked
  | .committing => reasonCommitting

/-- The classes a cause may enter (Table 27). -/
def Cause.allows : Cause → SeqClass → Bool
  | .demand, c => c = .heat
  | .demandOff, c => c = .stop
  | .stopLink, c => c = .stop
  | .absence, c => c = .stop
  | .recycle, c => c = .recovery
  | .run, c => c = .service
  | .stepCall, c => c = .stop || c = .recovery || c = .protect || c = .service
  | .trigger, c => c = .frost || c = .protect
  | .lockout, c => c = .lockoutPurge

/-- The causes whose switch is a CALL (Table 27). -/
def Cause.calls : Cause → Bool
  | .stepCall => true
  | .trigger => true
  | _ => false

/-- Whether a class is entered only while the controller is present (check 6). -/
def SeqClass.needsController : SeqClass → Bool
  | .heat => true
  | .service => true
  | _ => false

/-- Check 5: a trigger's sequence must rank above the top. -/
def State.outranked (s : State) (n : Nat) : Bool :=
  match s.top with
  | some t => (s.tables.seq n).priority ≤ (s.tables.seq t).priority
  | none => false

/-- Checks 1 to 8 of Table 28, in order: the first failure, or none. -/
def State.switchCheck (s : State) (n : Nat) (c : Cause) : Option Refuse :=
  if !(n < 12 && (s.tables.seq n).inUse) then some .notInUse
  else if !c.allows (s.tables.seq n).cls then some .notPermitted
  else if s.active n then some .active
  else if c.calls && !s.seq.chain.isEmpty && 4 ≤ s.seq.chain.length then some .chainFull
  else if c = .trigger && s.outranked n then some .priority
  else if !s.gate.present && (s.tables.seq n).cls.needsController then some .absent
  else if s.locked && c ≠ .lockout then some .locked
  else if s.committing then some .committing
  else none

/-- A reference that may be NONE: a sequence that is none fails check 1. -/
def State.switchCheckOpt (s : State) (n : Option Nat) (c : Cause) : Option Refuse :=
  match n with
  | some n => s.switchCheck n c
  | none => some .notInUse

/-! ### Joining and leaving (R86 to R90) -/

/-- The saved context of S`n` discarded. -/
def State.discardSaved (s : State) (n : Nat) : State := s.setSeqRun n { s.seqRun n with saved := none }

/-- The recycle count of S`n` set. -/
def State.setRecycle (s : State) (n k : Nat) : State := s.setSeqRun n { s.seqRun n with recycle := k }

/-- The head of the chain leaves it (R86, R89): marks cleared, saved context discarded, its step left, and the Frost
Unit told. -/
def leaveHead (w : Work) : Work :=
  match w.st.seq.chain with
  | n :: rest =>
    (reportLeft n (w.withSt (((w.st.discardSaved n).setChain rest).setRunning none))).fin .sequenceClaims
  | [] => w

/-- S`n` becomes the top (R86, R87): the Frost and Trace Units are told; its step follows. -/
def joinTop (n : Nat) (w : Work) : Work :=
  (Work.traceTop (reportActive n (w.withSt ((w.st.setChain (n :: w.st.seq.chain)).setRunning none))) n).fin .sequenceClaims

/-- What follows a switch to S`n` (R88, R93): its entry, and the examination that a new top causes. -/
def switchTail (n : Nat) : List Act := [.enterEntry n, .examineTriggers]

/-- ENTER of a sequence that has passed the checks (R86): it takes the place of the top. -/
def doEnter (n : Nat) (c : Cause) (w : Work) : Work :=
  (((joinTop n (leaveHead w)).fin (.chainNotice (some c) .enter (some n))).push (switchTail n))

/-- The top suspended (R71, R87): step, elapsed dwell and allowance saved. -/
def suspendTop (w : Work) : Work :=
  match w.st.top, w.st.seq.running with
  | some t, some x =>
    w.withSt ((w.st.setSeqRun t { w.st.seqRun t with
      saved := some { step := x.step, elapsed := x.elapsed, allowance := x.allowance } }).setRunning none)
  | _, _ => w

/-- CALL of a sequence that has passed the checks (R87); onto an empty chain it is an ENTER (Table 27). -/
def doCall (n : Nat) (c : Cause) (w : Work) : Work :=
  if w.st.seq.chain.isEmpty then doEnter n c w
  else ((joinTop n (suspendTop w)).fin (.chainNotice (some c) .call (some n))).push (switchTail n)

/-- The chain has become empty (R90). -/
def chainEmptied (w : Work) : Work :=
  (((w.riseIdle.traceFinish).fin .sequenceClaims).fin (.chainNotice none .empty none)).push [.examineTriggers, .examineDemand]

/-- After a member has left without a successor: the chain empties, or the member beneath is taken up (R77, R89). -/
def afterLeaving (w : Work) : Work := if w.st.seq.chain.isEmpty then chainEmptied w else w.push [.takeUp]

/-- The CHAIN notice, with the chain as it stands after the event (R91). -/
def actChainNotice (c : Option Cause) (k : SwitchKind) (n : Option Nat) (w : Work) : Work :=
  w.withSt (w.st.raiseNotice .chain (w.st.chainContent c k n))

/-- A replacement of the head of the chain by its stop link (R77, R78): when a check refuses it, the head leaves all the
same. -/
def replaceByStop (c : Cause) (l : Nat) (w : Work) : Work :=
  match (w.st.tables.seq l).stopLink, w.st.switchCheckOpt (w.st.tables.seq l).stopLink c with
  | some n, none => doEnter n c w
  | _, _ => afterLeaving (leaveHead w)

/-- Every member leaves, from the top to the bottom (R94). -/
def clearChain (w : Work) : Work :=
  let w' := w.st.seq.chain.foldl (fun w n => reportLeft n (w.withSt (w.st.discardSaved n))) w
  (w'.withSt ((w'.st.setChain []).setRunning none)).fin .sequenceClaims

/-! ### The pending-trigger set (R92, R93) -/

/-- The flags of every sequence changed by `f`; a flag newly set is examined, and so is demand when the set has become
empty on an empty chain (R76, R93). -/
def updateTriggers (f : Nat → Trigger → Trigger) (w : Work) : Work :=
  let t := w.st.setSeq { w.st.seq with triggers := (List.range 12).map fun n => f n (w.st.trigger n) }
  let newly := (List.range 12).any fun n => (t.trigger n).stands && !(w.st.trigger n).stands
  let emptied := t.noTriggers && !w.st.noTriggers && t.seq.chain.isEmpty
  (w.withSt t).push ((if newly then [.examineTriggers] else []) ++ (if emptied then [.examineDemand] else []))

/-- The condition source after a hand-off set (R92): added by a held TRUE while the sequence is not active, removed by
FALSE or UNKNOWN. -/
def ownSource (s : State) (set : List (Nat × Tri)) (n : Nat) (t : Trigger) : Trigger :=
  if (s.tables.seq n).inUse then
    match (s.tables.seq n).trigger with
    | some c =>
      match set.lookup c with
      | some .yes => if s.active n then t else { t with own := true }
      | some _ => { t with own := false }
      | none => t
    | none => t
  else t

/-- PENDING_TRIGGER_UPDATE by a hand-off set (R92). -/
def actApplyTriggers (set : List (Nat × Tri)) (w : Work) : Work := updateTriggers (ownSource w.st set) w

/-- The frost sources after a hand-off of the Frost Unit (R92, R106). -/
def frostSource (adds removes : List (Nat × Nat)) (n : Nat) (t : Trigger) : Trigger :=
  { t with circuits := (List.range 6).map fun c =>
      if adds.contains (c, n) then true else if removes.contains (c, n) then false else t.circuits.getD c false }

/-- FROST_REQUEST (R106): the additions and removals of one mark. -/
def actFrostHandoff (adds removes : List (Nat × Nat)) (w : Work) : Work := updateTriggers (frostSource adds removes) w

/-- The flag tried first (R93): highest priority, ties going to the lower index. -/
def State.bestTrigger (s : State) : Option Nat :=
  (List.range 12).foldl (fun m n =>
    if (s.trigger n).stands then
      match m with
      | some b => if (s.tables.seq b).priority < (s.tables.seq n).priority then some n else some b
      | none => some n
    else m) none

/-- TRIGGER_ARBITER (R93). -/
def actExamineTriggers (w : Work) : Work :=
  if w.st.normal then
    match w.st.bestTrigger with
    | some n =>
      match w.st.switchCheck n .trigger with
      | none => doCall n .trigger (w.withSt (w.st.setTrigger n Trigger.clear))
      | some .active => (w.withSt (w.st.setTrigger n Trigger.clear)).push [.examineTriggers]
      | some _ => w
    | none => w
  else w

/-! ### Demand (R76) -/

/-- The conditions under which demand is served (R76). -/
def State.demandServed (s : State) : Bool :=
  s.normal && s.seq.demand && s.seq.chain.isEmpty && !s.locked && s.noTriggers && s.gate.present && !s.committing

/-- SERVE_DEMAND (R76). -/
def actExamineDemand (w : Work) : Work :=
  if w.st.demandServed && (w.st.switchCheck w.st.tables.device.startSeq .demand).isNone then
    doEnter w.st.tables.device.startSeq .demand w
  else w

/-- The demand flag cleared, and a HEAT top replaced (R77); a SERVICE top too when absence begins (R78). -/
def clearDemand (absent : Bool) (w : Work) : Work :=
  let w := w.withSt (w.st.setSeq { w.st.seq with demand := false })
  match w.st.top with
  | some t =>
    match (w.st.tables.seq t).cls with
    | .heat => replaceByStop .demandOff t w
    | .service => if absent then replaceByStop .absence t w else w
    | _ => w
  | none => w

/-- ABSENCE_START (R78). -/
def actAbsenceStart (w : Work) : Work := clearDemand true w

end Sys2Proof.Machine
end

