-- ==== Sys2Proof/Machine/Steps.lean ====
section
/-! DEFINITION. The running step (chapter 4): entry, dwell, advance, timeout, supervision, return, and the hand-off sets
of the Condition Unit. -/

namespace Sys2Proof.Machine

/-- A fault of S`n` at its step `k`, with the step's code and class (R72). -/
def State.stepFault (s : State) (n k : Nat) : FaultIn :=
  { code := (s.tables.step k).faultCode
    cls := match (s.tables.step k).faultClass with
      | .recycle => .recycle
      | .lockout => .lockout
    seq := some n, step := some k, line := none }

/-- A fault of the top at its running step; nothing when there is none (R70). -/
def faultTop (w : Work) : List Act :=
  match w.st.top, w.st.seq.running with
  | some n, some x => [.takeFault (w.st.stepFault n x.step)]
  | _, _ => []

/-! ### Supervision and proof (R65, R68) -/

/-- Whether a supervision entry of the step is violated by the current held values (R62 action 8, R71). -/
def State.supervisionFails (s : State) (k : Nat) : Bool :=
  (s.tables.step k).supervision.any fun e => violated e (s.held e.cond)

/-- Whether a supervision entry whose condition is in the set is violated (R69). -/
def setViolates (e : StepEntry) (set : List (Nat × Tri)) : Bool :=
  e.supervision.any fun v => match set.lookup v.cond with | some t => violated v t | none => false

/-- Whether a step is proved as the held values stand (R65). -/
def State.proved (s : State) (k : Nat) : Bool :=
  match (s.tables.step k).proving with
  | none => true
  | some c => proves (s.tables.step k).provingValue (s.held c)

/-- Whether a set proves a step: its proving condition is in the set with the proving value (R65, R69). -/
def setProves (e : StepEntry) (set : List (Nat × Tri)) : Bool :=
  match e.proving with
  | none => false
  | some c => match set.lookup c with | some t => proves e.provingValue t | none => false

/-! ### Entry (R62, R88) -/

/-- The running-step record of an entered step (R62 action 1) with the allowance it was given (R54). -/
def runningOf (e : StepEntry) (k elapsed : Nat) (allowance : Option Nat) : Running :=
  { step := k, elapsed := elapsed, minDwell := e.minDwell + allowance.getD 0,
    maxDwell := extendMax e.maxDwell (allowance.getD 0), allowance := allowance, markTaken := false, hold := false }

/-- Actions 1 and 2 of R62: the running-step record, and the recycle count of a `success` step. -/
def startStep (n k : Nat) (s : State) : State :=
  let s := s.setRunning (some (runningOf (s.tables.step k) k 0 none))
  if (s.tables.step k).success then s.setRecycle n 0 else s

/-- Action 4 of R62: the warm-up allowance requested and applied to both dwells (R53, R54). -/
def applyAllowance (k : Nat) (s : State) : State :=
  if (s.tables.step k).warmup then
    s.noteAllowance.setRunning (some (runningOf (s.tables.step k) k 0 (some (allowanceNow s))))
  else s

/-- Action 5 of R62: the rise test armed (R48). -/
def applyArming (k : Nat) (w : Work) : Work := if (w.st.tables.step k).armRise then w.armRise else w

/-- Actions 8 and 9 of R62: supervision judged, then the step's `call`. -/
def entryOutcome (n k : Nat) (w : Work) : Work :=
  if w.st.supervisionFails k then w.push [.takeFault (w.st.stepFault n k)]
  else
    match (w.st.tables.step k).call with
    | some m => w.push [.callRequest m]
    | none => w

/-- STEP_ENTRY: the actions of R62, in order, for the top. -/
def actStepEntry (k : Nat) (w : Work) : Work :=
  match w.st.top with
  | some n =>
    let w := (w.withSt (startStep n k w.st)).fin .sequenceClaims
    let w := applyArming k (w.withSt (applyAllowance k w.st))
    entryOutcome n k (w.trace (.step n k))
  | none => w

/-- Check 9 of R88: every field role that the step does not leave FREE is heard. -/
def State.entryHeard (s : State) (k : Nat) : Bool :=
  (List.range 12).all fun r =>
    !s.tables.isField r || ((s.tables.step k).output r).claim.isNone || (s.role r).heard.isSome

/-- ENTRY_CHECKS (R88): check 9 before the entry actions; its failure leaves them untaken. -/
def actEnterEntry (n : Nat) (w : Work) : Work :=
  if w.st.entryHeard (w.st.tables.seq n).entryStep then w.push [.stepEntry (w.st.tables.seq n).entryStep]
  else (w.withSt (w.st.setRunning none)).push [.takeFault (w.st.stepFault n (w.st.tables.seq n).entryStep)]

/-- The code of a refused step call (R85). -/
def callCode (own : Nat) : Refuse → Nat
  | .active => 66
  | .chainFull => 67
  | _ => own

/-- Action 9 of R62 and R85: the CALL performed, or a fault of the calling step. -/
def actCallRequest (m : Nat) (w : Work) : Work :=
  match w.st.top, w.st.seq.running with
  | some n, some x =>
    match w.st.switchCheck m .stepCall with
    | none => doCall m .stepCall w
    | some r =>
      let f := w.st.stepFault n x.step
      w.push [.takeFault { f with code := callCode f.code r }]
  | _, _ => w

/-! ### Dwell (R64 to R67) -/

/-- The minimum-dwell mark (R64), and the advance it examines (R65). The mark of a step that has been left finds the
running step short of its own minimum, and has no effect (R70, log 2). -/
def actMinMark (w : Work) : Work :=
  match w.st.seq.running with
  | some x =>
    if x.markTaken = true ∨ x.elapsed < x.minDwell then w
    else
      let w := w.withSt (w.st.setRunning (some { x with markTaken := true }))
      if w.st.proved x.step then w.push [.advance] else w
  | none => w

/-- The `on_timeout` action of the running step (R67). -/
def timeoutActs (s : State) (n : Nat) (x : Running) : List Act :=
  match (s.tables.step x.step).onTimeout with
  | .goto k => [.stepEntry k]
  | .fault => [.takeFault (s.stepFault n x.step)]
  | .none => []

/-- The max-dwell expiry (R67): none at a governing maximum of 0 or after a HOLD advance (R64). The expiry of a step that
has been left finds the running step short of its own maximum, and has no effect (R70, log 2). -/
def actMaxExpiry (w : Work) : Work :=
  match w.st.top, w.st.seq.running with
  | some n, some x =>
    if x.maxDwell = 0 ∨ x.hold = true ∨ x.elapsed < x.maxDwell then w else w.push (timeoutActs w.st n x)
  | _, _ => w

/-- STEP_ADVANCE (R66): to a step, to END, or to HOLD. -/
def actAdvance (w : Work) : Work :=
  match w.st.seq.running with
  | some x =>
    match (w.st.tables.step x.step).next with
    | .step k => w.push [.stepEntry k]
    | .finish => w.push [.finishTop]
    | .hold => w.withSt (w.st.setRunning (some { x with hold := true }))
  | none => w

/-! ### Return (R71, R89) -/

/-- RETURN (R89): the top has reached END; its recycle count becomes 0 and it leaves. -/
def actFinishTop (w : Work) : Work :=
  match w.st.top with
  | some n => afterLeaving (leaveHead (w.withSt (w.st.setRecycle n 0)))
  | none => w

/-- The cause with which a suspended sequence is replaced instead of taken up (R77, R78, R89). -/
def State.replaceCause (s : State) (l : Nat) : Option Cause :=
  match (s.tables.seq l).cls with
  | .heat => if s.seq.demand then none else some .demandOff
  | .service => if s.gate.present then none else some .absence
  | _ => none

/-- What a CONTINUE_STEP examines at once (R71): supervision, then the mark and the advance, then the maximum. -/
def resumeActs (s : State) (n : Nat) (x : Running) : List Act :=
  if s.supervisionFails x.step then [.takeFault (s.stepFault n x.step)]
  else if x.markTaken && s.proved x.step then [.advance]
  else if x.maxDwell ≠ 0 ∧ x.maxDwell ≤ x.elapsed then [.maxExpiry]
  else []

/-- A saved step continued (R71): dwells rebuilt from the saved allowance, claims reapplied, nothing re-armed. -/
def continueStep (n : Nat) (c : Saved) (w : Work) : Work :=
  let x := runningOf (w.st.tables.step c.step) c.step c.elapsed c.allowance
  let x := { x with markTaken := decide (x.minDwell ≤ x.elapsed) }
  let w := Work.trace (w.withSt (w.st.setRunning (some x))) (.step n c.step)
  w.push (resumeActs w.st n x)

/-- A suspended sequence taken up by its resume mode (R71, R89). -/
def resume (n : Nat) (c : Saved) (w : Work) : Work :=
  match (w.st.tables.seq n).resumeMode with
  | .restartStep => w.push [.stepEntry c.step]
  | .continueStep => continueStep n c w

/-- The head of the chain after a RETURN (R89): replaced when it is no longer wanted, taken up otherwise. -/
def actTakeUp (w : Work) : Work :=
  match w.st.top with
  | some l =>
    match w.st.replaceCause l with
    | some c => replaceByStop c l w
    | none =>
      match (w.st.seqRun l).saved with
      | some c =>
        let w := ((w.withSt (w.st.discardSaved l)).fin .sequenceClaims).fin (.chainNotice none .ret (some l))
        resume l c ((w.traceTop l).push [.examineTriggers])
      | none => w
  | none => w

/-! ### Hand-off sets (R69) -/

/-- SEQUENCE_HANDOFF (R69): supervision first, then proof, then the pending-trigger set; the arbiter's examination for a
new top that the first two make comes before the set is applied (the model's choice, log 36). -/
def actHandoff (set : List (Nat × Tri)) (w : Work) : Work :=
  match w.st.seq.running with
  | some x =>
    if setViolates (w.st.tables.step x.step) set then w.push (faultTop w ++ [.applyTriggers set])
    else if x.markTaken && !x.hold && setProves (w.st.tables.step x.step) set then w.push [.advance, .applyTriggers set]
    else w.push [.applyTriggers set]
  | none => w.push [.applyTriggers set]

end Sys2Proof.Machine
end

