-- ==== Sys2Proof/Machine/Faults.lean ====
section
/-! DEFINITION. The Fault Unit (chapter 9): taking a fault, recycling, lockout, faults while locked, unlock, and the reset
allowance. -/

namespace Sys2Proof.Machine

/-! ### The record (R143) -/

/-- The current fault record of a fault taken in a state (R143). -/
def State.faultRecord (s : State) (f : FaultIn) (cls : FaultClass) (o : FaultOutcome) (mark : Bool) : FaultRecord :=
  { code := f.code, cls := cls, outcome := o, limitMark := mark, seq := f.seq, step := f.step, line := f.line,
    time := s.faultTime, flueTemp := s.flueTemp }

/-- The record replaced, and the FAULT notice raised with it (R143). -/
def State.noteFault (s : State) (r : FaultRecord) : State :=
  (s.setFault { s.fault with record := some r }).raiseNotice .fault (faultBytes (some r))

/-! ### Lockout (R145) -/

/-- The lockout number after the next lockout: from 65535 it wraps to 1 (R145). -/
def nextNumber (n : Nat) : Nat := if n = 65535 then 1 else n + 1

/-- A history entry pushed onto the front; a seventh first removes the oldest (R145). -/
def pushHistory (e : HistoryEntry) (h : List HistoryEntry) : List HistoryEntry := e :: h.take 5

/-- The history entry of a lockout (R145). -/
def historyOf (number : Nat) (r : FaultRecord) : HistoryEntry :=
  { number := number, cause := r.code, seq := r.seq, step := r.step, limitMark := r.limitMark, flueTemp := r.flueTemp,
    second := none }

/-- The lockout data on entry into lockout (R145 actions 1 to 3). -/
def LockoutData.lock (d : LockoutData) (r : FaultRecord) : LockoutData :=
  { d with locked := true, number := nextNumber d.number, history := pushHistory (historyOf (nextNumber d.number) r) d.history }

/-- Every recycle count cleared (R74, R94). -/
def State.clearRecycles (s : State) : State :=
  s.setSeq { s.seq with runs := s.seq.runs.map fun x => { x with recycle := 0 } }

/-- TEARDOWN (R94). -/
def teardown (w : Work) : Work :=
  let w := clearChain w
  ((w.withSt w.st.clearRecycles).riseIdle).traceFinish

/-- LOCKOUT_PURGE_ENTRY (R95): the purge entered, or left due while a commit is in progress; no CHAIN notice is raised
for the chain that was empty before and stays so (the model's choice, log 42). -/
def enterPurge (w : Work) : Work :=
  match w.st.switchCheck w.st.tables.device.lockoutSeq .lockout with
  | none => doEnter w.st.tables.device.lockoutSeq .lockout w
  | some .committing => w.withSt (w.st.setSeq { w.st.seq with purgeDue := true })
  | some _ => w

/-- LOCKOUT_ENTRY (R145), within the fault's event. -/
def lockOut (f : FaultIn) (mark : Bool) (w : Work) : Work :=
  let r := w.st.faultRecord f .lockout .lockedOut mark
  let w := w.withSt ((w.st.setData (w.st.fault.data.lock r)).noteFault r)
  let w := lockoutEntered (teardown w)
  enterPurge (w.withSt w.st.raiseLockout.requestPersist)

/-! ### Decisions while unlocked (R144) -/

/-- RECYCLE (R73, R144): counted; at the limit, or when the recovery entry is refused, a lockout. -/
def recycle (f : FaultIn) (n : Nat) (w : Work) : Work :=
  let w := w.withSt (w.st.setRecycle n ((w.st.seqRun n).recycle + 1))
  if (w.st.tables.seq n).recycleLimit ≤ (w.st.seqRun n).recycle then lockOut f true w
  else
    match (w.st.tables.seq n).recoveryLink, w.st.switchCheckOpt (w.st.tables.seq n).recoveryLink .recycle with
    | some m, none => doEnter m .recycle (w.withSt (w.st.noteFault (w.st.faultRecord f .recycle .recycled false)))
    | _, _ => lockOut f false w

/-- A fault taken while UNLOCKED (R144). -/
def faultUnlocked (f : FaultIn) (w : Work) : Work :=
  match f.cls, f.seq with
  | .notice, _ => w.withSt (w.st.noteFault (w.st.faultRecord f .notice .noted false))
  | .recycle, some n => recycle f n w
  | .recycle, none => lockOut f false w
  | .lockout, _ => lockOut f false w

/-! ### Faults while locked (R146) -/

/-- The newest history entry's second fault filled when it is absent (R146). -/
def fillSecond (code : Nat) : List HistoryEntry → Option (List HistoryEntry)
  | e :: rest => if e.second.isNone then some ({ e with second := some code } :: rest) else none
  | [] => none

/-- Step 2 of R146. -/
def recordSecond (code : Nat) (s : State) : State :=
  match fillSecond code s.fault.data.history with
  | some h => ((s.setData { s.fault.data with history := h }).raiseLockout).requestPersist
  | none => s

/-- Step 1 of R146: a lockout purge on the chain leaves it. -/
def endPurge (w : Work) : Work := if w.st.seq.chain.isEmpty then w else chainEmptied (clearChain w)

/-- FAULT_WHILE_LOCKED (R146). -/
def faultLocked (f : FaultIn) (w : Work) : Work :=
  let r := w.st.faultRecord f f.cls .whileLocked false
  let w := endPurge w
  w.withSt ((recordSecond f.code w.st).noteFault r)

/-- FAULT_TAKEN (R142): traced first (R154, R156), then disposed of by the lockout state as it stands. -/
def actTakeFault (f : FaultIn) (w : Work) : Work :=
  let w := w.trace (.fault f.code)
  if w.st.locked then faultLocked f w else faultUnlocked f w

/-! ### Unlock (R147, R148) and the allowance (R149) -/

/-- The regain time: 20 minutes in deciseconds (R149). -/
def regainTime : Nat := 12000

/-- The unlock conditions in order: the refusal's reason code, or none (R147). -/
def State.unlockRefusal (s : State) : Option Nat :=
  if !s.locked then some reasonNotLocked
  else if s.fault.data.allowance = 0 then some reasonNoAllowance
  else if !s.pins.limitClosed then some reasonLimitOpen
  else if !s.seq.chain.isEmpty || s.seq.purgeDue then some reasonPurging
  else none

/-- The Fault Unit after an accepted unlock (R148 actions 1 and 2). -/
def FaultUnit.unlock (f : FaultUnit) : FaultUnit :=
  { f with data := { f.data with locked := false, allowance := f.data.allowance - 1 },
           regain := match f.regain with
             | some t => some t
             | none => some regainTime }

/-- UNLOCK_ACCEPTED (R148). The Sequence Unit examines triggers and demand before the Condition Unit takes the role changes
of the released LOCKOUT claims (the model's choice, log 49). Of the two changes that R108 has reach ALARM, the release comes
first, at the end of this event, and the end of FROST's claim after it (the model's choice, log 51). -/
def acceptUnlock (w : Work) : Work :=
  let w := lockoutCleared (w.withSt ((w.st.setFault w.st.fault.unlock).raiseLockout.requestPersist))
  (w.fin .sequenceClaims).emit [.examineTriggers, .examineDemand]

/-- The regain timer's expiry (R149): one unlock earned back, and the timer again below 3. -/
def regained (s : State) : State :=
  if ranOut s.fault.regain then
    let a := min (s.fault.data.allowance + 1) 3
    (s.setFault { s.fault with data := { s.fault.data with allowance := a },
                               regain := if a < 3 then some regainTime else none }).requestPersist
  else s

end Sys2Proof.Machine
end

