-- ==== Sys2Proof/Machine/Cascade.lean ====
section
/-! DEFINITION. How one command runs its internal events to their end (95_what_each_step_holds): the dispatcher over the
units' actions, and the cascade. -/

namespace Sys2Proof.Machine

/-- What the Sequence Unit does at commit completion, in order (R95, R96). -/
def actCommitSequence (w : Work) : Work :=
  let w := w.push [.examineTriggers, .examineDemand]
  if w.st.seq.purgeDue then enterPurge (w.withSt (w.st.setSeq { w.st.seq with purgeDue := false })) else w

/-- One action of a unit. -/
def act (a : Act) (w : Work) : Work :=
  match a with
  | .reading source channel code => actReading source channel code w
  | .ageMark => actAgeMark w
  | .condWalk i => actCondWalk i w
  | .flueInput p sample => actFlueInput p sample w
  | .traceSample p v => actTraceSample p v w
  | .roleState r level => actRoleState r level w
  | .handoff set => actHandoff set w
  | .applyTriggers set => actApplyTriggers set w
  | .frostHandoff adds removes => actFrostHandoff adds removes w
  | .minMark => actMinMark w
  | .maxExpiry => actMaxExpiry w
  | .advance => actAdvance w
  | .enterEntry n => actEnterEntry n w
  | .stepEntry k => actStepEntry k w
  | .callRequest m => actCallRequest m w
  | .finishTop => actFinishTop w
  | .takeUp => actTakeUp w
  | .examineTriggers => actExamineTriggers w
  | .examineDemand => actExamineDemand w
  | .absenceStart => actAbsenceStart w
  | .commitSequence => actCommitSequence w
  | .takeFault f => actTakeFault f w
  | .frostClaims => actFrostClaims w
  | .sequenceClaims => actSequenceClaims w
  | .frostNotice c => actFrostNotice c w
  | .chainNotice c k n => actChainNotice c k n w
  | .traceNotice half => actTraceNotice half w

/-- The next action and the work without it (log 4): within the event, then at its end, then the hand-offs it made
before the events already waiting. -/
def Work.take (w : Work) : Option (Act × Work) :=
  match w.stack with
  | a :: rest => some (a, { w with stack := rest })
  | [] =>
    match w.fins with
    | a :: rest => some (a, { w with fins := rest })
    | [] =>
      match w.emitted ++ w.queue with
      | a :: rest => some (a, { w with stack := [], fins := [], emitted := [], queue := rest })
      | [] => none

/-- The cascade run to its end within a number of actions; none when actions are left over (log 5). -/
def runWork : Nat → Work → Option State
  | 0, w => match w.take with | none => some w.st | some _ => none
  | n + 1, w =>
    match w.take with
    | none => some w.st
    | some (a, w') => runWork n (act a w')

end Sys2Proof.Machine
end

