-- ==== Sys2Proof/Machine/Ports.lean ====
section
/-! DEFINITION. The two transmit arbiters (R134 to R137), what the end of a transmission clears, the port's receive and
transmit state (R160 to R162), and how a command ends: its cascade and the arbiters' choice. -/

namespace Sys2Proof.Machine

/-! ### Frames the part builds (R134, R135) -/

/-- The DRIVE frame of a substitution: source 1, one setting (R134). -/
def substitutionFrame (x : Slot) (value : Nat) : Frame :=
  { src := 1, dst := u8 x.node, kind := kindByte 3 0, payload := settingBytes [(x.channel, value)] }

/-- The content of a notice as it stands when the notice is built (R135); a LOCKOUT's is taken then (R152). -/
def State.noticeContent (s : State) (k : NoticeKind) : List Byte :=
  match k with
  | .lockout => s.lockoutContent
  | _ => (s.notice k).content

/-- The NOTICE frame of a kind: from the management address to the controller address (R135). -/
def State.noticeFrame (s : State) (k : NoticeKind) : Frame :=
  { src := u8 s.mgmtAddr, dst := u8 s.tables.device.ctlAddr, kind := kindByte 6 (codeOf NoticeKind.all k),
    payload := s.noticeContent k }

/-- An entry of the pending-notice set replaced. -/
def State.setNotice (s : State) (k : NoticeKind) (n : Notice) : State :=
  s.setGate { s.gate with notices := s.gate.notices.set (codeOf NoticeKind.all k) n }

/-! ### The arbiters (R136, R137) -/

/-- A port's frame in hand chosen. -/
def State.take (s : State) (p : Port) (f : Frame) (t : HandTag) : State :=
  s.setPort p { s.port p with hand := some { frame := f, tag := t } }

/-- The pending slots, lowest role number first (R136). -/
def State.pendingSlot (s : State) : Option Nat :=
  (List.range 12).find? fun r => match s.slot r with | some x => x.pending && x.last.isSome | none => false

/-- FIELD_ARBITER's choice of a slot: its frame is built from the last value as it stands (R134). -/
def State.takeSlot (s : State) (r : Nat) : State :=
  match s.slot r with
  | some x =>
    (s.setSlot r (some { x with newer := false })).take .field (substitutionFrame x (x.last.getD 0)) (.substitution r)
  | none => s

/-- FIELD_ARBITER (R136), when the port holds nothing. -/
def State.chooseField (s : State) : State :=
  match s.pendingSlot with
  | some r => s.takeSlot r
  | none =>
    match s.gate.down with
    | f :: rest => (s.setGate { s.gate with down := rest }).take .field f .forwarded
    | [] => s

/-- A notice selected: its entry's content is no longer newer than the notice in hand (R135). -/
def State.takeNotice (s : State) (k : NoticeKind) : State :=
  (s.setNotice k { s.notice k with newer := false }).take .control (s.noticeFrame k) (.notice k)

/-- The first kind of a list whose flag is set. -/
def State.flagged (s : State) (ks : List NoticeKind) : Option NoticeKind := ks.find? fun k => (s.notice k).flag

/-- The last two groups of R137: the forward-up queue, then the remaining notices. -/
def State.chooseUp (s : State) : State :=
  match s.gate.up with
  | f :: rest => (s.setGate { s.gate with up := rest }).take .control f .forwarded
  | [] =>
    match s.flagged [.frost, .chain, .drive, .trace, .unlock] with
    | some k => s.takeNotice k
    | none => s

/-- CONTROL_ARBITER (R137), when the port holds nothing. -/
def State.chooseControl (s : State) : State :=
  match s.gate.reply with
  | f :: rest => (s.setGate { s.gate with reply := rest }).take .control f .reply
  | [] =>
    match s.flagged [.lockout, .fault] with
    | some k => s.takeNotice k
    | none => s.chooseUp

/-- Both arbiters choose for a port that holds nothing (R136, R137; log 12). -/
def State.arbitrate (s : State) : State :=
  let s := if s.fieldPort.hand.isSome then s else s.chooseField
  if s.ctlPort.hand.isSome then s else s.chooseControl

/-! ### The end of a command -/

/-- Work run to its end within the cascade's limit, then the arbiters (logs 4, 5, 12). -/
def finish (w : Work) : Host.Outcome State Fault Refusal :=
  match runWork Config.cascadeLimit w with
  | some s => .next s.arbitrate
  | none => .fault .cascadeUnending

/-- A change of state that hands nothing on, then the arbiters. -/
def finishState (s : State) : Host.Outcome State Fault Refusal := .next s.arbitrate

/-! ### Sending (R134, R135, R161) -/

/-- What the sending of a frame in hand clears (R134, R135). -/
def State.clearSent (s : State) (t : HandTag) : State :=
  match t with
  | .substitution r =>
    match s.slot r with
    | some x => s.setSlot r (some { x with pending := x.newer })
    | none => s
  | .notice k =>
    let s := s.setNotice k { s.notice k with flag := (s.notice k).newer }
    if k = .drive then s.setGate { s.gate with driveCount := 0 } else s
  | .forwarded => s
  | .reply => s

/-- FRAME_SENT at a port that is sending (R161). -/
def State.frameSent (s : State) (p : Port) : State :=
  if (s.port p).sending then
    match (s.port p).hand with
    | some h =>
      (s.setPort p { hearing := .waiting, sending := false, hand := none, lastSent := frameBytes h.frame }).clearSent h.tag
    | none => s
  else s

/-- TRANSMIT_START (R161): a frame in hand, right after a quiet interval; what follows it waits for the next one. -/
def State.transmitStart (s : State) (p : Port) : State :=
  let x := s.port p
  if x.hand.isSome && !x.sending && x.hearing = .ready then s.setPort p { x with sending := true, hearing := .waiting } else s

/-- A sender stops, keeps its frame in hand, and receives the frame it has heard from the start (R161). -/
def State.stopSending (s : State) (p : Port) : State :=
  s.setPort p { s.port p with sending := false, hearing := .receiving }

/-- Whether a port's frame in hand carries a higher source address than `winner` (R161). -/
def State.losesTo (s : State) (p : Port) (winner : Byte) : Bool :=
  match (s.port p).hand with
  | some h => winner.toNat < h.frame.src.toNat
  | none => false

/-! ### Receiving (R160) -/

/-- Whether the part is powered. -/
def State.powered (s : State) : Bool := s.phase != .off

/-- A quiet interval on a segment (R160): the port receives afresh, and may begin to send. -/
def State.quiet (s : State) (p : Port) : State :=
  if s.powered && !(s.port p).sending then s.setPort p { s.port p with hearing := .ready } else s

/-- What a port may hear next, replaced. -/
def State.hear (s : State) (p : Port) (h : Hearing) : State := s.setPort p { s.port p with hearing := h }

/-- Whether a port takes what arrives (R160, log 13): it is powered, does not send, and has either seen the quiet interval
that a frame begins after, or receives the frame that its own lost to. -/
def State.receives (s : State) (p : Port) : Bool :=
  s.powered && !(s.port p).sending && (s.port p).hearing != .waiting

/-- A reception that R160 discards. -/
def State.discardFrame (s : State) (p : Port) (bytes : List Byte) (ending : ReceptionEnd) : State :=
  if s.receives p && discards bytes ending then s.hear p .waiting else s

end Sys2Proof.Machine
end

