-- ==== Sys2Proof/Machine/Gate.lean ====
section
/-! DEFINITION. The Frame Gate (chapter 8): classification of frames from both segments, taps, DRIVE interception,
controller presence, and link reset. Management frames go through Machine/Handler.lean. -/

namespace Sys2Proof.Machine

/-! ### Queues (R131, R132) -/

/-- A frame appended to a queue of at most 8; a full queue discards it (R132). -/
def appendFrame (q : List Frame) (f : Frame) : List Frame := if q.length < 8 then q ++ [f] else q

/-- A frame placed in the forward-up queue. -/
def State.forwardUp (s : State) (f : Frame) : State := s.setGate { s.gate with up := appendFrame s.gate.up f }

/-- A frame placed in the forward-down queue. -/
def State.forwardDown (s : State) (f : Frame) : State := s.setGate { s.gate with down := appendFrame s.gate.down f }

/-! ### Addresses (Table 36) -/

/-- Destinations of the field segment: 2 to 47. -/
def fieldAddress (d : Byte) : Bool := within 2 d.toNat 47

/-- Destinations that go up: 0, and 48 to 63 (R129). -/
def upAddress (d : Byte) : Bool := d.toNat = 0 || within 48 d.toNat 63

/-! ### Controller presence (R138) -/

/-- Whether a source is the controller address. -/
def State.fromController (s : State) (src : Byte) : Bool := src.toNat = s.tables.device.ctlAddr

/-- The absence timer's full time. -/
def State.absenceTime (s : State) : Nat := s.tables.device.absenceTimeout * 10

/-- CONTROLLER_FRAME_SEEN (R128, R138): the controller is present, and its timer starts again. -/
def State.seeSource (s : State) (src : Byte) : State :=
  if s.fromController src then s.setGate { s.gate with present := true, absence := some s.absenceTime } else s

/-- The expiry of the absence timer (R138): ABSENT, and the start of absence handed to the Sequence Unit; a timer that a
frame has started again does not expire (log 2). -/
def absenceExpired (w : Work) : Work :=
  if ranOut w.st.gate.absence then
    (w.withSt (w.st.setGate { w.st.gate with present := false, absence := none })).emit [.absenceStart]
  else w

/-! ### DRIVE notices (R130) -/

/-- A DRIVE notice's content (R130, Table 45); node NONE is sent as 255 (the model's choice, log 19). -/
def driveContent (reason : Nat) (node : Option Nat) (setting : Option (Nat × Nat)) (role : Option Nat) (count : Nat) :
    List Byte :=
  [u8 reason, indexByte node, flagByte [setting.isSome], u8 ((setting.map Prod.fst).getD 0)]
    ++ u16 ((setting.map Prod.snd).getD 0) ++ [indexByte role, u8 count]

/-- A drop: the count goes up by 1, saturating at 255, and a DRIVE notice is raised (R130). -/
def State.raiseDrive (s : State) (reason : Nat) (node : Option Nat) (setting : Option (Nat × Nat)) (role : Option Nat) :
    State :=
  let n := min (s.gate.driveCount + 1) 255
  (s.setGate { s.gate with driveCount := n }).raiseNotice .drive (driveContent reason node setting role n)

/-! ### DRIVE interception (R130) -/

/-- A setting that survives: channel, level carried, and the role that carries it when it was answered FORWARD. -/
structure Kept where
  channel : Nat
  level : Nat
  role : Option Nat
  deriving DecidableEq, Repr

/-- One setting of a DRIVE frame (R130 step 3): the gate's action on the Output Unit's answer (log 26). -/
def driveSetting (node : Nat) (acc : Work × List Kept) (g : Nat × Nat) : Work × List Kept :=
  let v := min g.2 1000
  let drop (w : Work) (reason : Nat) (role : Option Nat) : Work × List Kept :=
    (w.withSt (w.st.raiseDrive reason (some node) (some (g.1, v)) role), acc.2)
  match referSetting node g.1 v acc.1 with
  | (.unrouted, w) =>
    if w.st.normal && w.st.tables.device.passUnrouted then
      (w, acc.2 ++ [{ channel := g.1, level := g.2, role := none }])
    else drop w reasonUnrouted none
  | (.notPermitted r, w) => drop w reasonNotPermitted (some r)
  | (.held r, w) => drop w reasonHeld (some r)
  | (.forward r q, w) =>
    (w.withSt (w.st.recordLast r q), acc.2 ++ [{ channel := g.1, level := q, role := some r }])

/-- The rebuilt frame's payload: the surviving settings in their order (R130 step 4). -/
def keptBytes (kept : List Kept) : List Byte := settingBytes (kept.map fun k => (k.channel, k.level))

/-- A rebuilt frame that finds the queue full: its FORWARD settings become pending substitutions (R130). -/
def placeKept (s : State) (kept : List Kept) : State :=
  kept.foldl (fun s k => match k.role with | some r => s.placeSub r k.level | none => s) s

/-- The rebuilt frame queued, or turned into substitutions; nothing when no setting survives (R130 step 4). -/
def queueKept (f : Frame) (kept : List Kept) (s : State) : State :=
  if kept.isEmpty then s
  else if s.gate.down.length < 8 then s.forwardDown { f with payload := keptBytes kept }
  else placeKept s kept

/-- DRIVE_INTERCEPTION (R130): source, payload, settings, rebuilding. Every setting is referred before the Condition Unit
takes the role changes that they make (the model's choice, log 41). -/
def intercept (f : Frame) (w : Work) : Work :=
  if !w.st.fromController f.src then
    w.withSt (w.st.raiseDrive reasonNotPermitted (some f.dst.toNat) none none)
  else if !groupsOk 4 f.payload then
    w.withSt (w.st.raiseDrive reasonMalformed (some f.dst.toNat) none none)
  else
    let acc := (groups f.payload).foldl (driveSetting f.dst.toNat) (w, [])
    acc.1.withSt (queueKept f acc.2 acc.1.st)

/-- A DRIVE frame from the control segment, by its destination (Table 36). -/
def driveFrame (f : Frame) (w : Work) : Work :=
  if fieldAddress f.dst then intercept f w
  else if f.dst.toNat ≤ 1 then w.withSt (w.st.raiseDrive reasonUnrouted none none none)
  else w

/-! ### Link reset (R139) -/

/-- A port returned to idle, its frame in hand discarded (R139, R162). -/
def PortState.reset (x : PortState) : PortState := { x with hearing := .ready, sending := false, hand := none }

/-- A slot that holds a last value marked pending (R139). -/
def Slot.again (x : Slot) : Slot := if x.last.isSome then { x with pending := true } else x

/-- LINKRESET taken by the part (R139). -/
def State.linkReset (s : State) : State :=
  let s := (s.setPort .control s.ctlPort.reset).setPort .field s.fieldPort.reset
  s.setGate { s.gate with up := [], down := [], reply := [], slots := s.gate.slots.map fun x => x.map Slot.again,
                          absence := if s.gate.present then some s.absenceTime else s.gate.absence }

/-! ### Frames from the control segment but MANAGE (R128, Table 36) -/

/-- What Table 36 does with a frame that is not a management request. -/
def controlOther (f : Frame) (w : Work) : Work :=
  match frameKind f.kind with
  | .drive => driveFrame f w
  | .general => if f.dst.toNat = 0 || fieldAddress f.dst then w.withSt (w.st.forwardDown f) else w
  | .linkreset => if f.dst.toNat = 0 then w.withSt w.st.linkReset else w
  | .manage => w
  | .sample => w
  | .state => w
  | .reply => w
  | .notice => w

/-! ### Frames from the field segment (R129) -/

/-- The tap of a SAMPLE frame: its readings, in order (R5, R129); no tap in fallback mode (R140). -/
def sampleTap (s : State) (f : Frame) : List Act :=
  if s.normal && groupsOk 8 f.payload then (groups f.payload).map fun g => .reading f.src.toNat g.1 g.2 else []

/-- The tap of a STATE frame: its settings that match a field role, in order (R123, R129). -/
def stateTap (s : State) (f : Frame) : List Act :=
  if s.normal && groupsOk 4 f.payload then
    (groups f.payload).filterMap fun g => (s.tables.roleOfField f.src.toNat g.1).map fun r => .roleState r g.2
  else []

/-- What is tapped of a frame from the field segment (R129): whatever its destination, 64 to 255 among them (log 39). -/
def tap (s : State) (f : Frame) : List Act :=
  match frameKind f.kind with
  | .sample => sampleTap s f
  | .state => stateTap s f
  | _ => []

/-- The kinds that may go up (R129). -/
def FrameKind.goesUp : FrameKind → Bool
  | .sample => true
  | .state => true
  | .general => true
  | _ => false

/-- A frame from the field segment classified (R129): tapped, and forwarded up by its kind and destination. -/
def fieldArrival (f : Frame) (w : Work) : Work :=
  let acts := tap w.st f
  let s := if (frameKind f.kind).goesUp && upAddress f.dst then w.st.forwardUp f else w.st
  (w.withSt s).emit acts

/-- Whether a port can hand a frame to the gate: R160 discards source 0 and lengths above 24. -/
def deliverable (f : Frame) : Bool := f.src.toNat != 0 && f.payload.length ≤ 24

/-- A frame received at a port (R160): the port then waits for the next quiet interval, and the gate takes the frame when
the port can deliver it and the part serves frames (R140). -/
def receive (p : Port) (f : Frame) (gate : Frame → Work → Work) (s : State) : Work :=
  if s.receives p then
    let s := s.hear p .waiting
    if deliverable f && s.serving then gate f (Work.idle s) else Work.idle s
  else Work.idle s

end Sys2Proof.Machine
end

