-- ==== Sys2Proof/Machine/Store.lean ====
section
/-! DEFINITION. The Table Store (chapters 9 and 11): the cross-checks of COMMIT, the store write and its completion,
persistence writes, device reset, power loss, and the power-on image check. -/

namespace Sys2Proof.Machine

/-! ### Cross-checks (R165) -/

/-- Whether an index names an in-use point of one of the kinds. -/
def Tables.pointOf (t : Tables) (kinds : List PointKind) (p : Nat) : Bool :=
  p < 24 && (t.point p).inUse && kinds.contains (t.point p).kind

/-- Whether an optional index is NONE or names an in-use point of one of the kinds. -/
def Tables.optPointOf (t : Tables) (kinds : List PointKind) : Option Nat → Bool
  | some p => t.pointOf kinds p
  | none => true

/-- Whether an index names an in-use condition. -/
def Tables.condUsed (t : Tables) (c : Nat) : Bool := c < 32 && (t.cond c).inUse

/-- Whether an index names an in-use step. -/
def Tables.stepUsed (t : Tables) (k : Nat) : Bool := k < 96 && (t.step k).inUse

/-- Whether an index names an in-use sequence of a class. -/
def Tables.seqOf (t : Tables) (cls : SeqClass) (n : Nat) : Bool := n < 12 && (t.seq n).inUse && (t.seq n).cls = cls

/-- Whether an optional index is NONE or names an in-use sequence of a class. -/
def Tables.optSeqOf (t : Tables) (cls : SeqClass) : Option Nat → Bool
  | some n => t.seqOf cls n
  | none => true

/-- POINT (R2, R165): no lower in-use point has the same source and channel (log 22). -/
def pointCheck (t : Tables) (i : Nat) : Bool :=
  !(t.point i).inUse ||
    !(List.range i).any fun j =>
      (t.point j).inUse && (t.point j).source = (t.point i).source && (t.point j).channel = (t.point i).channel

/-- CONDITION (R21). -/
def condCheck (t : Tables) (i : Nat) : Bool :=
  let e := t.cond i
  !e.inUse ||
    match e.kind with
    | .above => t.pointOf [.temp, .draught, .flame, .level] e.point
    | .below => t.pointOf [.temp, .draught, .flame, .level] e.point
    | .contact => t.pointOf [.contact] e.point
    | .roleConfirmed => (t.role e.role).target != .none
    | .both => t.condUsed e.a && t.condUsed e.b && e.a < i && e.b < i
    | .either => t.condUsed e.a && t.condUsed e.b && e.a < i && e.b < i
    | .flueDraught => true
    | .flueBlocked => true
    | .flueSpill => true
    | .flueRise => true

/-- FLUE (R39). -/
def flueCheck (t : Tables) : Bool :=
  let f := t.flue
  t.optPointOf [.draught] f.draughtPt && t.optPointOf [.temp] f.fluePt && t.optPointOf [.temp] f.spillPt
    && t.optPointOf [.temp] f.roomPt && (f.spillPt.isNone || f.spillPt != f.roomPt) && f.dBlock < f.dReq
    && f.tCold < f.tWarm && f.rWarm ≤ f.rCold

/-- Whether a target is one of the lines OL0 to OL4 (R115). -/
def Target.fuelLine : Target → Bool
  | .line l => l ≤ 4
  | _ => false

/-- ROLE (R115). -/
def roleCheck (t : Tables) (r : Nat) : Bool :=
  let e := t.role r
  (e.target = .none || !(List.range r).any fun q => (t.role q).target = e.target)
    && (!(r < 3) || (e.kind = .switched && e.target.fuelLine))
    && (!(r = 0 || r = 1 || r = 2 || r = 4) || !e.ctlAllowed)

/-- Whether an output's LEVEL value is on a LEVEL role (R58 check 4, R99 check 2). -/
def levelFits (t : Tables) (r : Nat) (o : Output) : Bool := o.mode != .level || (t.role r).kind = .level

/-- The steps that a step names through `next` and GOTO (R58 check 2, R60 check 4). -/
def StepEntry.successors (e : StepEntry) : List Nat :=
  (match e.next with | .step k => [k] | .finish => [] | .hold => [])
    ++ (match e.onTimeout with | .goto k => [k] | .fault => [] | .none => [])

/-- STEP (R58). -/
def stepCheck (t : Tables) (k : Nat) : Bool :=
  let e := t.step k
  !e.inUse ||
    ((match e.proving with | some c => t.condUsed c | none => true)
      && e.supervision.all (fun v => t.condUsed v.cond)
      && e.successors.all t.stepUsed
      && (match e.call with | some n => n < 12 && (t.seq n).inUse | none => true)
      && (List.range 12).all (fun r => levelFits t r (e.output r))
      && (!((e.output 0).mode = .on || (e.output 1).mode = .on) || e.proving.isNone || 0 < e.maxDwell))

/-- The steps reachable from those of a work list, depth first; each step adds at most two (R60 check 4). -/
def reach (t : Tables) : Nat → List Nat → List Nat → List Nat
  | 0, _, seen => seen
  | _ + 1, [], seen => seen
  | n + 1, k :: rest, seen =>
    if seen.contains k then reach t n rest seen else reach t n ((t.step k).successors ++ rest) (k :: seen)

/-- Whether any step reachable from a step has fault class RECYCLE (R60 check 4). -/
def reachesRecycle (t : Tables) (k : Nat) : Bool :=
  (reach t 256 [k] []).any fun i => (t.step i).faultClass = .recycle

/-- Whether a class may be entered by its own trigger (R60 check 6). -/
def SeqClass.triggered : SeqClass → Bool
  | .frost => true
  | .protect => true
  | _ => false

/-- SEQUENCE (R60). -/
def seqCheck (t : Tables) (n : Nat) : Bool :=
  let e := t.seq n
  !e.inUse ||
    (t.stepUsed e.entryStep
      && (!e.cls.needsController || e.stopLink.isSome) && t.optSeqOf .stop e.stopLink
      && (!reachesRecycle t e.entryStep || e.recoveryLink.isSome) && t.optSeqOf .recovery e.recoveryLink
      && (match e.trigger with | some c => t.condUsed c && e.cls.triggered | none => true)
      && e.tracePoints.all (fun p => p < 24 && (t.point p).inUse))

/-- DEVICE (R60). -/
def deviceCheck (t : Tables) : Bool := t.seqOf .heat t.device.startSeq && t.seqOf .lockoutPurge t.device.lockoutSeq

/-- Whether a tier-1 place's LEVEL value is on a LEVEL role (R99 check 2). -/
def tierFits (t : Tables) : Option TierRole → Bool
  | some x => levelFits t x.role x.output
  | none => true

/-- CIRCUIT (R99). -/
def circuitCheck (t : Tables) (c : Nat) : Bool :=
  let e := t.circuit c
  !e.inUse || (t.pointOf [.temp] e.point && tierFits t e.tierA && tierFits t e.tierB && t.optSeqOf .frost e.tier2)

/-- The lowest index below `n` that fails a check. -/
def firstFailing (n : Nat) (check : Nat → Bool) : Option Nat := (List.range n).find? fun i => !check i

/-- The first failure of the cross-checks in the order of R165: table kind and index, or none. -/
def crossCheck (t : Tables) : Option (TableKind × Nat) :=
  ((firstFailing 24 (pointCheck t)).map fun i => (TableKind.point, i)).or <|
  ((firstFailing 32 (condCheck t)).map fun i => (TableKind.condition, i)).or <|
  ((firstFailing 1 fun _ => flueCheck t).map fun i => (TableKind.flue, i)).or <|
  ((firstFailing 12 (roleCheck t)).map fun i => (TableKind.role, i)).or <|
  ((firstFailing 96 (stepCheck t)).map fun i => (TableKind.step, i)).or <|
  ((firstFailing 12 (seqCheck t)).map fun i => (TableKind.sequence, i)).or <|
  ((firstFailing 1 fun _ => deviceCheck t).map fun i => (TableKind.device, i)).or <|
  ((firstFailing 6 (circuitCheck t)).map fun i => (TableKind.circuit, i))

/-! ### Writes (R150, R166) -/

/-- STORE_WRITE_START (R166): the image write begins, or waits for a persistence write in flight (R150). -/
def Store.startImage (x : Store) : Store :=
  { x with commit := if x.write.isSome then .waiting else .writing }

/-- A copy just written takes its place (R150). -/
def Store.putCopy (x : Store) (w : CopyWrite) : Store :=
  if w.target = 0 then { x with copy0 := some w.copy } else { x with copy1 := some w.copy }

/-- The write that follows a completed one (R150, R166, log 16): a waiting image write, else the further persistence
write that requests asked for. -/
def Store.nextWrite (x : Store) (d : LockoutData) : Store :=
  match x.commit with
  | .waiting => { x with commit := .writing }
  | _ => if x.again then Store.startWrite { x with again := false } d else x

/-- PERSISTENCE_WRITE_COMPLETE (R150): nothing when no write is in flight. -/
def writeCompleted (s : State) : State :=
  match s.store.write with
  | some w => s.setStore (((Store.putCopy { s.store with write := none } w)).nextWrite s.fault.data)
  | none => s

/-! ### Commit completion (R166) -/

/-- The store when the image write completes: the image valid, then a persistence write that waited (R150). -/
def Store.imageWritten (x : Store) (t : Tables) (d : LockoutData) : Store :=
  Store.nextWrite { x with image := some t, commit := .none } d

/-- The Sequence Unit at commit completion (R80, R92, R96): descriptors reset, no flags; demand and a purge due kept. -/
def SeqUnit.committed (u : SeqUnit) : SeqUnit :=
  { SeqUnit.reset with demand := u.demand, purgeDue := u.purgeDue }

/-- The units below the outputs under the new tables (R18, R35, R56, R80, R111). -/
def State.commitUnits (s : State) : State :=
  let s := { s with phase := .normal, tables := s.staging, store := s.store.imageWritten s.staging s.fault.data }
  let s := (s.emptyPoints.resetConds.setFlue FlueRun.reset).setSeq s.seq.committed
  s.rederiveCircuits

/-- The role a new table starts from (R125, R126): requested values kept, and 0 on leaving fallback mode. -/
def commitBase (old : State) (new : Tables) (r : Nat) : RoleRun :=
  if old.normal then commitRequest (new.role r) (old.role r) else RoleRun.reset

/-- A changed controller address makes a present controller ABSENT, with the consequences of R138 (R140). -/
def State.commitPresence (s : State) (oldAddr : Nat) : State :=
  if s.tables.device.ctlAddr ≠ oldAddr ∧ s.gate.present = true then
    (s.setGate { s.gate with present := false, absence := none }).setSeq { s.seq with demand := false }
  else s

/-- The state right after the store write (R166): every unit in its form for commit completion. -/
def State.committed (s : State) : State :=
  let t := s.commitUnits
  (t.installRoles (commitBase s t.tables) t.frostClaim (keepsMark s.tables t.tables)).commitPresence s.tables.device.ctlAddr

/-- COMMIT_COMPLETION (R166): the new state, the FROST notice of R111, the pass of R36, and what waits (R96). -/
def commitCompleted (s : State) : Work :=
  let w := (Work.idle s.committed).frostMoved (movedCircuits s s.committed)
  w.emit [.condWalk .all, .commitSequence]

/-! ### Device reset and power loss (R150, R151) -/

/-- The store after the supply has failed (R150, R166): what was being written fails its check. For a copy R150 also allows
one that is valid and is not the newer one (the model's choice, log 50). -/
def Store.lost (x : Store) : Store :=
  { image := if x.commit = .none then x.image else none
    copy0 := match x.write with | some w => if w.target = 0 then none else x.copy0 | none => x.copy0
    copy1 := match x.write with | some w => if w.target = 0 then x.copy1 else none | none => x.copy1
    write := none, again := false, commit := .none }

/-- The store after RESETN (log 8): a write in flight fails its check, leaves what stood, or completes, by the free
value `fate`; a commit that still waited has written nothing. -/
def Store.aborted (x : Store) (staging : Tables) (fate : Nat) : Store :=
  let none' : Store := { x with write := none, again := false, commit := .none }
  if fate % 3 = 0 then { x.lost with image := if x.commit = .writing then none else x.image }
  else if fate % 3 = 1 then none'
  else
    let y := if x.commit = .writing then { none' with image := some staging } else none'
    match x.write with
    | some w => y.putCopy w
    | none => y

/-- The lockout data restored: the newer valid copy, or the initial form (R151). -/
def Store.restored (x : Store) : LockoutData :=
  match x.newer with
  | some (_, c) => c.data
  | none => LockoutData.initial

/-- The writes of a reset that finds neither copy valid: copy 0, then copy 1 (R151). -/
def Store.rewrite (x : Store) : Store :=
  match x.newer with
  | some _ => x
  | none => { x.startWrite LockoutData.initial with again := true }

/-- The Fault Unit at device reset (R149, R151). -/
def restoredFault (d : LockoutData) : FaultUnit :=
  { record := none, data := d, regain := if d.allowance < 3 then some regainTime else none }

/-- The part after a device reset over a store (R151): every unit in its reset form, the pins as they stand. -/
def State.restarted (s : State) (x : Store) (adr : Nat) : State :=
  { State.reset with
    pending := s.pending, order := s.order, pins := s.pins, mgmtAddr := 56 + adr,
    fault := restoredFault x.restored, store := x.rewrite }

/-- The store that a device reset finds: as the power loss left it, or aborted in a powered part (R150, log 8). -/
def State.resetStore (s : State) : Store :=
  if s.phase = .off then s.store else s.store.aborted s.staging (Config.resetWriteFate s.clock)

/-- The part without supply (log 15): volatile state lost, lines dead; the store and the pins remain. -/
def State.unpowered (s : State) : State :=
  { State.reset with
    pending := s.pending, order := s.order, pins := s.pins, mgmtAddr := s.mgmtAddr, phase := .off,
    store := s.store.lost }

/-! ### The power-on image check (R167) -/

/-- The units below the outputs in the form their chapters give for device reset (R18, R35, R56, R80, R112). -/
def State.freshUnits (s : State) : State :=
  { (s.emptyPoints.resetConds.setFlue FlueRun.reset).setSeq SeqUnit.reset with
    circuits := List.replicate 6 CircuitRun.reset }

/-- CRC good: the image becomes the active tables and the staging image, and the outputs start (R126, R167). -/
def State.activated (s : State) (t : Tables) : State :=
  let s := { s.freshUnits with phase := .normal, tables := t, staging := t }
  s.installRoles (fun _ => RoleRun.reset) s.frostClaim (fun _ => false)

/-- FALLBACK_MODE_ENTRY (R125, R167): tables in the initial form, OL5 to OL7 ON. -/
def State.fallen (s : State) : State :=
  ({ s.freshUnits with phase := .fallback, tables := Tables.initial, staging := Tables.initial } : State).fallbackLines

/-- TABLE_INVALID (R167): code 69, class NOTICE, NONE and NONE. -/
def tableInvalid : FaultIn := { code := 69, cls := .notice, seq := none, step := none, line := none }

/-- POWER_ON_IMAGE_CHECK (R167). -/
def imageChecked (s : State) : Work :=
  match s.store.image with
  | some t => (Work.idle (s.activated t)).emit [.condWalk .all]
  | none => (Work.idle s.fallen).push [.takeFault tableInvalid]

end Sys2Proof.Machine
end

