-- ==== Sys2Proof/Machine/Handler.lean ====
section
/-! DEFINITION. The management handler (chapters 11 and 12): the requests of Table 39 with their replies, the runtime parts
of READ, the status pages, and the whole control-segment arrival. -/

namespace Sys2Proof.Machine

/-! ### Runtime parts of READ (R17, R37, R55, R79, R113, R127, Table 44) -/

/-- POINT part 2. -/
def pointRunBytes (r : PointRun) : List Byte :=
  [flagByte [r.raw.isSome, r.value.isSome, r.filtered.isSome]] ++ optU16 r.raw ++ optI16 r.value ++ optI16 r.filtered
    ++ [u8 (codeOf Quality.all r.quality), u8 r.age]

/-- The remaining hold time in deciseconds, absent while the timer is stopped (R37). -/
def holdLeft (hold : Nat) (c : CondRun) : Option Nat := c.timer.map fun t => hold - t

/-- CONDITION part 1. -/
def condRunBytes (hold : Nat) (c : CondRun) : List Byte :=
  [flagByte [(holdLeft hold c).isSome], u8 c.raw.code, u8 c.held.code] ++ optU16 (holdLeft hold c)

/-- The four flue values (R168's order). -/
def flueValueBytes (f : FlueRun) : List Byte :=
  [FlueKind.draught, .blocked, .spill, .rise].map fun k => u8 (f.value k).code

/-- FLUE part 2. -/
def flueWindowBytes (f : FlueRun) : List Byte :=
  [u8 f.window.length] ++ padTo 16 0 (f.window.map i16).flatten ++ flueValueBytes f

/-- FLUE part 3; the timer is absent unless ARMED (R55). -/
def flueRunBytes (f : FlueRun) : List Byte :=
  let left := f.riseTimer.map secondsLeft
  [flagByte [f.baseline.isSome, f.required.isSome, left.isSome, f.allowance.isSome, f.allowanceFrom.isSome],
    u8 (codeOf RiseState.all f.rise)] ++ optI16 f.baseline ++ optU16 f.required ++ optU16 left ++ optU16 f.allowance
    ++ optI16 f.allowanceFrom

/-- SEQUENCE part 1 (R61, R97). -/
def seqRunBytes (s : State) (n : Nat) : List Byte :=
  let c := (s.seqRun n).saved
  let a := c.bind Saved.allowance
  [flagByte [s.active n, (s.returnLink n).isSome], indexByte (s.returnLink n), flagByte [c.isSome],
    u8 ((c.map Saved.step).getD 0)] ++ optU16 (c.map Saved.elapsed) ++ [flagByte [a.isSome]] ++ optU16 a
    ++ [u8 (s.seqRun n).recycle]

/-- CIRCUIT part 1 (R113). -/
def circuitRunBytes (c : CircuitRun) : List Byte :=
  u24 c.debt ++ [u8 (codeOf Stage.all c.stage), flagByte [c.blocked], flagByte [c.last.isSome]]
    ++ optI16 (c.last.map Prod.fst) ++ [u8 ((c.last.map fun d => codeOf DeficitSource.all d.2).getD 0)]

/-- The flags of ROLE part 1: the line's flags are 0 for a role without a line (log 19). -/
def roleFlags (s : State) (r : Nat) : Byte :=
  match (s.tables.role r).target with
  | .line l =>
    flagByte [(s.role r).since, (s.role r).heard.isSome, (s.line l).commanded, s.sense l, (s.line l).settle.isNone,
      (s.line l).mismatch]
  | _ => flagByte [(s.role r).since, (s.role r).heard.isSome]

/-- ROLE part 1 (R127). -/
def roleRunBytes (s : State) (r : Nat) : List Byte :=
  let x := s.role r
  let left := x.confirm.map secondsLeft
  [u8 (codeOf Claimant.all x.owner)] ++ u16 x.applied ++ u16 x.requested ++ [flagByte [x.actual.isSome, left.isSome]]
    ++ optU16 x.actual ++ [roleFlags s r, u8 (left.getD 0)]

/-- The runtime part `p` (numbered from 0 after the loaded parts) of an active entry (12.3). -/
def runtimePart (s : State) (kind : TableKind) (i p : Nat) : List Byte :=
  match kind with
  | .point => pointRunBytes (s.point i)
  | .condition => condRunBytes (s.tables.cond i).hold (s.cond i)
  | .flue => if p = 0 then flueWindowBytes s.flue else flueRunBytes s.flue
  | .step => []
  | .sequence => seqRunBytes s i
  | .circuit => circuitRunBytes (s.circuit i)
  | .role => roleRunBytes s i
  | .device => []

/-- The bytes a READ answers with (R163, Table 44). -/
def readBytes (s : State) (active : Bool) (kind : TableKind) (i p : Nat) : List Byte :=
  if active then
    if p < kind.partLengths.length then entryPart s.tables kind i p
    else runtimePart s kind i (p - kind.partLengths.length)
  else entryPart s.staging kind i p

/-! ### Status pages (Table 46) -/

/-- Sequence Unit state codes, in the order of R82: IDLE, RUNNING, LOCKED_PURGE, LOCKED. -/
def State.unitState (s : State) : Nat :=
  match s.locked, s.seq.chain.isEmpty with
  | false, true => 0
  | false, false => 1
  | true, false => 2
  | true, true => 3

/-- The elapsed dwell a chain member shows: the running one of the top, the saved one of the others (R79). -/
def State.memberElapsed (s : State) (i : Nat) : Option Nat :=
  if s.top = some i then s.seq.running.map Running.elapsed else (s.seqRun i).saved.map Saved.elapsed

/-- A chain member on page 0. -/
def State.memberStatus (s : State) (i : Nat) : List Byte :=
  [u8 i, indexByte (s.memberStep i)] ++ optU16 (s.memberElapsed i) ++ [u8 (s.seqRun i).recycle]

/-- A place of page 0 that no member fills (log 19). -/
def emptyMember : List Byte := [255, 255, 0, 0, 0]

/-- Page 0. -/
def statusChain (s : State) : List Byte :=
  [u8 s.unitState, u8 (bit s.committing),
    flagByte [s.phase = .fallback, s.seq.demand, s.gate.present, s.pins.limitClosed, s.seq.purgeDue],
    u8 s.seq.chain.length]
    ++ (((s.seq.chain.map s.memberStatus) ++ List.replicate 4 emptyMember).take 4).flatten

/-- Bits of a two-byte field, index 0 in bit 0, sent high byte first. -/
def bitField (bs : List Bool) : List Byte := u16 (bs.foldr (fun b n => bit b + 2 * n) 0)

/-- A byte of trigger sources: circuits F0 to F5 in bits 0 to 5, the own condition in bit 7 (page 1). -/
def triggerByte (t : Trigger) : Byte :=
  flagByte ((List.range 6).map (fun c => t.circuits.getD c false) ++ [false, t.own])

/-- Page 1. -/
def statusTriggers (s : State) : List Byte :=
  [flagByte [s.seq.running.isSome]] ++ optU16 (s.seq.running.map Running.minDwell)
    ++ optU16 (s.seq.running.map Running.maxDwell) ++ [flagByte [(s.seq.running.map Running.hold).getD false]]
    ++ bitField ((List.range 12).map fun n => (s.trigger n).stands) ++ (List.range 12).map fun n => triggerByte (s.trigger n)

/-- Page 2. -/
def statusGate (s : State) : List Byte :=
  let left := s.gate.absence.map secondsLeft
  [flagByte [left.isSome], u8 (left.getD 0)] ++ flueValueBytes s.flue ++ [u8 (codeOf RiseState.all s.flue.rise)]
    ++ s.circuitStages ++ [u8 s.gate.up.length, u8 s.gate.down.length, u8 s.gate.reply.length]
    ++ [flagByte (NoticeKind.all.map fun k => (s.notice k).flag)]
    ++ bitField ((List.range 12).map fun r => match s.slot r with | some x => x.pending | none => false)

/-- Owner and applied value of a role (R127). -/
def ownerBytes (s : State) (r : Nat) : List Byte := [u8 (codeOf Claimant.all (s.role r).owner)] ++ u16 (s.role r).applied

/-- Page 3. -/
def statusRolesLow (s : State) : List Byte := ((List.range 8).map (ownerBytes s)).flatten

/-- Page 4. -/
def statusRolesHigh (s : State) : List Byte :=
  ([8, 9, 10, 11].map (ownerBytes s)).flatten
    ++ [flagByte ((List.range 8).map fun l => (s.line l).commanded), flagByte ((List.range 8).map s.sense)]

/-- Page 5. -/
def statusLockout (s : State) : List Byte :=
  let left := s.fault.regain.map secondsLeft
  [flagByte [left.isSome, s.trace.opened.isSome], u8 (bit s.locked)] ++ u16 s.fault.data.number
    ++ [u8 s.fault.data.allowance] ++ optU16 left ++ u16 s.trace.pos
    ++ [flagByte [s.trace.ready0, s.trace.ready1, s.trace.hold, (s.trace.opened.bind OpenRecord.ended).isSome]]
    ++ u16 s.trace.gap ++ [u8 ((s.trace.opened.map OpenRecord.number).getD 0)]

/-- A status page (Table 46). -/
def statusPage (s : State) (page : Nat) : List Byte :=
  match page with
  | 0 => statusChain s
  | 1 => statusTriggers s
  | 2 => statusGate s
  | 3 => statusRolesLow s
  | 4 => statusRolesHigh s
  | 5 => statusLockout s
  | 6 => faultBytes s.fault.record
  | n => optHistoryBytes s.fault.data.history[n - 7]?

/-! ### Replies -/

/-- A reply appended by the event that took the request (R133). -/
def Work.answer (w : Work) (dst : Byte) (r : Result) : Work := w.withSt (w.st.reply dst r)

/-- A refusal with a reason and nothing more. -/
def refusedFor (reason : Nat) : Result := .refused reason []

/-- OK with no data. -/
def okEmpty : Result := .ok []

/-! ### LOAD, DISCARD, COMMIT (R164, R165) -/

/-- The last part: the whole entry checked and staged (R164). -/
def finishLoad (s : State) (a : Assembly) : State × Result :=
  let s' := { s with assembly := none }
  match stageEntry s.staging a.kind a.index a.fields with
  | some t => ({ s' with staging := t }, okEmpty)
  | none => (s', .badRequest)

/-- A part taken into an assembly: the entry is finished with its last part (R164). -/
def takePart (s : State) (a : Assembly) : State × Result :=
  if a.nextPart < a.kind.partLengths.length then ({ s with assembly := some a }, okEmpty) else finishLoad s a

/-- LOAD (R164): part 0 begins an assembly; a later part must be the next one expected. -/
def doLoad (kind : TableKind) (index part : Nat) (fields : List Byte) (s : State) : State × Result :=
  if part = 0 then takePart s { kind := kind, index := index, nextPart := 1, fields := fields }
  else
    match s.assembly with
    | some a =>
      if a.kind = kind ∧ a.index = index ∧ a.nextPart = part then
        takePart s { a with nextPart := part + 1, fields := a.fields ++ fields }
      else ({ s with assembly := none }, .badRequest)
    | none => ({ s with assembly := none }, .badRequest)

/-- DISCARD (R163). -/
def doDiscard (s : State) : State × Result := ({ s with staging := s.tables, assembly := none }, okEmpty)

/-- COMMIT (R165): an empty chain, the cross-checks, then COMMITTING. -/
def doCommit (s : State) : State × Result :=
  if !s.seq.chain.isEmpty then (s, refusedFor reasonChainBusy)
  else
    match crossCheck s.staging with
    | some (kind, i) => (s, .refused reasonCheckFailed [u8 (codeOf TableKind.all kind), u8 i])
    | none => (({ s with assembly := none } : State).setStore s.store.startImage, okEmpty)

/-! ### Demand, service, roles (R75, R78, R117) -/

/-- DEMAND ON (R75): the flag set, demand examined; OK when `start_sequence` is entered or HEAT is on the chain. -/
def doDemandOn (dst : Byte) (w : Work) : Work :=
  let w := w.withSt (w.st.setSeq { w.st.seq with demand := true })
  let entered := w.st.demandServed && (w.st.switchCheck w.st.tables.device.startSeq .demand).isNone
  actExamineDemand (w.answer dst (if entered || w.st.heatOnChain then okEmpty else .deferred))

/-- Whether the top is a HEAT sequence. -/
def State.heatTop (s : State) : Bool :=
  match s.top with
  | some t => (s.tables.seq t).cls = .heat
  | none => false

/-- DEMAND OFF (R75): the flag cleared; DEFERRED when a HEAT sequence is suspended. -/
def doDemandOff (dst : Byte) (w : Work) : Work :=
  clearDemand false (w.answer dst (if w.st.heatTop || !w.st.heatOnChain then okEmpty else .deferred))

/-- RUN (R78): the switch checks with the cause "run", then an empty chain. -/
def doRun (dst : Byte) (n : Nat) (w : Work) : Work :=
  if w.st.phase = .fallback then w.answer dst (refusedFor reasonNotInUse)
  else
    match w.st.switchCheck n .run with
    | some r => w.answer dst (refusedFor r.reason)
    | none =>
      if w.st.seq.chain.isEmpty then doEnter n .run (w.answer dst okEmpty) else w.answer dst (refusedFor reasonChainBusy)

/-- Whether a class may be left by STOP: HEAT and SERVICE (R78). -/
def SeqClass.stoppable (c : SeqClass) : Bool := c.needsController

/-- STOP with a HEAT or SERVICE top `t` (R78). -/
def stopTop (dst : Byte) (t : Nat) (w : Work) : Work :=
  match (w.st.tables.seq t).stopLink, w.st.switchCheckOpt (w.st.tables.seq t).stopLink .stopLink with
  | some n, none => doEnter n .stopLink (w.answer dst okEmpty)
  | _, some r => w.answer dst (refusedFor r.reason)
  | none, none => w.answer dst (refusedFor reasonNotInUse)

/-- STOP (R78). -/
def doStop (dst : Byte) (w : Work) : Work :=
  if w.st.phase = .fallback then w.answer dst (refusedFor reasonNotInUse)
  else
    match w.st.top with
    | some t =>
      if (w.st.tables.seq t).cls.stoppable then stopTop dst t w else w.answer dst (refusedFor reasonNotPermitted)
    | none => w.answer dst (refusedFor reasonNotPermitted)

/-- The reply to SET ROLE (R117, Table 39). -/
def Answer.result : Answer → Result
  | .unrouted => refusedFor reasonNotInUse
  | .notPermitted _ => refusedFor reasonNotPermitted
  | .held _ => .held
  | .forward _ _ => .applied

/-- An applied SET ROLE places a substitution for a field role, also when the applied value was the same before (R117,
log 20). -/
def Answer.place (a : Answer) (w : Work) : Work :=
  match a with
  | .forward r v => w.withSt (w.st.placeSub r v)
  | _ => w

/-- SET ROLE (R117); the role table is inactive in fallback mode (R125). -/
def doSetRole (dst : Byte) (r v : Nat) (w : Work) : Work :=
  if w.st.phase = .fallback then w.answer dst (refusedFor reasonNotInUse)
  else
    let a := referRole false r v w
    (a.1.place a.2).answer dst a.1.result

/-- UNLOCK (R147). -/
def doUnlock (dst : Byte) (w : Work) : Work :=
  match w.st.unlockRefusal with
  | some r => w.answer dst (refusedFor r)
  | none => acceptUnlock (w.answer dst okEmpty)

/-! ### Trace requests (R158) -/

/-- TRACE READ: `count` entries from `index`. -/
def traceReadBytes (s : State) (index count : Nat) : List Byte :=
  ((List.range count).map fun i => traceBytes (s.trace.mem.getD (index + i) TraceEntry.empty)).flatten

/-- TRACE RELEASE: the flag cleared and the writer resumed, or NOT_READY. -/
def doRelease (dst : Byte) (half : Nat) (w : Work) : Work :=
  if w.st.trace.ready half then (w.answer dst okEmpty).release half
  else w.answer dst (refusedFor reasonNotReady)

/-! ### The handler (R133, R163) -/

/-- The requests that are answered as usual during a store write (Table 39). -/
def Request.always : Request → Bool
  | .read _ _ _ _ => true
  | .status _ => true
  | .traceRead _ _ => true
  | .traceRelease _ => true
  | _ => false

/-- A change of state with its result, answered. -/
def answerWith (dst : Byte) (r : State × Result) (w : Work) : Work := (w.withSt r.1).answer dst r.2

/-- A request taken (Table 39). -/
def perform (dst : Byte) (q : Request) (w : Work) : Work :=
  match q with
  | .load kind i p fields => answerWith dst (doLoad kind i p fields w.st) w
  | .read active kind i p => w.answer dst (.ok (readBytes w.st active kind i p))
  | .discard => answerWith dst (doDiscard w.st) w
  | .commit => answerWith dst (doCommit w.st) w
  | .demandOn => doDemandOn dst w
  | .demandOff => doDemandOff dst w
  | .run n => doRun dst n w
  | .stop => doStop dst w
  | .setRole r v => doSetRole dst r v w
  | .unlock => doUnlock dst w
  | .status page => w.answer dst (.ok (statusPage w.st page))
  | .traceRead i n => w.answer dst (.ok (traceReadBytes w.st i n))
  | .traceRelease half => doRelease dst half w

/-- A request that R163 and R169 turn away: BAD_REQUEST; a LOAD so refused drops the assembly (R169). -/
def badRequest (dst : Byte) (sub : Nat) (w : Work) : Work :=
  (if sub = 1 then w.withSt { w.st with assembly := none } else w).answer dst .badRequest

/-- The management handler (R163): BAD_REQUEST, then BUSY during a store write, then the request. During a store write a
LOAD with a bad kind, part byte or length is thus BAD_REQUEST, and one whose index or fields fail only at the last part is
BUSY (the model's choice between R163 and R164, log 53). -/
def handle (dst : Byte) (sub : Nat) (payload : List Byte) (w : Work) : Work :=
  match readRequest sub payload with
  | none => badRequest dst sub w
  | some q => if w.st.committing && !q.always then w.answer dst .busy else perform dst q w

/-- The sub-code of a kind byte: its low four bits (R168). -/
def subCode (kind : Byte) : Nat := kind.toNat % 16

/-- A MANAGE frame to the management address (R133). -/
def manageFrame (f : Frame) (w : Work) : Work :=
  if 4 ≤ w.st.gate.reply.length then w
  else if !w.st.fromController f.src then w.answer f.src (refusedFor reasonNotController)
  else handle f.src (subCode f.kind) f.payload w

/-- Whether a frame is a MANAGE frame to the management address (Table 36). -/
def State.isRequest (s : State) (f : Frame) : Bool := frameKind f.kind = .manage && f.dst.toNat = s.mgmtAddr

/-- A frame from the control segment (R128): presence first, then Table 36. -/
def controlArrival (f : Frame) (w : Work) : Work :=
  let w := w.withSt (w.st.seeSource f.src)
  if w.st.isRequest f then manageFrame f w else controlOther f w

/-- The MANAGE frame that carries a request to the part (Tables 40 and 42). -/
def requestFrame (s : State) (src : Byte) (sub : Nat) (payload : List Byte) : Frame :=
  { src := src, dst := u8 s.mgmtAddr, kind := kindByte 4 sub, payload := payload }

/-- A request received from the control segment, to its end. -/
def request (src : Byte) (sub : Nat) (payload : List Byte) (s : State) : Host.Outcome State Fault Refusal :=
  finish (receive .control (requestFrame s src sub payload) controlArrival s)

end Sys2Proof.Machine
end

