-- ==== Sys2Proof/Machine/Link.lean ====
section
/-! DEFINITION. The meanings of the port and frame commands. -/

namespace Sys2Proof.Machine

/-- FRAME_RECEIVE_DISCARD (R160). -/
def execFrameReceiveDiscard (p : Port) (bytes : List Byte) (ending : ReceptionEnd) (s : State) :
    Host.Outcome State Fault Refusal := finishState (s.discardFrame p bytes ending)

/-- TRANSMIT_START (R161). -/
def execTransmitStart (p : Port) (s : State) : Host.Outcome State Fault Refusal := finishState (s.transmitStart p)

/-- ARBITRATION_LOST (R161): to a lower source address, while the port sends. -/
def execArbitrationLost (p : Port) (winner : Byte) (s : State) : Host.Outcome State Fault Refusal :=
  finishState (if (s.port p).sending && s.losesTo p winner then s.stopSending p else s)

/-- COLLISION (R161): a differing bit after the source byte, while the port sends. -/
def execCollision (p : Port) (s : State) : Host.Outcome State Fault Refusal :=
  finishState (if (s.port p).sending then s.stopSending p else s)

/-- FRAME_SENT (R161). -/
def execFrameSent (p : Port) (s : State) : Host.Outcome State Fault Refusal := finishState (s.frameSent p)

/-- QUIET_INTERVAL (R160). -/
def execQuietInterval (p : Port) (s : State) : Host.Outcome State Fault Refusal := finishState (s.quiet p)

/-- CONTROL_FRAME (R128). -/
def execControlFrame (f : Frame) (s : State) : Host.Outcome State Fault Refusal :=
  finish (receive .control f controlArrival s)

/-- DRIVE_INTERCEPTION (R130): the DRIVE frame, taken as any frame of the control segment. -/
def execDriveInterception (src dst : Byte) (sub : BitVec 4) (payload : List Byte) (s : State) :
    Host.Outcome State Fault Refusal :=
  finish (receive .control { src := src, dst := dst, kind := kindByte 3 sub.toNat, payload := payload } controlArrival s)

/-- LINKRESET (R139): a LINKRESET frame to 0. -/
def execLinkreset (src : Byte) (sub : BitVec 4) (s : State) : Host.Outcome State Fault Refusal :=
  finish (receive .control { src := src, dst := 0, kind := kindByte 7 sub.toNat, payload := [] } controlArrival s)

/-- FIELD_FRAME (R129). -/
def execFieldFrame (f : Frame) (s : State) : Host.Outcome State Fault Refusal :=
  finish (receive .field f fieldArrival s)

/-- SAMPLE (R5, R129). -/
def execSample (src dst : Byte) (sub : BitVec 4) (payload : List Byte) (s : State) : Host.Outcome State Fault Refusal :=
  finish (receive .field { src := src, dst := dst, kind := kindByte 1 sub.toNat, payload := payload } fieldArrival s)

/-- STATE (R123, R129). -/
def execState (src dst : Byte) (sub : BitVec 4) (payload : List Byte) (s : State) : Host.Outcome State Fault Refusal :=
  finish (receive .field { src := src, dst := dst, kind := kindByte 2 sub.toNat, payload := payload } fieldArrival s)

end Sys2Proof.Machine
end

