-- ==== Sys2Proof/Machine/Management.lean ====
section
/-! DEFINITION. The meanings of the management commands: each is the MANAGE frame that carries the request, received from
the control segment (R128, R133, R163). -/

namespace Sys2Proof.Machine

/-- LOAD (R164). -/
def execLoad (src kind index part : Byte) (fields : List Byte) (s : State) : Host.Outcome State Fault Refusal :=
  request src 1 (kind :: index :: part :: fields) s

/-- READ (R163). -/
def execRead (src image kind index part : Byte) (s : State) : Host.Outcome State Fault Refusal :=
  request src 2 [image, kind, index, part] s

/-- DISCARD (R163). -/
def execDiscard (src : Byte) (s : State) : Host.Outcome State Fault Refusal := request src 3 [] s

/-- COMMIT (R165). -/
def execCommit (src : Byte) (s : State) : Host.Outcome State Fault Refusal := request src 4 [] s

/-- DEMAND ON (R75). -/
def execDemandOn (src : Byte) (s : State) : Host.Outcome State Fault Refusal := request src 5 [] s

/-- DEMAND OFF (R75). -/
def execDemandOff (src : Byte) (s : State) : Host.Outcome State Fault Refusal := request src 6 [] s

/-- RUN (R78). -/
def execRun (src seq : Byte) (s : State) : Host.Outcome State Fault Refusal := request src 7 [seq] s

/-- STOP (R78). -/
def execStop (src : Byte) (s : State) : Host.Outcome State Fault Refusal := request src 8 [] s

/-- SET ROLE (R117). -/
def execSetRole (src role : Byte) (value : Word) (s : State) : Host.Outcome State Fault Refusal :=
  request src 9 (role :: u16 value.toNat) s

/-- UNLOCK (R147). -/
def execUnlock (src : Byte) (s : State) : Host.Outcome State Fault Refusal := request src 10 [] s

/-- STATUS (R163). -/
def execStatus (src page : Byte) (s : State) : Host.Outcome State Fault Refusal := request src 11 [page] s

/-- TRACE READ (R158). -/
def execTraceRead (src : Byte) (index : Word) (count : Byte) (s : State) : Host.Outcome State Fault Refusal :=
  request src 12 (u16 index.toNat ++ [count]) s

/-- TRACE RELEASE (R158). -/
def execTraceRelease (src half : Byte) (s : State) : Host.Outcome State Fault Refusal := request src 13 [half] s

end Sys2Proof.Machine
end

