-- ==== Sys2Proof/Machine/Power.lean ====
section
/-! DEFINITION. The meanings of the power and store commands. -/

namespace Sys2Proof.Machine

/-- DEVICE_RESET (R151, R162): from any state; ADR1:ADR0 reads 0 to 3. -/
def execDeviceReset (adr : Nat) (s : State) : Host.Outcome State Fault Refusal :=
  .next (if adr < 4 then s.restarted s.resetStore adr else s)

/-- POWER_ON_IMAGE_CHECK (R167): the completion of the check that a device reset started. -/
def execPowerOnImageCheck (s : State) : Host.Outcome State Fault Refusal :=
  if s.phase = .checking then finish (imageChecked s) else finishState s

/-- PERSISTENCE_WRITE_COMPLETE (R150). -/
def execPersistenceWriteComplete (s : State) : Host.Outcome State Fault Refusal := finishState (writeCompleted s)

/-- COMMIT_COMPLETION (R166): the completion of an image write in flight. -/
def execCommitCompletion (s : State) : Host.Outcome State Fault Refusal :=
  if s.store.commit = .writing then finish (commitCompleted s) else finishState s

/-- POWER_LOSS (R150, R166). -/
def execPowerLoss (s : State) : Host.Outcome State Fault Refusal := .next (if s.powered then s.unpowered else s)

end Sys2Proof.Machine
end

