-- ==== Sys2Proof/Machine/Inputs.lean ====
section
/-! DEFINITION. The meanings of the input commands: IN2 and IN3, the sense inputs, LIMIT and UNLOCK. -/

namespace Sys2Proof.Machine

/-- The level of a general input. -/
def State.inputHigh (s : State) (i : GeneralInput) : Bool :=
  match i with
  | .in2 => s.pins.in2High
  | .in3 => s.pins.in3High

/-- A general input at a level. -/
def State.setInput (s : State) (i : GeneralInput) (high : Bool) : State :=
  match i with
  | .in2 => s.setPins { s.pins with in2High := high }
  | .in3 => s.setPins { s.pins with in3High := high }

/-- The samples of both inputs as they stand (R6), that of IN2 taken first (the model's choice, log 47). -/
def inputSamples (s : State) : List Act := [sampleInput .in2 s.pins.in2High, sampleInput .in3 s.pins.in3High]

/-- INPUT_LEVEL_CHANGE (R6): both inputs are sampled "at every change of either level", each sample a reading. -/
def execInputLevelChange (i : GeneralInput) (high : Bool) (s : State) : Host.Outcome State Fault Refusal :=
  if s.inputHigh i = high then finishState s
  else finish ((Work.idle (s.setInput i high)).emit (inputSamples (s.setInput i high)))

/-- SENSE_CHANGE (R119). -/
def execSenseChange (line : Nat) (on : Bool) (s : State) : Host.Outcome State Fault Refusal :=
  if line < 8 then finish (senseChanged line on (Work.idle s)) else finishState s

/-- Whether any of roles 0 to 2 is applied ON (R120). -/
def State.fuelOn (s : State) : Bool := (List.range 3).any fun r => (s.role r).applied != 0

/-- LIMIT_OPEN (R120), device code 64, with the class the state just before the opening gives. -/
def State.limitFault (s : State) : FaultIn :=
  s.outputFault 64 (if s.fuelOn || !s.seq.chain.isEmpty then .lockout else .notice) none

/-- The LIMIT input at a level. -/
def State.setLimit (s : State) (closed : Bool) : State := s.setPins { s.pins with limitClosed := closed }

/-- The opening of LIMIT in a part that serves (R120): the slots filled, then the fault; its hand-offs in the order of
log 3. -/
def limitOpened (s : State) : Work :=
  let w := applyLimit (Work.idle (s.setLimit false))
  { w with emitted := arrange s.order w.emitted [] [.takeFault s.limitFault] }

/-- LIMIT_OPENING (R120). -/
def execLimitOpening (s : State) : Host.Outcome State Fault Refusal :=
  if s.pins.limitClosed then (if s.serving then finish (limitOpened s) else finishState (s.setLimit false))
  else finishState s

/-- LIMIT_CLOSING (R120): the slots emptied. -/
def execLimitClosing (s : State) : Host.Outcome State Fault Refusal :=
  if s.pins.limitClosed then finishState s else finish (applyLimit (Work.idle (s.setLimit true)))

/-- Whether the UNLOCK input stands at its active level (R121): low while no device setting governs, before the end of
the image check and without supply (the model's choice, log 37). -/
def State.unlockActive (s : State) : Bool := s.pins.unlockHigh = s.tables.device.unlockHigh

/-- The UNLOCK input moved to its active or inactive level, under the setting that unlockActive reads (log 37). -/
def State.setUnlock (s : State) (active : Bool) : State :=
  s.setPins { s.pins with unlockHigh := if active then s.tables.device.unlockHigh else !s.tables.device.unlockHigh }

/-- An active edge as an unlock request (R121, R147): a refusal raises an UNLOCK notice. -/
def edgeRequest (s : State) : Work :=
  match s.unlockRefusal with
  | some r => (Work.idle s).withSt (s.raiseNotice .unlock (s.unlockContent r))
  | none => acceptUnlock (Work.idle s)

/-- UNLOCK_EDGE (R121): the input goes from its inactive to its active level. -/
def execUnlockEdge (s : State) : Host.Outcome State Fault Refusal :=
  if s.unlockActive then finishState s
  else if s.serving then finish (edgeRequest (s.setUnlock true)) else finishState (s.setUnlock true)

/-- UNLOCK_INPUT_LEAVES_ACTIVE_LEVEL (R121): the next active edge can occur. -/
def execUnlockInputLeavesActiveLevel (s : State) : Host.Outcome State Fault Refusal :=
  finishState (s.setUnlock false)

end Sys2Proof.Machine
end

