-- ==== Sys2Proof/Machine/Timers.lean ====
section
/-! DEFINITION. The meanings of the timer commands. An expiry, and the minimum-dwell mark, happen only when their timer
stands at its end; the two second marks are the marks themselves (log 2). -/

namespace Sys2Proof.Machine

/-- Work that begins with one action of a unit. -/
def startWith (s : State) (acts : List Act) : Work := (Work.idle s).push acts

/-- POINT_SECOND_MARK (R6, R12): the samples of IN2 and IN3 first, then the age advance, within the mark's event. -/
def execPointSecondMark (s : State) : Host.Outcome State Fault Refusal :=
  if s.powered then finish (startWith { s with pointTimer := 0 } (inputSamples s ++ [.ageMark])) else finishState s

/-- HOLD_EXPIRY (R32). -/
def execHoldExpiry (c : Nat) (s : State) : Host.Outcome State Fault Refusal :=
  if c < 32 then finish (startWith s [.condWalk (.hold c)]) else finishState s

/-- RISE_WINDOW_EXPIRY (R51). -/
def execRiseWindowExpiry (s : State) : Host.Outcome State Fault Refusal :=
  if s.normal then finish ((Work.idle s).setFlue (expiredFlue s.flue)) else finishState s

/-- MIN_DWELL_MARK (R64). -/
def execMinDwellMark (s : State) : Host.Outcome State Fault Refusal := finish (startWith s [.minMark])

/-- MAX_DWELL_EXPIRY (R67). -/
def execMaxDwellExpiry (s : State) : Host.Outcome State Fault Refusal := finish (startWith s [.maxExpiry])

/-- FROST_SECOND_MARK (R101). -/
def execFrostSecondMark (s : State) : Host.Outcome State Fault Refusal :=
  if s.powered then finish (frostMark (Work.idle { s with frostTimer := 0 })) else finishState s

/-- REFRESH_EXPIRY (R122). -/
def execRefreshExpiry (r : Nat) (s : State) : Host.Outcome State Fault Refusal := finishState (refreshExpired r s)

/-- CONFIRM_EXPIRY (R124). -/
def execConfirmExpiry (r : Nat) (s : State) : Host.Outcome State Fault Refusal :=
  finish (confirmExpired r (Work.idle s))

/-- HEARD_TIMER_EXPIRY (R123). -/
def execHeardTimerExpiry (r : Nat) (s : State) : Host.Outcome State Fault Refusal := finishState (heardExpired r s)

/-- SETTLE_EXPIRY (R119). -/
def execSettleExpiry (l : Nat) (s : State) : Host.Outcome State Fault Refusal :=
  finish (settleExpired l (Work.idle s))

/-- ABSENCE_TIMER_EXPIRY (R138). -/
def execAbsenceTimerExpiry (s : State) : Host.Outcome State Fault Refusal := finish (absenceExpired (Work.idle s))

/-- REGAIN_EXPIRY (R149). -/
def execRegainExpiry (s : State) : Host.Outcome State Fault Refusal := finishState (regained s)

end Sys2Proof.Machine
end

