-- ==== Sys2Proof/Machine/Dispatch.lean ====
section
/-! DEFINITION. One arm per command: the effect of a command on everything but the queue. -/

namespace Sys2Proof.Machine

def exec (i : Instr) (s : State) : Host.Outcome State Fault Refusal :=
  match i with
  | .deviceReset adr => Sys2Proof.Machine.execDeviceReset adr s
  | .powerOnImageCheck => Sys2Proof.Machine.execPowerOnImageCheck s
  | .frameReceiveDiscard port bytes ending => Sys2Proof.Machine.execFrameReceiveDiscard port bytes ending s
  | .transmitStart port => Sys2Proof.Machine.execTransmitStart port s
  | .arbitrationLost port winner => Sys2Proof.Machine.execArbitrationLost port winner s
  | .collision port => Sys2Proof.Machine.execCollision port s
  | .frameSent port => Sys2Proof.Machine.execFrameSent port s
  | .controlFrame f => Sys2Proof.Machine.execControlFrame f s
  | .driveInterception src dst sub payload => Sys2Proof.Machine.execDriveInterception src dst sub payload s
  | .linkreset src sub => Sys2Proof.Machine.execLinkreset src sub s
  | .fieldFrame f => Sys2Proof.Machine.execFieldFrame f s
  | .sample src dst sub payload => Sys2Proof.Machine.execSample src dst sub payload s
  | .state src dst sub payload => Sys2Proof.Machine.execState src dst sub payload s
  | .inputLevelChange input high => Sys2Proof.Machine.execInputLevelChange input high s
  | .pointSecondMark => Sys2Proof.Machine.execPointSecondMark s
  | .holdExpiry cond => Sys2Proof.Machine.execHoldExpiry cond s
  | .riseWindowExpiry => Sys2Proof.Machine.execRiseWindowExpiry s
  | .minDwellMark => Sys2Proof.Machine.execMinDwellMark s
  | .maxDwellExpiry => Sys2Proof.Machine.execMaxDwellExpiry s
  | .frostSecondMark => Sys2Proof.Machine.execFrostSecondMark s
  | .refreshExpiry role => Sys2Proof.Machine.execRefreshExpiry role s
  | .confirmExpiry role => Sys2Proof.Machine.execConfirmExpiry role s
  | .heardTimerExpiry role => Sys2Proof.Machine.execHeardTimerExpiry role s
  | .senseChange line on => Sys2Proof.Machine.execSenseChange line on s
  | .settleExpiry line => Sys2Proof.Machine.execSettleExpiry line s
  | .limitOpening => Sys2Proof.Machine.execLimitOpening s
  | .limitClosing => Sys2Proof.Machine.execLimitClosing s
  | .unlockEdge => Sys2Proof.Machine.execUnlockEdge s
  | .absenceTimerExpiry => Sys2Proof.Machine.execAbsenceTimerExpiry s
  | .regainExpiry => Sys2Proof.Machine.execRegainExpiry s
  | .persistenceWriteComplete => Sys2Proof.Machine.execPersistenceWriteComplete s
  | .commitCompletion => Sys2Proof.Machine.execCommitCompletion s
  | .load src kind index part fields => Sys2Proof.Machine.execLoad src kind index part fields s
  | .read src image kind index part => Sys2Proof.Machine.execRead src image kind index part s
  | .discard src => Sys2Proof.Machine.execDiscard src s
  | .commit src => Sys2Proof.Machine.execCommit src s
  | .demandOn src => Sys2Proof.Machine.execDemandOn src s
  | .demandOff src => Sys2Proof.Machine.execDemandOff src s
  | .run src seq => Sys2Proof.Machine.execRun src seq s
  | .stop src => Sys2Proof.Machine.execStop src s
  | .setRole src role value => Sys2Proof.Machine.execSetRole src role value s
  | .unlock src => Sys2Proof.Machine.execUnlock src s
  | .status src page => Sys2Proof.Machine.execStatus src page s
  | .traceRead src index count => Sys2Proof.Machine.execTraceRead src index count s
  | .traceRelease src half => Sys2Proof.Machine.execTraceRelease src half s
  | .quietInterval port => Sys2Proof.Machine.execQuietInterval port s
  | .unlockInputLeavesActiveLevel => Sys2Proof.Machine.execUnlockInputLeavesActiveLevel s
  | .powerLoss => Sys2Proof.Machine.execPowerLoss s

end Sys2Proof.Machine
end

