-- ==== Sys2Proof/Safety.lean ====
section
/-! DEFINITION. The predicates that the statements speak of: the laws of the manual as invariants of a state, and the
conditions under which a command does no more than its own effect. -/

namespace Sys2Proof.Machine

/-! ### The sizes of the part (Table 6, R129, R131, R134, R153) -/

/-- The table set has the number of entries of each kind that Table 6 gives. -/
abbrev Tables.sized (t : Tables) : Prop :=
  t.points.length = 24 ∧ t.conds.length = 32 ∧ t.steps.length = 96 ∧ t.seqs.length = 12 ∧ t.circuits.length = 6
    ∧ t.roles.length = 12

/-- Every list of the state has the length of what it holds, and the trace position is inside the memory. -/
abbrev State.sized (s : State) : Prop :=
  s.points.length = 24 ∧ s.conds.length = 32 ∧ s.seq.runs.length = 12 ∧ s.seq.triggers.length = 12
    ∧ s.circuits.length = 6 ∧ s.roles.length = 12 ∧ s.lines.length = 8 ∧ s.pins.sense.length = 8
    ∧ s.gate.slots.length = 12 ∧ s.gate.notices.length = 7 ∧ s.trace.mem.length = 512 ∧ s.trace.pos < 512

/-- The law of R131: the queues hold at most 8, 8 and 4 frames. -/
abbrev State.queuesBounded (s : State) : Prop :=
  s.gate.up.length ≤ 8 ∧ s.gate.down.length ≤ 8 ∧ s.gate.reply.length ≤ 4

/-! ### The laws of the units -/

/-- The law of R10: a point whose quality is not NONE has a filtered value within its plausibility window. -/
abbrev State.filteredInWindow (s : State) : Prop :=
  ∀ i, i < 24 → (s.point i).quality ≠ .none → ((s.point i).filtered.any fun f => plausible (s.tables.point i) f) = true

/-- R2: the window of a CONTACT point contains 0 and 1. -/
abbrev Tables.contactWindows (t : Tables) : Prop :=
  ∀ e ∈ t.points, e.kind = .contact → e.plausLo ≤ 0 ∧ 1 ≤ e.plausHi

/-- R2 in the active tables, the staging image and the stored image. -/
abbrev State.contactWindows (s : State) : Prop :=
  s.tables.contactWindows ∧ s.staging.contactWindows ∧ (∀ t, s.store.image = some t → t.contactWindows)

/-- The law of R81: at most 4 sequences on the chain, none twice, each in use in the active table. -/
abbrev State.chainLaw (s : State) : Prop :=
  s.seq.chain.length ≤ 4 ∧ s.seq.chain.Nodup ∧ ∀ n ∈ s.seq.chain, n < 12 ∧ (s.tables.seq n).inUse = true

/-- The law of R104: debts within their range, and FIRING only while the tier-2 sequence is on the chain. -/
abbrev State.frostLaw (s : State) : Prop :=
  ∀ c, c < 6 → (s.circuit c).debt ≤ debtLimit ∧
    ((s.tables.circuit c).inUse = true → (s.circuit c).stage = .firing → s.tier2OnChain c = true)

/-- The law of R116: owner and applied value are those of the highest-precedence claimant, for every role. -/
abbrev State.appliedLaw (s : State) : Prop := ∀ x ∈ s.roles, (x.owner, x.applied) = x.claim

/-- R116's filling of the slots: under committed tables the LIMIT, LOCKOUT, SEQUENCE and FROST slots hold what the
input, the lockout state, the running step and the circuits claim. -/
abbrev State.slotsLaw (s : State) : Prop :=
  s.phase = .normal → ∀ r, r < 12 →
    (s.role r).limit = s.limitSlot r ∧ (s.role r).lockout = s.lockoutSlot r ∧ (s.role r).sequence = s.sequenceClaim r
      ∧ (s.role r).frost = s.frostClaim r

/-- R118: under committed tables a line is ON while the applied value of its role is nonzero, and OFF without a role. -/
abbrev State.linesLaw (s : State) : Prop :=
  s.phase = .normal → ∀ l, l < 8 →
    (s.line l).commanded = (match s.tables.roleOfLine l with
      | some r => (s.role r).applied != 0
      | none => false)

/-- The law of R145 on one set of lockout data; the number is a two-byte number (R145). -/
abbrev LockoutData.lawful (d : LockoutData) : Prop := d.history.length ≤ 6 ∧ d.allowance ≤ 3 ∧ d.number ≤ 65535

/-- The law of R145, in the Fault Unit, in both copies and in the write in flight. -/
abbrev State.lockoutLaw (s : State) : Prop :=
  s.fault.data.lawful ∧ (∀ c, s.store.copy0 = some c → c.data.lawful) ∧ (∀ c, s.store.copy1 = some c → c.data.lawful)
    ∧ (∀ w, s.store.write = some w → w.copy.data.lawful)

/-- The law of R155: the half in which the writer stands has its flag clear in WRITING, and set in HOLD. -/
abbrev State.traceLaw (s : State) : Prop := s.trace.pos < 512 ∧ s.trace.ready (halfOf s.trace.pos) = s.trace.hold

/-- R165: the tables that govern, the image in storage, and an image being written have passed every cross-check, and no
commit is in progress before the image check. -/
abbrev State.tablesChecked (s : State) : Prop :=
  (s.phase = .normal → crossCheck s.tables = none) ∧ (∀ t, s.store.image = some t → crossCheck t = none)
    ∧ (s.committing = true → crossCheck s.staging = none)
    ∧ (s.phase = .off ∨ s.phase = .checking → s.committing = false)

/-! ### When a command does no more than its own effect -/

/-- No condition of the active table is in use: nothing watches the evidence. -/
abbrev State.unwatched (s : State) : Prop := ∀ c, c < 32 → (s.tables.cond c).inUse = false

/-- No consumer follows a change of a held value: the running step neither supervises nor proves, and no sequence in use
names a trigger condition. -/
abbrev State.unheeded (s : State) : Prop :=
  (∀ x, s.seq.running = some x →
      (s.tables.step x.step).supervision = [] ∧ (s.tables.step x.step).proving = none)
    ∧ (∀ n, n < 12 → (s.tables.seq n).inUse = true → (s.tables.seq n).trigger = none)
    ∧ s.seq.triggers.length = 12

/-- The step `k` can be entered as the step of the top, with no fault and no call of its own (R62 actions 8 and 9). -/
abbrev State.entersQuietly (s : State) (k : Nat) : Prop :=
  s.supervisionFails k = false ∧ (s.tables.step k).call = none

/-- S`n` can be entered: its entry step is heard (R88 check 9) and is entered quietly, and no trigger waits. -/
abbrev State.seqEntersQuietly (s : State) (n : Nat) : Prop :=
  s.entryHeard (s.tables.seq n).entryStep = true ∧ s.entersQuietly (s.tables.seq n).entryStep ∧ s.noTriggers = true

/-- The trace after entries of the given kinds, each written or counted in turn (R154). -/
def State.traced (s : State) (kinds : List TraceKind) : TraceUnit := (kinds.foldl Work.trace (Work.idle s)).st.trace

/-- The trace after entries of the given kinds, then S`n` becoming top and its step `k` being entered or taken up (R154). -/
def State.tracedTop (s : State) (kinds : List TraceKind) (n k : Nat) : TraceUnit :=
  (((kinds.foldl Work.trace (Work.idle s)).traceTop n).trace (.step n k)).st.trace

/-- What stands after step `k` has been entered as the step of S`n`, from the state `s` just before (R62 actions 1 to 6):
the running-step record with the dwells that govern, the recycle count of a `success` step, the SEQUENCE claims, the
rise test when the step arms it, the STEP entry of the trace, and nothing else of the points, conditions, circuits, faults, tables and queues. -/
def State.enteredStep (s u : State) (n k : Nat) : Prop :=
  u.seq = { s.seq with
      running := some (runningOf (s.tables.step k) k 0 (if (s.tables.step k).warmup then some (allowanceNow s) else none))
      runs := if (s.tables.step k).success then s.seq.runs.set n { s.seqRun n with recycle := 0 } else s.seq.runs }
    ∧ (∀ r, r < 12 → (u.role r).sequence = ((s.tables.step k).output r).claim)
    ∧ ((s.tables.step k).armRise = false → u.flue.rise = s.flue.rise ∧ u.flue.required = s.flue.required)
    ∧ ((s.tables.step k).armRise = true → ∀ b, s.flueTemp = some b →
        u.flue.rise = .armed ∧ u.flue.baseline = some b ∧ u.flue.required = some (requiredRise s.tables.flue b)
          ∧ u.flue.riseTimer = some (s.tables.flue.riseWindow * 10))
    ∧ ((s.tables.step k).armRise = true → s.flueTemp = none → u.flue.rise = .failed ∧ u.flue.riseTimer = none)
    ∧ u.trace = s.traced [.step n k]
    ∧ u.points = s.points ∧ u.conds = s.conds ∧ u.circuits = s.circuits ∧ u.fault = s.fault ∧ u.pins = s.pins
    ∧ u.tables = s.tables ∧ u.staging = s.staging ∧ u.store = s.store
    ∧ u.gate.up = s.gate.up ∧ u.gate.down = s.gate.down ∧ u.gate.reply = s.gate.reply

/-- What stands after S`n` has been entered over the chain `below`, from the state `s` just before (R86, R88): S`n` is the
top at its entry step, its step's claims hold, the trace has taken the entries `kinds` of what came before in the same event
and then those of the entry, and nothing of the points, conditions, tables and forward queues has changed. -/
def State.enteredSeq (s u : State) (n : Nat) (below : List Nat) (kinds : List TraceKind) : Prop :=
  let k := (s.tables.seq n).entryStep
  u.seq.chain = n :: below
    ∧ u.seq.running
      = some (runningOf (s.tables.step k) k 0 (if (s.tables.step k).warmup then some (allowanceNow s) else none))
    ∧ (∀ r, r < 12 → (u.role r).sequence = ((s.tables.step k).output r).claim)
    ∧ u.seq.triggers = s.seq.triggers ∧ u.seq.purgeDue = s.seq.purgeDue
    ∧ (u.notice .chain).flag = true
    ∧ u.trace = s.tracedTop kinds n k
    ∧ u.points = s.points ∧ u.conds = s.conds ∧ u.pins = s.pins ∧ u.tables = s.tables ∧ u.staging = s.staging
    ∧ u.gate.up = s.gate.up ∧ u.gate.down = s.gate.down

/-- What stands after S`n` has been called over the chain `below`, whose top has been suspended (R87): as after an entry,
with the demand flag, the Fault Unit and the store as they stood. -/
def State.calledSeq (s u : State) (n : Nat) (below : List Nat) (kinds : List TraceKind) : Prop :=
  s.enteredSeq u n below kinds ∧ u.seq.demand = s.seq.demand ∧ u.fault = s.fault ∧ u.store = s.store

/-- What stands after a fault decided as a lockout and the entry of the lockout purge, from the state `s` just before (R145,
R94, R95): LOCKED with the next number, the history entry in front and the record LOCKED_OUT, the purge alone on the chain at
its entry step, its claims and the LOCKOUT claims, every recycle count 0, the three notices raised, the fault as the last entry
of the trace record that ends, and nothing of demand, triggers, points, conditions, tables and forward queues changed. -/
def State.lockedOut (s u : State) (f : FaultIn) (mark : Bool) : Prop :=
  let n := s.tables.device.lockoutSeq
  let k := (s.tables.seq n).entryStep
  let number := if s.fault.data.number = 65535 then 1 else s.fault.data.number + 1
  u.fault.data =
      { s.fault.data with
        locked := true, number := number
        history := { number := number, cause := f.code, seq := f.seq, step := f.step, limitMark := mark,
                     flueTemp := s.flueTemp, second := none } :: s.fault.data.history.take 5 }
    ∧ u.fault.record = some
      { code := f.code, cls := .lockout, outcome := .lockedOut, limitMark := mark, seq := f.seq, step := f.step,
        line := f.line, time := s.faultTime, flueTemp := s.flueTemp }
    ∧ u.seq.chain = [n]
    ∧ u.seq.running
      = some (runningOf (s.tables.step k) k 0 (if (s.tables.step k).warmup then some (allowanceNow s) else none))
    ∧ (∀ i, i < 12 → (u.seqRun i).recycle = 0)
    ∧ (∀ r, r < 12 → (u.role r).sequence = ((s.tables.step k).output r).claim)
    ∧ (∀ r, r < 12 → (u.role r).lockout =
        if r = 0 ∨ r = 1 ∨ r = 2 ∨ r = 4 then some 0 else if r = 7 then some 1000 else none)
    ∧ u.seq.demand = s.seq.demand ∧ u.seq.triggers = s.seq.triggers ∧ u.seq.purgeDue = s.seq.purgeDue
    ∧ (u.notice .lockout).flag = true ∧ (u.notice .fault).flag = true ∧ (u.notice .chain).flag = true
    ∧ u.trace = (((((Work.idle s).trace (.fault f.code)).traceFinish).traceTop n).trace (.step n k)).st.trace
    ∧ u.points = s.points ∧ u.conds = s.conds ∧ u.pins = s.pins ∧ u.tables = s.tables ∧ u.staging = s.staging
    ∧ u.gate.up = s.gate.up ∧ u.gate.down = s.gate.down
    ∧ (u.store.write.isSome = true ∨ u.store.again = true)

/-- The part can lock out and enter its purge within one event: unlocked, no store write in flight, no condition in use,
nothing waiting, and a purge that can be entered (R95). -/
abbrev State.locksQuietly (s : State) : Prop :=
  s.locked = false ∧ s.committing = false ∧ s.phase = .normal ∧ s.sized ∧ s.unwatched ∧ deviceCheck s.tables = true
    ∧ s.seqEntersQuietly s.tables.device.lockoutSeq

/-- The part takes a management request from `src`: it serves frames, the control port receives, the source is the
controller address, and the reply queue has a place (R133, R140, R160). -/
abbrev State.manages (s : State) (src : Byte) : Prop :=
  s.serving = true ∧ s.receives .control = true ∧ s.fromController src = true ∧ src.toNat ≠ 0
    ∧ s.gate.reply.length < 4 ∧ s.mgmtAddr < 256

/-- The state in which a frame from `src` on the control segment is handled: the port has heard it, and presence has
been seen to (R128). -/
def State.heardFrom (s : State) (src : Byte) : State := (s.hear .control .waiting).seeSource src

/-- The record of a point after readings of (channel, code) pairs from one source, taken in order (R5). -/
def pointAfter (t : Tables) (source : Nat) (readings : List (Nat × Nat)) (i : Nat) (r : PointRun) : PointRun :=
  readings.foldl (fun r g => if matchPoint t source g.1 = some i then afterReading (t.point i) r (limitCode g.2) else r) r

/-- The records of a role after the settings of a STATE frame, taken in order (R123). -/
def roleAfterState (t : Tables) (source : Nat) (settings : List (Nat × Nat)) (r : Nat) (x : RoleRun) : RoleRun :=
  settings.foldl (fun x g =>
    if t.roleOfField source g.1 = some r then
      { x with actual := some (min g.2 1000), since := true, heard := some ((t.role r).confirmWindow * 10) }
    else x) x

/-- C`c`, which compares a point, is the one condition in use. -/
abbrev State.watchedBy (s : State) (c : Nat) : Prop :=
  (s.tables.cond c).inUse = true ∧ ((s.tables.cond c).kind = .above ∨ (s.tables.cond c).kind = .below
      ∨ (s.tables.cond c).kind = .contact)
    ∧ ∀ d, d < 32 → d ≠ c → (s.tables.cond d).inUse = false

/-- The state in which C`c` has come to hold TRUE by its hold (R32). -/
def State.believes (s : State) (c : Nat) : State :=
  s.setCond c { raw := (s.cond c).raw, held := .yes, timer := none }

/-- The readings of IN2 and IN3 at their levels (R6). -/
def inputReadings (s : State) : List (Nat × Nat) := [(2, inputCode s.pins.in2High), (3, inputCode s.pins.in3High)]

/-! ### What is handed on, while no consumer follows -/

/-- The state after the Condition Unit has taken a change by its walk (R33). -/
def State.walked (s : State) (i : CondInput) : State := (walk i s []).1

/-- The state after the Flue Unit has taken a plausible reading or a quality change of point `p`, and the Condition Unit the
flue values that it changed (R41). -/
def State.tookFlue (s : State) (p : Nat) (sample : Option Int) : State :=
  let f := flueAfter s p sample
  let kinds := [FlueKind.draught, .blocked, .spill, .rise].filter fun k => s.flue.value k != f.value k
  if kinds = [] then s.setFlue f else (s.setFlue f).walked (.flue kinds)

/-- The state after point `p`, whose record has gone from `old` to `new`, has been handed to the Condition Unit (R13) and
to the Flue Unit (R14), in the free order of log 3; `sample` is the filtered value of a plausible reading. -/
def State.handedOn (s : State) (p : Nat) (old new : PointRun) (sample : Option Int) : State :=
  let f := s.tables.flue
  let conditions := fun (u : State) =>
    if old.filtered ≠ new.filtered ∨ old.quality ≠ new.quality then u.walked (.point p) else u
  let flue := fun (u : State) =>
    if (f.draughtPt = some p ∨ f.fluePt = some p ∨ f.spillPt = some p ∨ f.roomPt = some p)
        ∧ (sample.isSome = true ∨ old.quality ≠ new.quality) then u.tookFlue p sample else u
  if s.order = .conditionFlueTrace ∨ s.order = .conditionTraceFlue ∨ s.order = .traceConditionFlue then
    flue (conditions s) else conditions (flue s)

/-- The new filtered value that a reading of limited code `c` makes a sample, when the reading is plausible (R14). -/
def sampleOf (e : PointEntry) (r : PointRun) (c : Nat) : Option Int :=
  if readingPlausible e c then (afterReading e r c).filtered else none

/-- The state after one (channel, code) reading from a source: taken by the matched point and handed on (R5, R13, R14). -/
def State.tookReading (source : Nat) (s : State) (g : Nat × Nat) : State :=
  match matchPoint s.tables source g.1 with
  | some p =>
    let e := s.tables.point p
    let old := s.point p
    let new := afterReading e old (limitCode g.2)
    (s.setPoint p new).handedOn p old new (sampleOf e old (limitCode g.2))
  | none => s

/-- The state after one (channel, value) setting of a STATE frame: taken by the matched field role and handed on (R123). -/
def State.tookSetting (source : Nat) (s : State) (g : Nat × Nat) : State :=
  match s.tables.roleOfField source g.1 with
  | some r =>
    (s.setRole r { s.role r with
      actual := some (min g.2 1000), since := true, heard := some ((s.tables.role r).confirmWindow * 10) }).walked (.role r)
  | none => s

/-- The record of a point after the second mark of the Point Unit: the samples of IN2 and IN3 first, then the age advance of
a point in use (R6, R12). -/
def State.markedPoint (s : State) (p : Nat) : PointRun :=
  if (s.tables.point p).inUse then afterMark (s.tables.point p) (pointAfter s.tables 0 (inputReadings s) p (s.point p))
  else s.point p

/-- The state after the Point Unit's second mark: every record first, then what the two samples hand on, then what each
point that has aged hands on, lowest first (R12 to R14, logs 46 and 47). -/
def State.tookMark (s : State) : State :=
  let read := fun p => pointAfter s.tables 0 (inputReadings s) p (s.point p)
  let marked : State := { s with pointTimer := 0, points := (List.range 24).map s.markedPoint }
  let sampled := (inputReadings s).foldl (fun (u : State) g =>
    match matchPoint s.tables 0 g.1 with
    | some p => u.handedOn p (s.point p) (read p) (sampleOf (s.tables.point p) (s.point p) (limitCode g.2))
    | none => u) marked
  (List.range 24).foldl (fun (u : State) p =>
    if (s.tables.point p).inUse then u.handedOn p (read p) (s.markedPoint p) none else u) sampled

/-! ### What LOAD checks of an entry (R2, R20, R38, R57, R59, R98, R114, R164) -/

/-- The value bits of an output: ten of them, at most 1000 for LEVEL (R57, R168). -/
abbrev Output.ok (o : Output) : Prop := o.value < 1024 ∧ (o.mode = .level → o.value ≤ 1000)

/-- A point entry in its ranges and constraints (R2, Table 13). -/
abbrev PointEntry.ok (e : PointEntry) : Prop :=
  (e.source = 0 ∨ 2 ≤ e.source ∧ e.source ≤ 47) ∧ e.channel ≤ 15
    ∧ -32768 ≤ e.offset ∧ e.offset ≤ 32767 ∧ e.gain ≤ 65535
    ∧ -32768 ≤ e.plausLo ∧ e.plausLo ≤ e.plausHi ∧ e.plausHi ≤ 32767
    ∧ e.k ≤ 4 ∧ 1 ≤ e.staleLimit ∧ e.staleLimit ≤ 255
    ∧ (e.source = 0 → e.kind = .contact ∧ (e.channel = 2 ∨ e.channel = 3))
    ∧ (e.kind = .contact → e.plausLo ≤ 0 ∧ 1 ≤ e.plausHi)

/-- A condition entry in its ranges (R20, Table 16): the fields that its kind reads, and of the others the index bytes in
their range or NONE (R169, log 55). -/
abbrev CondEntry.ok (e : CondEntry) : Prop :=
  let compares := e.kind = .above ∨ e.kind = .below
  let combines := e.kind = .both ∨ e.kind = .either
  e.hold ≤ 600 ∧ -32768 ≤ e.threshold ∧ e.threshold ≤ 32767
    ∧ (e.point < 24 ∨ e.point = 255 ∧ ¬ compares ∧ e.kind ≠ .contact)
    ∧ e.hyst ≤ 65535 ∧ (compares → e.hyst ≤ 32767) ∧ e.level ≤ 255 ∧ (e.kind = .contact → e.level ≤ 1)
    ∧ (e.role < 12 ∨ e.role = 255 ∧ e.kind ≠ .roleConfirmed)
    ∧ (e.a < 32 ∨ e.a = 255 ∧ ¬ combines) ∧ (e.b < 32 ∨ e.b = 255 ∧ ¬ combines)

/-- The flue record in its ranges (R38, Table 19). -/
abbrev FlueRecord.ok (e : FlueRecord) : Prop :=
  (∀ p ∈ e.draughtPt, p < 24) ∧ (∀ p ∈ e.fluePt, p < 24) ∧ (∀ p ∈ e.spillPt, p < 24) ∧ (∀ p ∈ e.roomPt, p < 24)
    ∧ e.dReq ≤ 1000 ∧ e.dBlock ≤ 1000 ∧ -400 ≤ e.tCold ∧ e.tCold ≤ 1000 ∧ -400 ≤ e.tWarm ∧ e.tWarm ≤ 1000
    ∧ e.rCold ≤ 2000 ∧ e.rWarm ≤ 2000 ∧ 1 ≤ e.riseWindow ∧ e.riseWindow ≤ 600 ∧ e.sDelta ≤ 1000 ∧ e.kW ≤ 255
    ∧ e.aMax ≤ 3000

/-- A step record in its ranges and constraints (R57, Table 24). -/
abbrev StepEntry.ok (e : StepEntry) : Prop :=
  e.outputs.length = 12 ∧ (∀ o ∈ e.outputs, o.ok) ∧ (∀ c ∈ e.proving, c < 32) ∧ e.minDwell ≤ 6000 ∧ e.maxDwell ≤ 6000
    ∧ (∀ n ∈ e.call, n < 12) ∧ e.supervision.length ≤ 4 ∧ (∀ v ∈ e.supervision, v.cond < 32)
    ∧ (match e.next with | .step k => k < 96 | .finish => True | .hold => True)
    ∧ (match e.onTimeout with
        | .goto k => k < 96 ∧ 0 < e.maxDwell
        | .fault => 0 < e.maxDwell
        | .none => e.maxDwell = 0)
    ∧ 1 ≤ e.faultCode ∧ e.faultCode ≤ 63 ∧ (0 < e.maxDwell → e.minDwell ≤ e.maxDwell)

/-- A sequence descriptor in its ranges (R59, Table 25). -/
abbrev SeqEntry.ok (e : SeqEntry) : Prop :=
  e.entryStep < 96 ∧ e.priority ≤ 3 ∧ (∀ n ∈ e.stopLink, n < 12) ∧ (∀ n ∈ e.recoveryLink, n < 12)
    ∧ 1 ≤ e.recycleLimit ∧ e.recycleLimit ≤ 3 ∧ (∀ c ∈ e.trigger, c < 32)
    ∧ e.tracePoints.length ≤ 4 ∧ (∀ p ∈ e.tracePoints, p < 24)

/-- A tier-1 entry in its ranges (R98): a role of 5 to 11 with ON or LEVEL. -/
abbrev TierRole.ok (x : TierRole) : Prop :=
  5 ≤ x.role ∧ x.role ≤ 11 ∧ (x.output.mode = .on ∨ x.output.mode = .level) ∧ x.output.ok

/-- A circuit entry in its ranges and constraints (R98, Table 30). -/
abbrev CircuitEntry.ok (e : CircuitEntry) : Prop :=
  e.point < 24 ∧ -400 ≤ e.tF ∧ e.tF ≤ 400 ∧ 1 ≤ e.l1 ∧ e.l1 ≤ e.l2 ∧ e.l2 ≤ 16777215 ∧ e.dFb ≤ 500 ∧ e.margin ≤ 200
    ∧ (∀ x ∈ e.tierA, x.ok) ∧ (∀ x ∈ e.tierB, x.ok) ∧ (∀ x ∈ e.tierA, ∀ y ∈ e.tierB, x.role ≠ y.role)
    ∧ (∀ n ∈ e.tier2, n < 12)

/-- A role entry in its ranges and constraints (R114, Table 34). -/
abbrev RoleEntry.ok (e : RoleEntry) : Prop :=
  (match e.target with
    | .none => True
    | .line l => l < 8
    | .field n c => 2 ≤ n ∧ n ≤ 47 ∧ c ≤ 15)
    ∧ e.tolerance ≤ 100 ∧ 1 ≤ e.confirmWindow ∧ e.confirmWindow ≤ 60 ∧ e.ctlMin ≤ e.ctlMax ∧ e.ctlMax ≤ 1000

/-- The device settings in their ranges (R164). -/
abbrev DeviceEntry.ok (e : DeviceEntry) : Prop :=
  48 ≤ e.ctlAddr ∧ e.ctlAddr ≤ 55 ∧ e.startSeq < 12 ∧ e.lockoutSeq < 12 ∧ 5 ≤ e.absenceTimeout ∧ e.absenceTimeout ≤ 250
    ∧ 1 ≤ e.refresh ∧ e.refresh ≤ 60

/-- Entry `i` of a kind is in its ranges and constraints. -/
def Tables.entryOk (t : Tables) (kind : TableKind) (i : Nat) : Prop :=
  match kind with
  | .point => (t.point i).ok
  | .condition => (t.cond i).ok
  | .flue => t.flue.ok
  | .step => (t.step i).ok
  | .sequence => (t.seq i).ok
  | .circuit => (t.circuit i).ok
  | .role => (t.role i).ok
  | .device => t.device.ok

/-- Entry `i` of a kind, and no other, taken over from the tables `src`. -/
def Tables.putEntry (t src : Tables) (kind : TableKind) (i : Nat) : Tables :=
  match kind with
  | .point => { t with points := t.points.set i (src.point i) }
  | .condition => { t with conds := t.conds.set i (src.cond i) }
  | .flue => { t with flue := src.flue }
  | .step => { t with steps := t.steps.set i (src.step i) }
  | .sequence => { t with seqs := t.seqs.set i (src.seq i) }
  | .circuit => { t with circuits := t.circuits.set i (src.circuit i) }
  | .role => { t with roles := t.roles.set i (src.role i) }
  | .device => { t with device := src.device }

/-- Byte `j` of a loaded entry lies in a place that the entry does not use (log 40): a supervision entry past the count,
the output of a tier-1 place with role NONE, node or channel of a target that has none. -/
def unusedPlace (kind : TableKind) (bs : List Byte) (j : Nat) : Prop :=
  match kind with
  | .step => 36 + 2 * (bs.getD 35 0).toNat ≤ j
  | .circuit => (bs.getD 12 0 = 255 ∧ (j = 13 ∨ j = 14)) ∨ (bs.getD 15 0 = 255 ∧ (j = 16 ∨ j = 17))
  | .role => (bs.getD 1 0 = 0 ∧ (j = 2 ∨ j = 3)) ∨ (bs.getD 1 0 = 1 ∧ j = 3)
  | _ => False

/-! ### What COMMIT checks (R165) -/

/-- Step `i` is reached from step `k` in `n` moves through `next` and GOTO (R60 check 4). -/
def Tables.reaches (t : Tables) : Nat → Nat → Nat → Prop
  | 0, k, i => k = i
  | n + 1, k, i => ∃ j, ((t.step k).next = .step j ∨ (t.step k).onTimeout = .goto j) ∧ t.reaches n j i

/-- Entry `i` of a kind meets the checks that R165 has COMMIT make of it (R21, R39, R58, R60, R99, R115). -/
def Tables.passes (t : Tables) (kind : TableKind) (i : Nat) : Prop :=
  let point := fun (p : Nat) (kinds : List PointKind) => p < 24 ∧ (t.point p).inUse = true ∧ (t.point p).kind ∈ kinds
  let cond := fun (c : Nat) => c < 32 ∧ (t.cond c).inUse = true
  let step := fun (k : Nat) => k < 96 ∧ (t.step k).inUse = true
  let seq := fun (n : Nat) (cls : SeqClass) => n < 12 ∧ (t.seq n).inUse = true ∧ (t.seq n).cls = cls
  let fits := fun (r : Nat) (o : Output) => o.mode = .level → (t.role r).kind = .level
  match kind with
  | .point =>
    let e := t.point i
    e.inUse = true → ∀ j, j < i → (t.point j).inUse = true → (t.point j).source = e.source → (t.point j).channel ≠ e.channel
  | .condition =>
    let e := t.cond i
    e.inUse = true →
      (e.kind = .above ∨ e.kind = .below → point e.point [.temp, .draught, .flame, .level]) ∧
      (e.kind = .contact → point e.point [.contact]) ∧
      (e.kind = .roleConfirmed → (t.role e.role).target ≠ .none) ∧
      (e.kind = .both ∨ e.kind = .either → cond e.a ∧ cond e.b ∧ e.a < i ∧ e.b < i)
  | .flue =>
    let e := t.flue
    (∀ p ∈ e.draughtPt, point p [.draught]) ∧ (∀ p ∈ e.fluePt, point p [.temp]) ∧ (∀ p ∈ e.spillPt, point p [.temp]) ∧
      (∀ p ∈ e.roomPt, point p [.temp]) ∧ (∀ p ∈ e.spillPt, ∀ q ∈ e.roomPt, p ≠ q) ∧
      e.dBlock < e.dReq ∧ e.tCold < e.tWarm ∧ e.rWarm ≤ e.rCold
  | .role =>
    let e := t.role i
    (e.target ≠ .none → ∀ q, q < i → (t.role q).target ≠ e.target) ∧
      (i = 0 ∨ i = 1 ∨ i = 2 → e.kind = .switched ∧ ∃ l, l ≤ 4 ∧ e.target = .line l) ∧
      (i = 0 ∨ i = 1 ∨ i = 2 ∨ i = 4 → e.ctlAllowed = false)
  | .step =>
    let e := t.step i
    e.inUse = true →
      (∀ c ∈ e.proving, cond c) ∧ (∀ v ∈ e.supervision, cond v.cond) ∧
      (∀ k, e.next = .step k ∨ e.onTimeout = .goto k → step k) ∧ (∀ n ∈ e.call, n < 12 ∧ (t.seq n).inUse = true) ∧
      (∀ r, r < 12 → fits r (e.output r)) ∧
      ((e.output 0).mode = .on ∨ (e.output 1).mode = .on → e.proving ≠ none → 0 < e.maxDwell)
  | .sequence =>
    let e := t.seq i
    e.inUse = true →
      step e.entryStep ∧ (e.cls = .heat ∨ e.cls = .service → e.stopLink ≠ none) ∧ (∀ n ∈ e.stopLink, seq n .stop) ∧
      (∀ m k, t.reaches m e.entryStep k → (t.step k).faultClass = .recycle → e.recoveryLink ≠ none) ∧
      (∀ n ∈ e.recoveryLink, seq n .recovery) ∧
      (∀ c ∈ e.trigger, cond c ∧ (e.cls = .frost ∨ e.cls = .protect)) ∧
      (∀ p ∈ e.tracePoints, p < 24 ∧ (t.point p).inUse = true)
  | .device => seq t.device.startSeq .heat ∧ seq t.device.lockoutSeq .lockoutPurge
  | .circuit =>
    let e := t.circuit i
    e.inUse = true →
      point e.point [.temp] ∧ (∀ x ∈ e.tierA, fits x.role x.output) ∧ (∀ x ∈ e.tierB, fits x.role x.output) ∧
      (∀ n ∈ e.tier2, seq n .frost)

/-- The order in which COMMIT checks the kinds (R165). -/
def checkOrder : List TableKind := [.point, .condition, .flue, .role, .step, .sequence, .device, .circuit]

/-- Entry `i` of a kind is the first that fails in the order of R165. -/
def Tables.failsFirst (t : Tables) (kind : TableKind) (i : Nat) : Prop :=
  i < kind.size ∧ ¬ t.passes kind i ∧ (∀ j, j < i → t.passes kind j) ∧
    ∀ before after, checkOrder = before ++ kind :: after → ∀ k ∈ before, ∀ j, j < k.size → t.passes k j

end Sys2Proof.Machine
end

