-- ==== Sys2Proof/Certificates/Slice0/Obligations.lean ====
section
/-! DEFINITION. The statements about the U340, in the order of OBLIGATIONS.json. Where a statement ends a command in
`.next u.arbitrate`, both arbiters have chosen at the command's end, which is the model's reading (log 12). A docstring names
the log entries that its statement rests on. -/

section Slice0Statements

open Sys2Proof Sys2Proof.Machine

/-! ### The interface -/

/-- Step takes the command at the front of the queue and runs it on the state with the queue's rest. -/
def Obligations.StepRunsFront : Prop :=
  ∀ (c : Instr) (rest : List Instr) (s : State),
    s.pending = c :: rest → step s = exec c { s with pending := rest }

/-- On an empty queue one decisecond passes (log 1): the clock and every running timer count, hold timers up to their
`hold`, the one-second timers up to their mark, countdowns down to 0, and nothing else changes; without supply nothing
counts. -/
def Obligations.IdleStepCountsTime : Prop :=
  ∀ s : State, s.pending = [] →
    step s = .next s.tick ∧ (s.phase = .off → s.tick = s) ∧
    (s.phase ≠ .off → ∃ cs : List CondRun,
      s.tick = { s with
        clock := s.clock + 1
        pointTimer := min (s.pointTimer + 1) 10
        frostTimer := min (s.frostTimer + 1) 10
        conds := cs
        flue := { s.flue with riseTimer := countDown s.flue.riseTimer }
        seq := { s.seq with running := s.seq.running.map fun x => { x with elapsed := min (x.elapsed + 1) 65535 } }
        roles := s.roles.map fun x =>
          { x with confirm := countDown x.confirm, heard := countDown x.heard, refresh := countDown x.refresh }
        lines := s.lines.map fun x => { x with settle := countDown x.settle }
        gate := { s.gate with absence := countDown s.gate.absence }
        fault := { s.fault with regain := countDown s.fault.regain } } ∧
      cs.length = s.conds.length ∧
      ∀ c, c < s.conds.length → s.tick.cond c = { s.cond c with
        timer := (s.cond c).timer.map fun t => if t < (s.tables.cond c).hold then t + 1 else t })

/-- A command changes nothing of the queue behind it, and nothing of the free order of hand-offs (log 3). -/
def Obligations.ExecKeepsQueue : Prop :=
  ∀ (c : Instr) (s t : State), exec c s = .next t → t.pending = s.pending ∧ t.order = s.order

/-- The state after reset satisfies every invariant that the statements below say a step keeps.
It rests on logs 6, 7. -/
def Obligations.ResetHoldsInvariants : Prop :=
  State.reset.sized ∧ State.reset.queuesBounded ∧ State.reset.filteredInWindow ∧ State.reset.contactWindows ∧
    State.reset.chainLaw ∧ State.reset.frostLaw ∧ State.reset.appliedLaw ∧ State.reset.slotsLaw ∧ State.reset.linesLaw ∧
    State.reset.lockoutLaw ∧ State.reset.traceLaw ∧ State.reset.tablesChecked

/-- Every step keeps the sizes of the part and the bounds of the three queues. -/
def Obligations.StepKeepsSizesAndQueues : Prop :=
  ∀ s t : State, s.sized → s.queuesBounded → step s = .next t → t.sized ∧ t.queuesBounded

/-! ### The ports -/

/-- TRANSMIT_START begins the frame in hand right after a quiet interval, and does nothing otherwise. A sender that loses
arbitration to a lower source address, or collides, stops, keeps its frame in hand and receives the other frame; a port that
does not send is not reached.
It rests on logs 12, 13. -/
def Obligations.SendersBeginAndStop : Prop :=
  ∀ (p : Port) (winner : Byte) (s : State),
    ((s.port p).hand.isSome = true ∧ (s.port p).sending = false ∧ (s.port p).hearing = .ready →
      exec (.transmitStart p) s
        = .next (s.setPort p { s.port p with sending := true, hearing := .waiting }).arbitrate) ∧
    ((s.port p).hand = none ∨ (s.port p).sending = true ∨ (s.port p).hearing ≠ .ready →
      exec (.transmitStart p) s = .next s.arbitrate) ∧
    (∀ h, (s.port p).sending = true → (s.port p).hand = some h → winner.toNat < h.frame.src.toNat →
      exec (.arbitrationLost p winner) s
        = .next (s.setPort p { s.port p with sending := false, hearing := .receiving }).arbitrate) ∧
    ((s.port p).sending = true →
      exec (.collision p) s
        = .next (s.setPort p { s.port p with sending := false, hearing := .receiving }).arbitrate) ∧
    ((s.port p).sending = false →
      exec (.arbitrationLost p winner) s = .next s.arbitrate ∧ exec (.collision p) s = .next s.arbitrate)

/-- FRAME_SENT frees the port, which then waits for the next quiet interval, and clears what the frame in hand stood for: a
slot's pending mark or a notice's flag unless something newer has come, and the dropped count after a DRIVE notice. That the
port keeps the bytes last sent is the model's own record (log 31). A port that does not send has sent nothing.
It rests on logs 12, 13, 27, 31. -/
def Obligations.FrameSentClears : Prop :=
  (∀ (p : Port) (s : State), (s.port p).sending = false ∨ (s.port p).hand = none →
    exec (.frameSent p) s = .next s.arbitrate) ∧
  ∀ (p : Port) (s : State) (h : InHand), (s.port p).sending = true → (s.port p).hand = some h →
    let u := s.setPort p { hearing := .waiting, sending := false, hand := none, lastSent := frameBytes h.frame }
    (∀ r, h.tag = .substitution r → s.slot r = none → exec (.frameSent p) s = .next u.arbitrate) ∧
    (h.tag = .forwarded ∨ h.tag = .reply → exec (.frameSent p) s = .next u.arbitrate) ∧
    (∀ r x, h.tag = .substitution r → s.slot r = some x →
      exec (.frameSent p) s = .next (u.setSlot r (some { x with pending := x.newer })).arbitrate) ∧
    (∀ k, h.tag = .notice k → k ≠ .drive →
      exec (.frameSent p) s = .next (u.setNotice k { s.notice k with flag := (s.notice k).newer }).arbitrate) ∧
    (h.tag = .notice .drive →
      exec (.frameSent p) s
        = .next (let v := u.setNotice .drive { s.notice .drive with flag := (s.notice .drive).newer }
                 v.setGate { v.gate with driveCount := 0 }).arbitrate)

/-- A port takes what arrives when it is powered, does not send and does not wait for a quiet interval; a discarded
reception and every frame taken but a LINKRESET make it wait for the next one, which makes it receive afresh. A frame at a port that
does not take it changes nothing.
It rests on logs 12, 13. -/
def Obligations.DiscardWaitsForQuiet : Prop :=
  ∀ (p : Port) (bytes : List Byte) (ending : ReceptionEnd) (s : State),
    let waits := s.setPort p { s.port p with hearing := .waiting }
    let afresh := s.setPort p { s.port p with hearing := .ready }
    (s.receives p = true ↔ s.phase ≠ .off ∧ (s.port p).sending = false ∧ (s.port p).hearing ≠ .waiting) ∧
    (s.receives p = true → (ending ≠ .complete ∨ receiveBytes bytes = none) →
      exec (.frameReceiveDiscard p bytes ending) s = .next waits.arbitrate) ∧
    waits.receives p = false ∧
    (s.receives p = false → exec (.frameReceiveDiscard p bytes ending) s = .next s.arbitrate) ∧
    (s.powered = true → (s.port p).sending = false →
      exec (.quietInterval p) s = .next afresh.arbitrate ∧ afresh.receives p = true) ∧
    ((s.port p).sending = true → exec (.quietInterval p) s = .next s.arbitrate) ∧
    (s.receives .control = false →
      ∀ (f : Frame) (src dst b1 b2 b3 b4 : Byte) (sub : BitVec 4) (payload : List Byte) (v : Word),
      ∀ c ∈ [Instr.controlFrame f, .driveInterception src dst sub payload, .linkreset src sub, .load src b1 b2 b3 payload,
          .read src b1 b2 b3 b4, .discard src, .commit src, .demandOn src, .demandOff src, .run src b1, .stop src,
          .setRole src b1 v, .unlock src, .status src b1, .traceRead src v b1, .traceRelease src b1],
        exec c s = .next s.arbitrate) ∧
    (s.receives .field = false → ∀ (f : Frame) (src dst : Byte) (sub : BitVec 4) (payload : List Byte),
      ∀ c ∈ [Instr.fieldFrame f, .sample src dst sub payload, .state src dst sub payload],
        exec c s = .next s.arbitrate) ∧
    (s.receives .control = true →
      ∀ (f : Frame) (src dst b1 b2 b3 b4 : Byte) (sub : BitVec 4) (payload : List Byte) (v : Word),
      frameKind f.kind ≠ .linkreset ∨ f.dst ≠ 0 →
      ∀ c ∈ [Instr.controlFrame f, .driveInterception src dst sub payload, .load src b1 b2 b3 payload,
          .read src b1 b2 b3 b4, .discard src, .commit src, .demandOn src, .demandOff src, .run src b1, .stop src,
          .setRole src b1 v, .unlock src, .status src b1, .traceRead src v b1, .traceRelease src b1],
        ∀ t, exec c s = .next t → (t.port .control).hearing = .waiting ∧ t.receives .control = false) ∧
    (s.receives .field = true → ∀ (f : Frame) (src dst : Byte) (sub : BitVec 4) (payload : List Byte),
      ∀ c ∈ [Instr.fieldFrame f, .sample src dst sub payload, .state src dst sub payload],
        ∀ t, exec c s = .next t → (t.port .field).hearing = .waiting ∧ t.receives .field = false)

/-- The bytes of a frame are received as that frame, and every list of bytes that is received is the bytes of its
frame: a bad length, a bad CRC and source 0 are discarded. -/
def Obligations.FrameBytesRoundTrip : Prop :=
  (∀ f : Frame, f.src ≠ 0 → f.payload.length ≤ 24 → receiveBytes (frameBytes f) = some f) ∧
  (∀ (bs : List Byte) (f : Frame), receiveBytes bs = some f → bs = frameBytes f ∧ f.src ≠ 0 ∧ f.payload.length ≤ 24)

/-- What the two arbiters choose at the end of every command, and what they leave: the field arbiter the lowest pending
slot, then the oldest frame going down; the control arbiter replies, LOCKOUT, FAULT, frames going up, then the other
notices. Nothing else changes but the newer mark of the selected slot or notice and the queue that a frame was taken from.
What they send: a substitution from address 1, a notice from the part to the controller; and what the content of each notice is
when it is raised, a LOCKOUT's when it is built. Unused pairs of a CHAIN notice are NONE.
It rests on logs 12, 19. -/
def Obligations.ArbitersChoose : Prop :=
  (∀ s : State,
    let t := s.arbitrate
    (t = { s with
      gate := { s.gate with
        up := t.gate.up, down := t.gate.down, reply := t.gate.reply, slots := t.gate.slots, notices := t.gate.notices }
      ctlPort := { s.ctlPort with hand := t.ctlPort.hand }
      fieldPort := { s.fieldPort with hand := t.fieldPort.hand } }) ∧
    (∀ r, t.slot r = s.slot r ∨
      (s.fieldPort.hand = none ∧ t.fieldPort.hand.map InHand.tag = some (.substitution r) ∧
        t.slot r = (s.slot r).map fun x => { x with newer := false })) ∧
    (∀ k, t.notice k = s.notice k ∨
      (s.ctlPort.hand = none ∧ t.ctlPort.hand.map InHand.tag = some (.notice k) ∧
        t.notice k = { s.notice k with newer := false })) ∧
    (t.gate.down = s.gate.down ∨ t.fieldPort.hand.map InHand.tag = some .forwarded) ∧
    (t.gate.up = s.gate.up ∨ t.ctlPort.hand.map InHand.tag = some .forwarded) ∧
    (t.gate.reply = s.gate.reply ∨ t.ctlPort.hand.map InHand.tag = some .reply) ∧
    (s.fieldPort.hand.isSome = true → t.fieldPort = s.fieldPort ∧ t.gate.down = s.gate.down ∧
      t.gate.slots = s.gate.slots) ∧
    (s.ctlPort.hand.isSome = true → t.ctlPort = s.ctlPort ∧ t.gate.up = s.gate.up ∧ t.gate.reply = s.gate.reply ∧
      t.gate.notices = s.gate.notices) ∧
    (s.fieldPort.hand = none →
      (∀ r x v, r < 12 → s.slot r = some x → x.pending = true → x.last = some v →
        (∀ q y, q < r → s.slot q = some y → y.pending = false ∨ y.last = none) →
        t.fieldPort.hand = some { frame := substitutionFrame x v, tag := .substitution r } ∧
          t.slot r = some { x with newer := false } ∧ t.gate.down = s.gate.down) ∧
      ((∀ q y, q < 12 → s.slot q = some y → y.pending = false ∨ y.last = none) →
        (∀ f rest, s.gate.down = f :: rest →
          t.fieldPort.hand = some { frame := f, tag := .forwarded } ∧ t.gate.down = rest) ∧
        (s.gate.down = [] → t.fieldPort = s.fieldPort ∧ t.gate.down = []))) ∧
    (s.ctlPort.hand = none →
      (∀ f rest, s.gate.reply = f :: rest →
        t.ctlPort.hand = some { frame := f, tag := .reply } ∧ t.gate.reply = rest ∧ t.gate.up = s.gate.up) ∧
      (s.gate.reply = [] →
        ((s.notice .lockout).flag = true →
          t.ctlPort.hand = some { frame := s.noticeFrame .lockout, tag := .notice .lockout }) ∧
        ((s.notice .lockout).flag = false → (s.notice .fault).flag = true →
          t.ctlPort.hand = some { frame := s.noticeFrame .fault, tag := .notice .fault }) ∧
        ((s.notice .lockout).flag = false → (s.notice .fault).flag = false →
          (∀ f rest, s.gate.up = f :: rest →
            t.ctlPort.hand = some { frame := f, tag := .forwarded } ∧ t.gate.up = rest) ∧
          (s.gate.up = [] →
            t.ctlPort.hand =
              (s.flagged [.frost, .chain, .drive, .trace, .unlock]).map
                fun k => { frame := s.noticeFrame k, tag := .notice k }))))) ∧
  (∀ (x : Slot) (v : Nat), substitutionFrame x v
    = { src := 1, dst := u8 x.node, kind := 0x30, payload := u8 x.channel :: u16 v }) ∧
  (∀ s : State,
    let carries := fun (code : Nat) (payload : List Byte) =>
      ({ src := u8 s.mgmtAddr, dst := u8 s.tables.device.ctlAddr, kind := u8 (0x60 + code), payload := payload } : Frame)
    let d := s.fault.data
    s.noticeFrame .lockout = carries 0 ([flagByte [d.locked]] ++ u16 d.number ++ [u8 d.allowance] ++
      (match d.history with | e :: _ => 1 :: historyBytes e | [] => List.replicate 10 0)) ∧
    s.noticeFrame .fault = carries 1 (s.notice .fault).content ∧
    s.noticeFrame .frost = carries 2 (s.notice .frost).content ∧
    s.noticeFrame .chain = carries 3 (s.notice .chain).content ∧
    s.noticeFrame .drive = carries 4 (s.notice .drive).content ∧
    s.noticeFrame .trace = carries 5 (s.notice .trace).content ∧
    s.noticeFrame .unlock = carries 6 (s.notice .unlock).content) ∧
  (∀ (s : State) (n : Nat) (cause : Option Cause) (kind : SwitchKind) (node role seq : Option Nat)
    (setting : Option (Nat × Nat)) (r : FaultRecord), s.gate.notices.length = 7 →
    let raised := fun (content : List Byte) => ({ flag := true, newer := true, content := content } : Notice)
    let half := fun (c : Nat) => codeOf Stage.all (s.circuit c).stage +
      (if (s.circuit c).blocked = true then 4 else 0) + (if (s.tables.circuit c).inUse = true then 8 else 0)
    let member := fun (i : Nat) => match s.seq.chain[i]? with
      | some q => [u8 q, indexByte (s.memberStep q)]
      | none => [255#8, 255#8]
    (s.noteFault r).notice .fault = raised (faultBytes (some r)) ∧
    (actFrostNotice n (Work.idle s)).st.notice .frost = raised ([u8 n, u8 (half 0 * 16 + half 1),
      u8 (half 2 * 16 + half 3), u8 (half 4 * 16 + half 5)] ++ u24 (s.circuit 0).debt ++ u24 (s.circuit 1).debt ++
      u24 (s.circuit 2).debt ++ u24 (s.circuit 3).debt ++ u24 (s.circuit 4).debt ++ u24 (s.circuit 5).debt) ∧
    (s.seq.chain.length ≤ 4 → (actChainNotice cause kind seq (Work.idle s)).st.notice .chain = raised
      ([u8 ((cause.map (codeOf Cause.all)).getD 255), u8 (codeOf SwitchKind.all kind), indexByte seq, u8 s.seq.chain.length] ++
        member 0 ++ member 1 ++ member 2 ++ member 3)) ∧
    (let count := min (s.gate.driveCount + 1) 255
     (s.raiseDrive n node setting role).gate.driveCount = count ∧
     (s.raiseDrive n node setting role).notice .drive = raised
      ([u8 n, indexByte node, flagByte [setting.isSome]] ++
        (match setting with | some g => u8 g.1 :: u16 g.2 | none => [0#8, 0#8, 0#8]) ++ [indexByte role, u8 count])) ∧
    (actTraceNotice n (Work.idle s)).st.notice .trace = raised
      ([u8 n, flagByte [s.trace.ready0, s.trace.ready1, s.trace.hold]] ++ u16 s.trace.gap ++ u16 s.trace.pos) ∧
    s.unlockContent n = [u8 n, u8 s.fault.data.allowance] ++ u16 s.fault.data.number) ∧
  ([Cause.demand, .demandOff, .stopLink, .absence, .recycle, .run, .stepCall, .trigger, .lockout].map (codeOf Cause.all)
      = [0, 1, 2, 3, 4, 5, 6, 7, 8] ∧
    [SwitchKind.enter, .call, .ret, .empty].map (codeOf SwitchKind.all) = [0, 1, 2, 3])

/-! ### The gate -/

/-- A GENERAL frame from the control segment to 0 or to a field address goes down, unless the queue is full; kinds that
Table 36 does not forward change nothing but what the port and the presence timer have heard.
It rests on logs 12, 13. -/
def Obligations.ControlFrameForwardedDown : Prop :=
  ∀ (f : Frame) (s : State), s.serving = true → s.receives .control = true → f.src ≠ 0 → f.payload.length ≤ 24 →
    let h := s.heardFrom f.src
    (frameKind f.kind = .general → (f.dst.toNat = 0 ∨ 2 ≤ f.dst.toNat ∧ f.dst.toNat ≤ 47) →
      exec (.controlFrame f) s
        = .next (h.setGate { h.gate with
            down := if h.gate.down.length < 8 then h.gate.down ++ [f] else h.gate.down }).arbitrate) ∧
    (frameKind f.kind = .general → (f.dst.toNat = 1 ∨ 48 ≤ f.dst.toNat) →
      exec (.controlFrame f) s = .next h.arbitrate) ∧
    (frameKind f.kind = .sample ∨ frameKind f.kind = .state ∨ frameKind f.kind = .reply ∨ frameKind f.kind = .notice →
      exec (.controlFrame f) s = .next h.arbitrate)

/-- A GENERAL frame from the field segment to 0 or to 48–63 goes up, unless the queue is full; every frame that is not
SAMPLE, STATE or GENERAL is not forwarded.
It rests on logs 12, 13. -/
def Obligations.FieldFrameForwardedUp : Prop :=
  ∀ (f : Frame) (s : State), s.serving = true → s.receives .field = true → f.src ≠ 0 → f.payload.length ≤ 24 →
    let h := s.hear .field .waiting
    (frameKind f.kind = .general → (f.dst.toNat = 0 ∨ 48 ≤ f.dst.toNat ∧ f.dst.toNat ≤ 63) →
      exec (.fieldFrame f) s
        = .next (h.setGate { h.gate with
            up := if h.gate.up.length < 8 then h.gate.up ++ [f] else h.gate.up }).arbitrate) ∧
    (frameKind f.kind = .general → (1 ≤ f.dst.toNat ∧ f.dst.toNat ≤ 47 ∨ 64 ≤ f.dst.toNat) →
      exec (.fieldFrame f) s = .next h.arbitrate) ∧
    (frameKind f.kind = .drive ∨ frameKind f.kind = .manage ∨ frameKind f.kind = .reply ∨ frameKind f.kind = .notice
        ∨ frameKind f.kind = .linkreset →
      exec (.fieldFrame f) s = .next h.arbitrate)

/-- LINKRESET idles both ports and discards their frames in hand, empties the three queues, marks every slot with a last
value pending, restarts a running absence timer, and leaves the notices and everything outside the gate.
It rests on logs 12, 33. -/
def Obligations.LinkResetTaken : Prop :=
  ∀ (src : Byte) (sub : BitVec 4) (s : State), s.serving = true → s.receives .control = true → src ≠ 0 →
    let h := s.heardFrom src
    exec (.linkreset src sub) s = .next (State.arbitrate { h with
      ctlPort := { h.ctlPort with hearing := .ready, sending := false, hand := none }
      fieldPort := { h.fieldPort with hearing := .ready, sending := false, hand := none }
      gate := { h.gate with
        up := [], down := [], reply := []
        slots := h.gate.slots.map fun x => x.map fun y => if y.last.isSome then { y with pending := true } else y
        absence := if h.gate.present then some (s.tables.device.absenceTimeout * 10) else h.gate.absence } })

/-- What becomes of a setting of the controller's DRIVE frame, answer by answer. FORWARD: the rebuilt frame goes down with
the clamped value, the role takes that value with the controller as owner and no refresh, a changed value starts its
confirmation again and is handed to the conditions, the slot records it, and no other role, line, point or sequence changes;
with the forward-down queue full the value becomes a pending substitution instead. NOT_PERMITTED, UNROUTED without
`pass_unrouted` or in fallback mode, and HELD are dropped with a DRIVE notice, and HELD retains the requested value; UNROUTED
with `pass_unrouted` goes down as received. A frame of 1 to 4 settings takes them one by one in payload order, each on the
roles that the ones before it have left, then queues the survivors, and then its role changes are handed to the conditions.
What one setting does on any such state: its answer, its notice or its survival, and the role's change. Of several settings
the survivors go down in their order, or, with the queue full, become the substitutions of the roles that they were answered
FORWARD for.
It rests on logs 12, 26, 41. -/
def Obligations.DriveSettingForwarded : Prop :=
  (∀ (s : State) (src dst ch hi lo : Byte) (sub : BitVec 4),
    s.serving = true → s.receives .control = true → s.fromController src = true → src ≠ 0 →
    (2 ≤ dst.toNat ∧ dst.toNat ≤ 47) →
    let h := s.heardFrom src
    let c := Instr.driveInterception src dst sub [ch, hi, lo]
    let v := min (n16 hi lo) 1000
    let down := fun (payload : List Byte) =>
      s.gate.down ++ [{ src := src, dst := dst, kind := kindByte 3 sub.toNat, payload := payload }]
    (∀ r, s.phase = .normal → s.tables.roleOfField dst.toNat ch.toNat = some r →
      (s.tables.role r).ctlAllowed = true → (s.role r).limit = none → (s.role r).lockout = none →
      (s.role r).sequence = none → (s.role r).frost = none → s.sized → s.unheeded →
      let q := clampRequest (s.tables.role r) v
      ∃ u : State, exec c s = .next u.arbitrate ∧
        (let x := s.role r
         let y : RoleRun :=
           { x with ctlFilled := true, requested := q, applied := q, owner := .controller, refresh := none }
         (x.applied = q → u.role r = y ∧ u.conds = s.conds) ∧
         (x.applied ≠ q →
           u.role r = { y with
             actual := none, since := false, confirm := some ((s.tables.role r).confirmWindow * 10) } ∧
           u.conds = (walk (.role r) { u with conds := s.conds } []).1.conds)) ∧
        (∀ k, k ≠ r → u.role k = s.role k ∧ u.slot k = s.slot k) ∧
        (s.gate.down.length < 8 → u.gate.down = down (ch :: u16 q) ∧
          ∀ x, s.slot r = some x → u.slot r = some { x with last := some q }) ∧
        (8 ≤ s.gate.down.length → u.gate.down = s.gate.down ∧
          u.slot r = some { node := dst.toNat, channel := ch.toNat, last := some q, pending := true, newer := true }) ∧
        u.lines = s.lines ∧ u.points = s.points ∧ u.seq = s.seq ∧ u.circuits = s.circuits ∧ u.flue = s.flue ∧
        u.fault = s.fault ∧ u.trace = s.trace ∧ u.tables = s.tables ∧ u.staging = s.staging ∧ u.store = s.store ∧
        u.gate.up = s.gate.up ∧ u.gate.reply = s.gate.reply ∧ u.gate.notices = s.gate.notices) ∧
    (∀ r, s.phase = .normal → s.tables.roleOfField dst.toNat ch.toNat = some r → (s.tables.role r).ctlAllowed = false →
      exec c s
        = .next (h.raiseDrive reasonNotPermitted (some dst.toNat) (some (ch.toNat, v)) (some r)).arbitrate) ∧
    (∀ r, s.phase = .normal → s.tables.roleOfField dst.toNat ch.toNat = some r → (s.tables.role r).ctlAllowed = true →
      ((s.role r).limit.isSome = true ∨ (s.role r).lockout.isSome = true ∨ (s.role r).sequence.isSome = true
        ∨ (s.role r).frost.isSome = true) → s.sized → s.appliedLaw →
      exec c s
        = .next ((h.setRole r { s.role r with
            ctlFilled := true, requested := clampRequest (s.tables.role r) v }).raiseDrive reasonHeld (some dst.toNat)
            (some (ch.toNat, v)) (some r)).arbitrate) ∧
    (s.phase = .fallback
        ∨ s.tables.roleOfField dst.toNat ch.toNat = none ∧ s.tables.device.passUnrouted = false →
      exec c s = .next (h.raiseDrive reasonUnrouted (some dst.toNat) (some (ch.toNat, v)) none).arbitrate) ∧
    (s.phase = .normal → s.tables.roleOfField dst.toNat ch.toNat = none → s.tables.device.passUnrouted = true →
      exec c s
        = .next (h.setGate { h.gate with
            down := if s.gate.down.length < 8 then down [ch, hi, lo] else s.gate.down }).arbitrate)) ∧
  (∀ (s : State) (src dst : Byte) (sub : BitVec 4) (payload : List Byte),
    s.serving = true → s.receives .control = true → s.fromController src = true → src ≠ 0 →
    (2 ≤ dst.toNat ∧ dst.toNat ≤ 47) →
    (payload.length = 3 ∨ payload.length = 6 ∨ payload.length = 9 ∨ payload.length = 12) → s.sized → s.unheeded →
    let f : Frame := { src := src, dst := dst, kind := kindByte 3 sub.toNat, payload := payload }
    let taken := (groups payload).foldl (driveSetting dst.toNat) (Work.idle (s.heardFrom src), [])
    let queued := queueKept f taken.2 taken.1.st
    ∃ roles : List Nat, taken.1.emitted = roles.map (fun r => .condWalk (.role r)) ∧ (∀ r ∈ roles, r < 12) ∧
      exec (.driveInterception src dst sub payload) s
        = .next (roles.foldl (fun (u : State) r => u.walked (.role r)) queued).arbitrate) ∧
  (groups [] = [] ∧ ∀ (c h l : Byte) (rest : List Byte), groups (c :: h :: l :: rest) = (c.toNat, n16 h l) :: groups rest) ∧
  (∀ (node ch level : Nat) (w : Work) (kept : List Kept),
    let s := w.st
    let v := min level 1000
    let one := driveSetting node (w, kept) (ch, level)
    let dropped := fun (w : Work) (reason : Nat) (role : Option Nat) =>
      one = (w.withSt (w.st.raiseDrive reason (some node) (some (ch, v)) role), kept)
    (s.phase = .fallback → dropped w reasonUnrouted none) ∧
    (s.phase = .normal →
      (s.tables.roleOfField node ch = none → s.tables.device.passUnrouted = true →
        one = (w, kept ++ [{ channel := ch, level := level, role := none }])) ∧
      (s.tables.roleOfField node ch = none → s.tables.device.passUnrouted = false → dropped w reasonUnrouted none) ∧
      ∀ r, s.tables.roleOfField node ch = some r →
        let q := clampRequest (s.tables.role r) v
        let x := { s.role r with ctlFilled := true, requested := q }
        let w' := changeRole true r x w
        ((s.tables.role r).ctlAllowed = false → dropped w reasonNotPermitted (some r)) ∧
        ((s.tables.role r).ctlAllowed = true → x.claim.1 ≠ .controller → dropped w' reasonHeld (some r)) ∧
        ((s.tables.role r).ctlAllowed = true → x.claim.1 = .controller →
          one = (w'.withSt (w'.st.recordLast r q), kept ++ [{ channel := ch, level := q, role := some r }])))) ∧
  (∀ (f : Frame) (kept : List Kept) (s : State), s.sized →
    (kept = [] → queueKept f kept s = s) ∧
    (kept ≠ [] → s.gate.down.length < 8 →
      queueKept f kept s = s.setGate { s.gate with
        down := s.gate.down ++ [{ f with payload := settingBytes (kept.map fun k => (k.channel, k.level)) }] }) ∧
    (kept ≠ [] → 8 ≤ s.gate.down.length →
      (queueKept f kept s).gate.down = s.gate.down ∧
      ∀ r n c, r < 12 → (s.tables.role r).target = .field n c →
        (queueKept f kept s).slot r = (match (kept.filter fun k => k.role = some r).getLast? with
          | some k => some { node := n, channel := c, last := some k.level, pending := true, newer := true }
          | none => s.slot r)))

/-! ### Points and conditions -/

/-- A SAMPLE frame: every point takes its readings in payload order, each reading is handed to the conditions and the flue
before the next is taken, the frame goes up by its destination, and nothing of the roles, circuits, sequences and faults
changes while no consumer follows the conditions; a payload that is not 1 to 8 readings, and every payload in fallback mode, is
forwarded without a reading. A plausible reading of a traced point gives the open record a SAMPLE entry. What one reading
does: scaled with saturation, judged against the window, filtered from GOOD and seeded otherwise; an implausible one only makes
GOOD IMPLAUSIBLE; a contact reads 1 from code 2048 up. What is handed on: a changed filtered value or quality by the walk
from its point, and a plausible reading or changed quality of a point that the flue record names.
It rests on logs 3, 4, 12, 13, 39. -/
def Obligations.SampleTakesReadings : Prop :=
  (∀ (s : State) (src dst : Byte) (sub : BitVec 4) (payload : List Byte),
     s.serving = true → s.receives .field = true → src ≠ 0 → payload.length ≤ 24 →
     let f : Frame := { src := src, dst := dst, kind := kindByte 1 sub.toNat, payload := payload }
     let up := if upAddress dst && decide (s.gate.up.length < 8) then s.gate.up ++ [f] else s.gate.up
     (s.phase = .normal → groupsOk 8 payload = true → s.sized → s.unheeded →
       ∃ u : State, exec (.sample src dst sub payload) s = .next u.arbitrate ∧
         (∀ i, i < 24 → u.point i = pointAfter s.tables src.toNat (groups payload) i (s.point i)) ∧
         u.gate.up = up ∧ u.gate.down = s.gate.down ∧ u.gate.reply = s.gate.reply ∧ u.gate.slots = s.gate.slots ∧
         u.roles = s.roles ∧ u.lines = s.lines ∧ u.circuits = s.circuits ∧ u.seq = s.seq ∧ u.fault = s.fault ∧
         u.pins = s.pins ∧ u.tables = s.tables ∧ u.staging = s.staging ∧ u.store = s.store ∧
         u.conds = ((groups payload).foldl (State.tookReading src.toNat) s).conds ∧
         u.flue = ((groups payload).foldl (State.tookReading src.toNat) s).flue ∧
         (s.trace.opened = none → u.trace = s.trace) ∧
         (∀ ch hi lo p, payload = [ch, hi, lo] → matchPoint s.tables src.toNat ch.toNat = some p →
           let now := afterReading (s.tables.point p) (s.point p) (limitCode (n16 hi lo))
           (∀ r v, s.trace.opened = some r → r.ended = none → p ∈ (s.tables.seq r.seq).tracePoints →
             readingPlausible (s.tables.point p) (limitCode (n16 hi lo)) = true → now.filtered = some v →
             u.trace = s.traced [.sample p v]) ∧
           (readingPlausible (s.tables.point p) (limitCode (n16 hi lo)) = false ∨
               (∃ r, s.trace.opened = some r ∧ (r.ended.isSome = true ∨ p ∉ (s.tables.seq r.seq).tracePoints)) →
             u.trace = s.trace))) ∧
     (groupsOk 8 payload = false ∨ s.phase = .fallback →
       exec (.sample src dst sub payload) s
         = .next ((s.hear .field .waiting).setGate { s.gate with up := up }).arbitrate)) ∧
  (∀ (e : PointEntry) (r : PointRun) (code : Nat),
    let c := min code 4095
    let sum := e.offset + ((c * e.gain + 2048) / 4096 : Nat)
    let v : Int := if sum < -32768 then -32768 else if 32767 < sum then 32767 else sum
    let now := afterReading e r (limitCode code)
    (readingPlausible e (limitCode code) = true ↔ e.kind = .contact ∨ e.plausLo ≤ v ∧ v ≤ e.plausHi) ∧
    (e.kind = .contact →
      now = { raw := some c, value := some (if 2048 ≤ c then 1 else 0), filtered := some (if 2048 ≤ c then 1 else 0)
              quality := .good, age := 0 }) ∧
    (∀ f, e.kind ≠ .contact → e.plausLo ≤ v → v ≤ e.plausHi → r.quality = .good → r.filtered = some f →
      now = { raw := some c, value := some v, filtered := some (f + Int.tdiv (v - f) (2 ^ e.k)), quality := .good
              age := 0 }) ∧
    (e.kind ≠ .contact → e.plausLo ≤ v → v ≤ e.plausHi → r.quality ≠ .good →
      now = { raw := some c, value := some v, filtered := some v, quality := .good, age := 0 }) ∧
    (e.kind ≠ .contact → (v < e.plausLo ∨ e.plausHi < v) →
      now = { r with raw := some c, quality := if r.quality = .good then .implausible else r.quality }))

/-- A STATE frame: every field role takes its settings in payload order, each setting is handed to the conditions before the
next is taken, the frame goes up by its destination, and nothing of the points, lines, circuits, sequences and faults changes
while no consumer follows the conditions; a payload that is not 1 to 4 settings, and every payload in fallback mode, is
forwarded without a tap.
It rests on logs 4, 12, 13, 39. -/
def Obligations.StateFrameTakesSettings : Prop :=
  ∀ (s : State) (src dst : Byte) (sub : BitVec 4) (payload : List Byte),
    s.serving = true → s.receives .field = true → src ≠ 0 → payload.length ≤ 24 →
    let f : Frame := { src := src, dst := dst, kind := kindByte 2 sub.toNat, payload := payload }
    let up := if upAddress dst && decide (s.gate.up.length < 8) then s.gate.up ++ [f] else s.gate.up
    (s.phase = .normal → groupsOk 4 payload = true → s.sized → s.unheeded →
      ∃ u : State, exec (.state src dst sub payload) s = .next u.arbitrate ∧
        (∀ r, r < 12 → u.role r = roleAfterState s.tables src.toNat (groups payload) r (s.role r)) ∧
        u.conds = ((groups payload).foldl (State.tookSetting src.toNat) s).conds ∧
        u.gate = { s.gate with up := up } ∧ u.points = s.points ∧ u.lines = s.lines ∧ u.circuits = s.circuits ∧
        u.flue = s.flue ∧ u.seq = s.seq ∧ u.fault = s.fault ∧ u.trace = s.trace ∧ u.pins = s.pins ∧
        u.tables = s.tables ∧ u.staging = s.staging ∧ u.store = s.store) ∧
    (groupsOk 4 payload = false ∨ s.phase = .fallback →
      exec (.state src dst sub payload) s
        = .next ((s.hear .field .waiting).setGate { s.gate with up := up }).arbitrate)

/-- A change of IN2 or IN3 samples both inputs as readings of source 0 on channels 2 and 3, and each is handed to the
conditions and the flue; the same level again is no change, and outside committed tables only the level is kept.
It rests on logs 3, 4, 12, 14, 15, 34, 47. -/
def Obligations.InputChangeSampled : Prop :=
  ∀ (i : GeneralInput) (high : Bool) (s : State),
    (s.inputHigh i = high → exec (.inputLevelChange i high) s = .next s.arbitrate) ∧
    (s.inputHigh i = !high → s.phase ≠ .normal →
      exec (.inputLevelChange i high) s = .next (s.setInput i high).arbitrate) ∧
    (s.inputHigh i = !high → s.phase = .normal → s.sized → s.unheeded →
      ∃ u : State, exec (.inputLevelChange i high) s = .next u.arbitrate ∧ u.pins = (s.setInput i high).pins ∧
        (∀ p, p < 24 → u.point p = pointAfter s.tables 0 (inputReadings (s.setInput i high)) p (s.point p)) ∧
        u.conds = ((inputReadings (s.setInput i high)).foldl (State.tookReading 0) (s.setInput i high)).conds ∧
        u.flue = ((inputReadings (s.setInput i high)).foldl (State.tookReading 0) (s.setInput i high)).flue ∧
        u.roles = s.roles ∧ u.lines = s.lines ∧ u.circuits = s.circuits ∧ u.seq = s.seq ∧ u.fault = s.fault ∧
        u.tables = s.tables ∧ u.staging = s.staging ∧ u.store = s.store ∧ u.ctlPort = s.ctlPort ∧
        u.fieldPort = s.fieldPort ∧ u.gate.up = s.gate.up ∧ u.gate.down = s.gate.down)

/-- The Point Unit's second mark: the samples of IN2 and IN3 first, then the age advance of every point in use, and then
what has changed is handed to the conditions and the flue. What the advance does: a point in NONE stands, any other ages by 1
up to 255, and one that is GOOD or IMPLAUSIBLE turns STALE when its age before the mark has reached `stale_limit`.
It rests on logs 2, 3, 4, 12, 46, 47. -/
def Obligations.PointMarkAgesPoints : Prop :=
  (∀ s : State,
     (s.phase = .normal → s.sized → s.unheeded →
       ∃ u : State, exec .pointSecondMark s = .next u.arbitrate ∧ u.pointTimer = 0 ∧
         (∀ p, p < 24 → u.point p =
           (if (s.tables.point p).inUse then
             afterMark (s.tables.point p) (pointAfter s.tables 0 (inputReadings s) p (s.point p))
           else s.point p)) ∧
         u.conds = s.tookMark.conds ∧ u.flue = s.tookMark.flue ∧
         u.roles = s.roles ∧ u.lines = s.lines ∧ u.circuits = s.circuits ∧ u.seq = s.seq ∧ u.fault = s.fault ∧
         u.pins = s.pins ∧ u.tables = s.tables ∧ u.staging = s.staging ∧ u.store = s.store ∧
         u.gate.up = s.gate.up ∧ u.gate.down = s.gate.down) ∧
     (s.phase = .checking ∨ s.phase = .fallback →
       exec .pointSecondMark s = .next (State.arbitrate { s with pointTimer := 0 }))) ∧
  (∀ (e : PointEntry) (r : PointRun),
    (r.quality = .none → afterMark e r = r) ∧
    (r.quality ≠ .none →
      (afterMark e r).age = (if r.age < 255 then r.age + 1 else min r.age 255) ∧ (afterMark e r).raw = r.raw ∧
      (afterMark e r).value = r.value ∧ (afterMark e r).filtered = r.filtered ∧
      (e.staleLimit ≤ r.age → (afterMark e r).quality = .stale) ∧
      (r.age < e.staleLimit → (afterMark e r).quality = r.quality)))

/-- Every step keeps R10's law: the filtered value of a point that is not NONE lies in its plausibility window. -/
def Obligations.StepKeepsFilteredInWindow : Prop :=
  ∀ s t : State, s.contactWindows → s.filteredInWindow → step s = .next t → t.contactWindows ∧ t.filteredInWindow

/-- The raw values of all ten kinds: ABOVE, BELOW and CONTACT, row by row; ROLE_CONFIRMED of a field role and of a direct
line; the four FLUE kinds from the flue's values; BOTH and EITHER from the held values of their inputs (R24 to R30). A
ROLE_CONFIRMED on a role without a target, which R21 keeps out of a committed table, is UNKNOWN, which is the model's choice.
What an evaluation makes of the raw value: FALSE and UNKNOWN are believed at once, TRUE at once with a hold of 0, after the
timer that it starts with a longer one, and TRUE again changes nothing. Which conditions an input marks, and the walk: every
condition in use that the input marks, or that combines one whose held value has changed, is evaluated once, upon the final
values of the conditions below it, and no other is; the changed ones are handed on in ascending order.
It rests on log 54. -/
def Obligations.RawValuesOfConditions : Prop :=
  (∀ (s : State) (e : CondEntry) (previous : Tri),
    (e.kind = .above →
      ((s.point e.point).quality ≠ .good → rawValue s e previous = .unknown) ∧
      (∀ f, (s.point e.point).quality = .good → (s.point e.point).filtered = some f →
        (e.threshold ≤ f → rawValue s e previous = .yes) ∧
        (f < e.threshold - e.hyst → rawValue s e previous = .no) ∧
        (e.threshold - e.hyst ≤ f → f < e.threshold →
          rawValue s e previous = if previous = .yes then .yes else .no))) ∧
    (e.kind = .below →
      ((s.point e.point).quality ≠ .good → rawValue s e previous = .unknown) ∧
      (∀ f, (s.point e.point).quality = .good → (s.point e.point).filtered = some f →
        (f ≤ e.threshold → rawValue s e previous = .yes) ∧
        (e.threshold + e.hyst < f → rawValue s e previous = .no) ∧
        (e.threshold < f → f ≤ e.threshold + e.hyst →
          rawValue s e previous = if previous = .yes then .yes else .no))) ∧
    (e.kind = .contact →
      ((s.point e.point).quality ≠ .good → rawValue s e previous = .unknown) ∧
      (∀ f, (s.point e.point).quality = .good → (s.point e.point).filtered = some f →
        rawValue s e previous = if f = e.level then .yes else .no)) ∧
    (e.kind = .roleConfirmed →
      let x := s.role e.role
      let r := s.tables.role e.role
      (∀ n c, r.target = .field n c →
        (∀ a, x.since = true → x.actual = some a →
          rawValue s e previous = if a ≤ x.applied + r.tolerance ∧ x.applied ≤ a + r.tolerance then .yes else .no) ∧
        (x.since = false → x.confirm.isSome = true → rawValue s e previous = .unknown) ∧
        (x.since = false → x.confirm = none → rawValue s e previous = .no)) ∧
      (∀ l, r.target = .line l →
        ((s.line l).settle.isSome = true → rawValue s e previous = .unknown) ∧
        ((s.line l).settle = none → rawValue s e previous = if s.sense l = (x.applied != 0) then .yes else .no)) ∧
      (r.target = .none → rawValue s e previous = .unknown)) ∧
    (e.kind = .flueDraught → rawValue s e previous = s.flue.draught) ∧
    (e.kind = .flueBlocked → rawValue s e previous = s.flue.blocked) ∧
    (e.kind = .flueSpill → rawValue s e previous = s.flue.spill) ∧
    (e.kind = .flueRise →
      (s.flue.rise = .passed → rawValue s e previous = .yes) ∧ (s.flue.rise = .failed → rawValue s e previous = .no) ∧
      (s.flue.rise = .idle ∨ s.flue.rise = .armed → rawValue s e previous = .unknown)) ∧
    (e.kind = .both →
      (s.held e.a = .no ∨ s.held e.b = .no → rawValue s e previous = .no) ∧
      (s.held e.a = .yes → s.held e.b = .yes → rawValue s e previous = .yes) ∧
      (s.held e.a ≠ .no → s.held e.b ≠ .no → s.held e.a = .unknown ∨ s.held e.b = .unknown →
        rawValue s e previous = .unknown)) ∧
    (e.kind = .either →
      (s.held e.a = .yes ∨ s.held e.b = .yes → rawValue s e previous = .yes) ∧
      (s.held e.a = .no → s.held e.b = .no → rawValue s e previous = .no) ∧
      (s.held e.a ≠ .yes → s.held e.b ≠ .yes → s.held e.a = .unknown ∨ s.held e.b = .unknown →
        rawValue s e previous = .unknown))) ∧
  (∀ (hold : Nat) (r : CondRun) (now : Tri),
    (now ≠ .yes → afterEvaluation hold r now = { raw := now, held := now, timer := none }) ∧
    (now = .yes → r.raw ≠ .yes → hold = 0 → afterEvaluation hold r now = { raw := .yes, held := .yes, timer := none }) ∧
    (now = .yes → r.raw ≠ .yes → 0 < hold →
      afterEvaluation hold r now = { raw := .yes, held := r.held, timer := some 0 }) ∧
    (now = .yes → r.raw = .yes → afterEvaluation hold r now = r)) ∧
  (∀ (e : CondEntry) (p r c : Nat) (kinds : List FlueKind),
    (marks (.point p) e = true ↔ (e.kind = .above ∨ e.kind = .below ∨ e.kind = .contact) ∧ e.point = p) ∧
    (marks (.role r) e = true ↔ e.kind = .roleConfirmed ∧ e.role = r) ∧
    (marks (.flue kinds) e = true ↔
      e.kind = .flueDraught ∧ .draught ∈ kinds ∨ e.kind = .flueBlocked ∧ .blocked ∈ kinds ∨
        e.kind = .flueSpill ∧ .spill ∈ kinds ∨ e.kind = .flueRise ∧ .rise ∈ kinds) ∧
    marks (.hold c) e = false ∧ marks .all e = true) ∧
  (∀ (s : State) (i : CondInput) (first : List Nat), s.conds.length = 32 →
    (∀ c, c < 32 → condCheck s.tables c = true) →
    let t := (walk i s first).1
    let changed := fun d => d ∈ first ∨ d < 32 ∧ (t.cond d).held ≠ (s.cond d).held
    let reached := fun (e : CondEntry) => e.inUse = true ∧
      (marks i e = true ∨ (e.kind = .both ∨ e.kind = .either) ∧ (changed e.a ∨ changed e.b))
    t = { s with conds := t.conds } ∧ t.conds.length = 32 ∧
    (∀ c, c < 32 → let e := s.tables.cond c
      (reached e → t.cond c = afterEvaluation e.hold (s.cond c) (rawValue t e (s.cond c).raw)) ∧
      (¬ reached e → t.cond c = s.cond c)) ∧
    (walk i s first).2 = first ++ (List.range 32).filter fun c => (t.cond c).held != (s.cond c).held)

/-- A hold expiry makes the held value TRUE and stops the timer, and the combinations follow by the walk; no point or role
changes while no consumer follows. A stopped timer, and one that has not run for its `hold`, does not expire. What the Sequence
Unit does with the change: a held value that violates the running step's supervision faults the top, which recycles; one that
proves the step advances it; the trigger condition of an inactive sequence adds its source, and the arbiter calls the sequence
or leaves it pending. What a hand-off set does in general: supervision first, then the proof, then every flag by its
condition's new value, a FALSE or UNKNOWN removing the source.
It rests on logs 2, 12, 36. -/
def Obligations.HoldExpiryBelieves : Prop :=
  (∀ (c : Nat) (s : State), c < 32 →
    (∀ t, (s.cond c).timer = some t → (s.tables.cond c).hold ≤ t → (s.tables.cond c).inUse = true → s.phase = .normal →
      s.sized → s.unheeded → (∀ i, i < 32 → condCheck s.tables i = true) →
      ∃ u : State, exec (.holdExpiry c) s = .next u.arbitrate ∧
        u.cond c = { raw := (s.cond c).raw, held := .yes, timer := none } ∧ (∀ i, i < c → u.cond i = s.cond i) ∧
        u = (walk (.hold c) (s.believes c) (if (s.cond c).held = .yes then [] else [c])).1 ∧
        u = { s with conds := u.conds }) ∧
    ((s.cond c).timer = none → exec (.holdExpiry c) s = .next s.arbitrate) ∧
    (∀ t, (s.cond c).timer = some t → t < (s.tables.cond c).hold → exec (.holdExpiry c) s = .next s.arbitrate)) ∧
  (∀ (c : Nat) (s : State) (time : Nat), c < 32 → (s.cond c).timer = some time → (s.tables.cond c).hold ≤ time →
    (s.cond c).held ≠ .yes → s.watchedBy c → s.phase = .normal → s.sized → s.locked = false →
    let b := s.believes c
    let free := ∀ n, n < 12 → (s.tables.seq n).inUse = true → (s.tables.seq n).trigger ≠ some c
    let heedless := ∀ x, s.seq.running = some x → (s.tables.step x.step).proving ≠ some c ∧
      ∀ e ∈ (s.tables.step x.step).supervision, e.cond ≠ c
    (∀ x n m below e, free → s.seq.running = some x → s.seq.chain = n :: below → n < 12 →
      e ∈ (s.tables.step x.step).supervision → e.cond = c → e.expected = false →
      (s.tables.step x.step).faultClass = .recycle → (s.seqRun n).recycle + 1 < (s.tables.seq n).recycleLimit →
      (s.tables.seq n).recoveryLink = some m → s.switchCheck m .recycle = none → b.seqEntersQuietly m →
      ∃ u : State, exec (.holdExpiry c) s = .next u.arbitrate ∧
        b.enteredSeq u m below [.fault (s.tables.step x.step).faultCode] ∧
        (u.seqRun n).recycle = (s.seqRun n).recycle + 1 ∧ u.fault.data = s.fault.data ∧
        u.fault.record = some
          { code := (s.tables.step x.step).faultCode, cls := .recycle, outcome := .recycled, limitMark := false,
            seq := some n, step := some x.step, line := none, time := s.faultTime, flueTemp := s.flueTemp }) ∧
    (∀ x n k, free → s.seq.running = some x → s.top = some n → x.markTaken = true → x.hold = false →
      (s.tables.step x.step).proving = some c → (s.tables.step x.step).provingValue = true →
      (∀ e ∈ (s.tables.step x.step).supervision, e.cond = c → e.expected = true) →
      (s.tables.step x.step).next = .step k → b.entersQuietly k →
      ∃ u : State, exec (.holdExpiry c) s = .next u.arbitrate ∧ b.enteredStep u n k) ∧
    (∀ n, n < 12 → (s.tables.seq n).inUse = true → (s.tables.seq n).trigger = some c → n ∉ s.seq.chain →
      (∀ k, k < 12 → k ≠ n → (s.tables.seq k).inUse = true → (s.tables.seq k).trigger ≠ some c) → heedless →
      (s.switchCheck n .trigger ≠ none → (∀ k, k < 12 → k ≠ n → (s.trigger k).stands = false) →
        exec (.holdExpiry c) s
          = .next (State.arbitrate { b with
              seq := { s.seq with triggers := s.seq.triggers.set n { s.trigger n with own := true } } })) ∧
      (∀ t x below, s.switchCheck n .trigger = none → s.seq.triggers = List.replicate 12 Trigger.clear →
        s.seq.chain = t :: below → t < 12 → s.seq.running = some x → b.seqEntersQuietly n →
        ∃ u : State, exec (.holdExpiry c) s = .next u.arbitrate ∧ b.calledSeq u n (t :: below) [] ∧
          (u.seqRun t).saved = some { step := x.step, elapsed := x.elapsed, allowance := x.allowance }))) ∧
  (∀ (set : List (Nat × Tri)) (w : Work),
    (w.st.seq.running = none → actHandoff set w = w.push [.applyTriggers set]) ∧
    (∀ x n, w.st.seq.running = some x → w.st.top = some n →
      let e := w.st.tables.step x.step
      let fails := ∃ v ∈ e.supervision, ∃ h, set.lookup v.cond = some h ∧
        (h = .unknown ∧ v.fail = true ∨ h = .yes ∧ v.expected = false ∨ h = .no ∧ v.expected = true)
      let proof := x.markTaken = true ∧ x.hold = false ∧ ∃ c h, e.proving = some c ∧ set.lookup c = some h ∧
        (h = .yes ∧ e.provingValue = true ∨ h = .no ∧ e.provingValue = false)
      (fails → actHandoff set w = w.push [.takeFault (w.st.stepFault n x.step), .applyTriggers set]) ∧
      (¬ fails → proof → actHandoff set w = w.push [.advance, .applyTriggers set]) ∧
      (¬ fails → ¬ proof → actHandoff set w = w.push [.applyTriggers set])) ∧
    (∀ n, n < 12 → w.st.seq.triggers.length = 12 →
      let f := (actApplyTriggers set w).st.trigger n
      let e := w.st.tables.seq n
      f.circuits = (w.st.trigger n).circuits ∧
      (∀ c, e.inUse = true → e.trigger = some c →
        (set.lookup c = some .yes → n ∉ w.st.seq.chain → f.own = true) ∧
        (set.lookup c = some .yes → n ∈ w.st.seq.chain → f.own = (w.st.trigger n).own) ∧
        (set.lookup c = some .no ∨ set.lookup c = some .unknown → f.own = false) ∧
        (set.lookup c = none → f.own = (w.st.trigger n).own)) ∧
      (e.inUse = false ∨ e.trigger = none → f.own = (w.st.trigger n).own)))

/-! ### The flue -/

/-- FLUE_DRAUGHT and FLUE_BLOCKED from the window after every event of the draught point, and in the reset form; the window
after a reading holds the eight newest values, and is empty when the point is not GOOD; with `D_block` below `D_req` the two
are never both TRUE (R44, R45). FLUE_SPILL from the two points where both are GOOD, and a sample of the rise test, which
passes it when the rise reaches the requirement. Which point drives which value: an event of the draught point moves the
window, one of the flue point samples the test, one of the spill or the room point recomputes FLUE_SPILL, and any other point
changes nothing; the values that changed are handed to the conditions together (R14, R40, R41). -/
def Obligations.DraughtAndBlockedValues : Prop :=
  (∀ (rec : FlueRecord) (good : Bool) (sample : Option Int) (f : FlueRun),
    let g := draughtInput rec good sample f
    (good = false → sample = none → g.window = []) ∧
    (∀ v, good = true → sample = some v → g.window = (f.window ++ [v]).drop (f.window.length - 7)) ∧
    (good = true → sample = none → g.window = f.window) ∧
    (g.window.length < 8 → g.draught = .unknown) ∧
    (8 ≤ g.window.length → (∀ v ∈ g.window, (rec.dReq : Int) ≤ v) → g.draught = .yes) ∧
    (8 ≤ g.window.length → (∃ v ∈ g.window, v < (rec.dReq : Int)) → g.draught = .no) ∧
    (g.window.length < 4 → g.blocked = .unknown) ∧
    (4 ≤ g.window.length → (∀ v ∈ g.window.drop (g.window.length - 4), v < (rec.dBlock : Int)) → g.blocked = .yes) ∧
    (4 ≤ g.window.length → (∃ v ∈ g.window.drop (g.window.length - 4), (rec.dBlock : Int) ≤ v) → g.blocked = .no) ∧
    (rec.dBlock < rec.dReq → ¬ (g.draught = .yes ∧ g.blocked = .yes)) ∧
    (f.window.length ≤ 8 → g.window.length ≤ 8)) ∧
  (FlueRun.reset.window = [] ∧ FlueRun.reset.draught = .unknown ∧ FlueRun.reset.blocked = .unknown) ∧
  (∀ (rec : FlueRecord) (spill room : Option Int),
    (spill = none ∨ room = none → spillValue rec spill room = .unknown) ∧
    (∀ x y, spill = some x → room = some y →
      (rec.sDelta ≤ x - y → spillValue rec spill room = .yes) ∧ (x - y < rec.sDelta → spillValue rec spill room = .no))) ∧
  (∀ (sample : Option Int) (f : FlueRun),
    (f.rise ≠ .armed ∨ sample = none → riseSample sample f = f) ∧
    (∀ v b q, f.rise = .armed → sample = some v → f.baseline = some b → f.required = some q →
      ((q : Int) ≤ v - b → riseSample sample f = { f with rise := .passed, riseTimer := none }) ∧
      (v - b < (q : Int) → riseSample sample f = f))) ∧
  (∀ (s : State) (p : Nat) (sample : Option Int),
    let rec' := s.tables.flue
    let good := fun (o : Option Nat) =>
      o.bind fun i => if (s.point i).quality = .good then (s.point i).filtered else none
    let window := draughtInput rec' (decide ((s.point p).quality = .good)) sample s.flue
    let test := riseSample sample s.flue
    let f := flueAfter s p sample
    (f = { s.flue with
      window := f.window, draught := f.draught, blocked := f.blocked, spill := f.spill, rise := f.rise
      riseTimer := f.riseTimer }) ∧
    (rec'.draughtPt = some p → f.window = window.window ∧ f.draught = window.draught ∧ f.blocked = window.blocked) ∧
    (rec'.draughtPt ≠ some p → f.window = s.flue.window ∧ f.draught = s.flue.draught ∧ f.blocked = s.flue.blocked) ∧
    (rec'.fluePt = some p → f.rise = test.rise ∧ f.riseTimer = test.riseTimer) ∧
    (rec'.fluePt ≠ some p → f.rise = s.flue.rise ∧ f.riseTimer = s.flue.riseTimer) ∧
    (rec'.spillPt = some p ∨ rec'.roomPt = some p → f.spill = spillValue rec' (good rec'.spillPt) (good rec'.roomPt)) ∧
    (rec'.spillPt ≠ some p → rec'.roomPt ≠ some p → f.spill = s.flue.spill)) ∧
  (∀ (p : Nat) (sample : Option Int) (w : Work),
    let f := flueAfter w.st p sample
    let changed := fun (k : FlueKind) => match k with
      | .draught => w.st.flue.draught ≠ f.draught
      | .blocked => w.st.flue.blocked ≠ f.blocked
      | .spill => w.st.flue.spill ≠ f.spill
      | .rise => w.st.flue.rise.value ≠ f.rise.value
    (w.st.phase ≠ .normal → actFlueInput p sample w = w) ∧
    (w.st.phase = .normal → (∀ k, ¬ changed k) → actFlueInput p sample w = w.withSt (w.st.setFlue f)) ∧
    (w.st.phase = .normal → (∃ k, changed k) → ∃ kinds, (∀ k, k ∈ kinds ↔ changed k) ∧
      actFlueInput p sample w = (w.withSt (w.st.setFlue f)).emit [.condWalk (.flue kinds)]))

/-- The rise window's expiry fails an ARMED test, keeps baseline and requirement, and hands FLUE_RISE to the conditions;
in any other state, and while the timer still runs, it does not happen.
It rests on logs 2, 12. -/
def Obligations.RiseWindowExpiryFails : Prop :=
  ∀ s : State,
    (s.phase = .normal → s.flue.rise = .armed → s.flue.riseTimer = some 0 → s.unheeded →
      exec .riseWindowExpiry s
        = .next ((walk (.flue [.rise]) (s.setFlue { s.flue with rise := .failed, riseTimer := none }) []).1).arbitrate) ∧
    (s.flue.rise ≠ .armed ∨ s.flue.riseTimer ≠ some 0 → exec .riseWindowExpiry s = .next s.arbitrate)

/-! ### Steps, sequences, the chain -/

/-- The minimum-dwell mark: taken once, when the elapsed dwell has reached the governing minimum, and of no effect before it,
as the mark of a step that has been left finds it (R70). An unproved step waits; a proved one advances to HOLD, enters the next
step, or ends its sequence: on END a lone sequence empties the chain; a nested one is followed by the member beneath, taken up
by its resume mode, or replaced by its stop link when it is a HEAT sequence without demand. A step with a `call` is entered and
suspended by the CALL. The dwells that govern carry the allowance of R53, and arming sets the requirement of R49.
It rests on logs 2, 12. -/
def Obligations.MinDwellMarkAdvances : Prop :=
  (∀ s : State,
    (s.seq.running = none → exec .minDwellMark s = .next s.arbitrate) ∧
    (∀ x, s.seq.running = some x → (x.markTaken = true ∨ x.elapsed < x.minDwell) →
      exec .minDwellMark s = .next s.arbitrate) ∧
    (∀ x, s.seq.running = some x → x.markTaken = false → x.minDwell ≤ x.elapsed →
      let y : Running := { x with markTaken := true }
      let e := s.tables.step x.step
      (s.proved x.step = false → exec .minDwellMark s = .next (s.setRunning (some y)).arbitrate) ∧
      (s.proved x.step = true → e.next = .hold →
        exec .minDwellMark s = .next (s.setRunning (some { y with hold := true })).arbitrate) ∧
      (∀ n k, s.proved x.step = true → e.next = .step k → s.top = some n → s.phase = .normal → s.sized → s.unwatched →
        s.entersQuietly k → ∃ u : State, exec .minDwellMark s = .next u.arbitrate ∧ s.enteredStep u n k) ∧
      (∀ n k m below, s.proved x.step = true → e.next = .step k → s.seq.chain = n :: below → n < 12 →
        s.supervisionFails k = false → (s.tables.step k).call = some m → s.switchCheck m .stepCall = none →
        s.phase = .normal → s.sized → s.unwatched → s.seqEntersQuietly m →
        ∃ u : State, exec .minDwellMark s = .next u.arbitrate ∧ s.calledSeq u m (n :: below) [.step n k] ∧
          (u.seqRun n).saved = some { step := k, elapsed := 0
                                      allowance := if (s.tables.step k).warmup then some (allowanceNow s) else none }) ∧
      (∀ n, s.proved x.step = true → e.next = .finish → s.seq.chain = [n] → n < 12 → s.noTriggers = true →
        s.seq.demand = false → s.phase = .normal → s.sized → s.unwatched →
        ∃ u : State, exec .minDwellMark s = .next u.arbitrate ∧ u.seq.chain = [] ∧ u.seq.running = none ∧
          (u.seqRun n).recycle = 0 ∧ (u.seqRun n).saved = none ∧ u.seq.demand = false ∧
          (∀ r, r < 12 → (u.role r).sequence = none) ∧ u.flue.rise = .idle ∧ u.flue.riseTimer = none ∧
          (∀ r, u.trace.opened = some r → r.ended.isSome = true) ∧ u.trace = (Work.idle s).traceFinish.st.trace ∧
          (u.notice .chain).flag = true ∧
          u.points = s.points ∧ u.fault = s.fault ∧ u.tables = s.tables ∧ u.store = s.store ∧ u.pins = s.pins ∧
          u.gate.up = s.gate.up ∧ u.gate.down = s.gate.down) ∧
      (∀ n l below c, s.proved x.step = true → e.next = .finish → s.seq.chain = n :: l :: below → n ≠ l → n < 12 →
        l < 12 → (s.seqRun l).saved = some c → s.noTriggers = true → s.phase = .normal → s.sized → s.unwatched →
        let took := fun (u : State) => u.seq.chain = l :: below ∧ (u.seqRun n).recycle = 0 ∧
          (u.seqRun l).saved = none ∧ (u.notice .chain).flag = true ∧ u.points = s.points ∧ u.fault = s.fault ∧
          u.tables = s.tables ∧ u.store = s.store ∧ u.trace = s.tracedTop [] l c.step ∧
          (∀ r, r < 12 → (u.role r).sequence = ((s.tables.step c.step).output r).claim)
        (s.replaceCause l = none → (s.tables.seq l).resumeMode = .restartStep → s.entersQuietly c.step →
          ∃ u : State, exec .minDwellMark s = .next u.arbitrate ∧ took u ∧
            u.seq.running = some (runningOf (s.tables.step c.step) c.step 0
              (if (s.tables.step c.step).warmup then some (allowanceNow s) else none))) ∧
        (s.replaceCause l = none → (s.tables.seq l).resumeMode = .continueStep → s.supervisionFails c.step = false →
          let z := runningOf (s.tables.step c.step) c.step c.elapsed c.allowance
          (z.minDwell ≤ z.elapsed → s.proved c.step = false) → (z.maxDwell = 0 ∨ z.elapsed < z.maxDwell) →
          ∃ u : State, exec .minDwellMark s = .next u.arbitrate ∧ took u ∧
            u.seq.running = some { z with markTaken := decide (z.minDwell ≤ z.elapsed) }) ∧
        (∀ m, (s.tables.seq l).cls = .heat → s.seq.demand = false → (s.tables.seq l).stopLink = some m →
          s.switchCheck m .demandOff = none → m ≠ n → s.seqEntersQuietly m →
          ∃ u : State, exec .minDwellMark s = .next u.arbitrate ∧ s.enteredSeq u m below [] ∧
            (u.seqRun n).recycle = 0 ∧ (u.seqRun l).saved = none)))) ∧
  (∀ (rec : FlueRecord) (b : Int),
    (b ≤ rec.tCold → requiredRise rec b = rec.rCold) ∧
    (rec.tCold < b → rec.tWarm ≤ b → requiredRise rec b = rec.rWarm) ∧
    (rec.tCold < b → b < rec.tWarm → rec.rWarm ≤ rec.rCold →
      (requiredRise rec b : Int)
        = rec.rCold - ((rec.rCold : Int) - rec.rWarm) * (b - rec.tCold) / (rec.tWarm - rec.tCold))) ∧
  (∀ (rec : FlueRecord) (f : Int),
    warmupAllowance rec none = rec.aMax ∧
    (rec.tCold ≤ f → warmupAllowance rec (some f) = 0) ∧
    (f < rec.tCold → (warmupAllowance rec (some f) : Int) = min (rec.aMax : Int) ((rec.tCold - f) * rec.kW / 10)))

/-- The max-dwell expiry: none without a maximum, after a HOLD advance, or before the elapsed dwell has reached the governing
maximum, as the expiry of a step that has been left finds it (R70); a GOTO enters the named step.
It rests on logs 2, 12. -/
def Obligations.MaxDwellExpiryActs : Prop :=
  ∀ (s : State) (x : Running) (n : Nat), s.seq.running = some x → s.top = some n →
    (x.maxDwell = 0 ∨ x.hold = true ∨ x.elapsed < x.maxDwell → exec .maxDwellExpiry s = .next s.arbitrate) ∧
    (∀ k, x.maxDwell ≠ 0 → x.hold = false → x.maxDwell ≤ x.elapsed → (s.tables.step x.step).onTimeout = .goto k →
      s.phase = .normal → s.sized → s.unwatched → s.entersQuietly k →
      ∃ u : State, exec .maxDwellExpiry s = .next u.arbitrate ∧ s.enteredStep u n k)

/-- A timeout fault of class RECYCLE below its limit: counted, recorded as RECYCLED, and the recovery sequence entered in
the faulting sequence's place.
It rests on logs 2, 12. -/
def Obligations.TimeoutFaultRecycles : Prop :=
  ∀ (s : State) (x : Running) (n m : Nat) (below : List Nat),
    s.seq.running = some x → s.seq.chain = n :: below → n < 12 → x.maxDwell ≠ 0 → x.hold = false →
    x.maxDwell ≤ x.elapsed → (s.tables.step x.step).onTimeout = .fault → (s.tables.step x.step).faultClass = .recycle →
    (s.seqRun n).recycle + 1 < (s.tables.seq n).recycleLimit → (s.tables.seq n).recoveryLink = some m →
    s.switchCheck m .recycle = none → s.locked = false → s.phase = .normal → s.sized → s.unwatched →
    s.seqEntersQuietly m →
    ∃ u : State, exec .maxDwellExpiry s = .next u.arbitrate ∧
      s.enteredSeq u m below [.fault (s.tables.step x.step).faultCode] ∧
      (u.seqRun n).recycle = (s.seqRun n).recycle + 1 ∧ u.fault.data = s.fault.data ∧
      u.fault.record = some
        { code := (s.tables.step x.step).faultCode, cls := .recycle, outcome := .recycled, limitMark := false,
          seq := some n, step := some x.step, line := none, time := s.faultTime, flueTemp := s.flueTemp }

/-- DEMAND ON that can be served, and RUN on an empty chain: the flag is set, the sequence is entered, the reply is
OK. RUN is refused with NOT_IN_USE in fallback mode and for a sequence that is not in use, NOT_PERMITTED for one that is not a
SERVICE sequence, ACTIVE for one on the chain, LOCKED in a locked part, and CHAIN_BUSY on a chain.
It rests on log 12. -/
def Obligations.DemandOnAndRunEnter : Prop :=
  (∀ (s : State) (src n : Byte), s.manages src → s.committing = false → n.toNat < 12 →
    let e := s.tables.seq n.toNat
    let refused := fun reason => exec (.run src n) s = .next ((s.heardFrom src).reply src (.refused reason [])).arbitrate
    (s.phase = .fallback → refused reasonNotInUse) ∧
    (s.phase = .normal →
      (e.inUse = false → refused reasonNotInUse) ∧
      (e.inUse = true → e.cls ≠ .service → refused reasonNotPermitted) ∧
      (e.inUse = true → e.cls = .service → n.toNat ∈ s.seq.chain → refused reasonActive) ∧
      (e.inUse = true → e.cls = .service → n.toNat ∉ s.seq.chain → s.locked = true → refused reasonLocked) ∧
      (e.inUse = true → e.cls = .service → n.toNat ∉ s.seq.chain → s.locked = false → s.seq.chain ≠ [] →
        refused reasonChainBusy))) ∧
  ∀ (s : State) (src : Byte), s.manages src → s.phase = .normal → s.seq.chain = [] → s.sized → s.unwatched →
    let h := s.heardFrom src
    (h.switchCheck s.tables.device.startSeq .demand = none → s.seqEntersQuietly s.tables.device.startSeq →
      ∃ u : State, exec (.demandOn src) s = .next u.arbitrate ∧ s.enteredSeq u s.tables.device.startSeq [] [] ∧
        u.seq.demand = true ∧ u.gate.reply = (h.reply src (.ok [])).gate.reply ∧ u.fault = s.fault) ∧
    (∀ n : Byte, n.toNat < 12 → h.switchCheck n.toNat .run = none → s.seqEntersQuietly n.toNat →
      ∃ u : State, exec (.run src n) s = .next u.arbitrate ∧ s.enteredSeq u n.toNat [] [] ∧
        u.seq.demand = s.seq.demand ∧ u.gate.reply = (h.reply src (.ok [])).gate.reply ∧ u.fault = s.fault)

/-- DEMAND ON that must wait sets the flag and no more; DEMAND OFF without a HEAT top clears it and no more; the reply
tells OK from DEFERRED by the HEAT sequences on the chain.
It rests on log 12. -/
def Obligations.DemandWaitsOrIsCleared : Prop :=
  ∀ (s : State) (src : Byte), s.manages src → s.committing = false →
    let h := s.heardFrom src
    let d := h.setSeq { h.seq with demand := true }
    (d.demandServed = false ∨ (d.switchCheck s.tables.device.startSeq .demand).isSome = true →
      exec (.demandOn src) s = .next (d.reply src (if s.heatOnChain then .ok [] else .deferred)).arbitrate) ∧
    (s.heatTop = false →
      exec (.demandOff src) s
        = .next ((h.setSeq { h.seq with demand := false }).reply src
            (if s.heatOnChain then .deferred else .ok [])).arbitrate)

/-- DEMAND OFF with a HEAT top, and STOP with a HEAT or SERVICE top: the stop link is entered in its place, and the reply is
OK; DEMAND OFF clears the flag, STOP keeps it. STOP is refused with NOT_IN_USE in fallback mode, NOT_PERMITTED without a HEAT
or SERVICE top, and with the failing check's reason for a stop link that cannot be entered; the top then stands.
It rests on log 12. -/
def Obligations.StopLinkEntered : Prop :=
  (∀ (s : State) (src : Byte), s.manages src → s.committing = false →
    let refused := fun reason => exec (.stop src) s = .next ((s.heardFrom src).reply src (.refused reason [])).arbitrate
    (s.phase = .fallback → refused reasonNotInUse) ∧
    (s.phase = .normal → s.seq.chain = [] → refused reasonNotPermitted) ∧
    (∀ t below, s.phase = .normal → s.seq.chain = t :: below →
      let cls := (s.tables.seq t).cls
      (cls ≠ .heat → cls ≠ .service → refused reasonNotPermitted) ∧
      (cls = .heat ∨ cls = .service →
        ((s.tables.seq t).stopLink = none → refused reasonNotInUse) ∧
        ∀ m, (s.tables.seq t).stopLink = some m →
          let e := s.tables.seq m
          (12 ≤ m ∨ e.inUse = false → refused reasonNotInUse) ∧
          (m < 12 → e.inUse = true → e.cls ≠ .stop → refused reasonNotPermitted) ∧
          (m < 12 → e.inUse = true → e.cls = .stop → m ∈ s.seq.chain → refused reasonActive) ∧
          (m < 12 → e.inUse = true → e.cls = .stop → m ∉ s.seq.chain → s.locked = true → refused reasonLocked)))) ∧
  ∀ (s : State) (src : Byte) (t m : Nat) (below : List Nat), s.manages src → s.phase = .normal →
    s.seq.chain = t :: below → (s.tables.seq t).stopLink = some m → s.sized → s.unwatched → s.seqEntersQuietly m →
    let h := s.heardFrom src
    ((s.tables.seq t).cls = .heat → h.switchCheck m .demandOff = none →
      ∃ u : State, exec (.demandOff src) s = .next u.arbitrate ∧ s.enteredSeq u m below [] ∧ u.seq.demand = false ∧
        u.gate.reply = (h.reply src (.ok [])).gate.reply ∧ u.fault = s.fault) ∧
    ((s.tables.seq t).cls = .heat ∨ (s.tables.seq t).cls = .service → h.switchCheck m .stopLink = none →
      ∃ u : State, exec (.stop src) s = .next u.arbitrate ∧ s.enteredSeq u m below [] ∧
        u.seq.demand = s.seq.demand ∧
        u.gate.reply = (h.reply src (.ok [])).gate.reply ∧ u.fault = s.fault)

/-- The expiry of the absence timer: ABSENT, the timer stopped, demand cleared; on an empty chain nothing more, and a HEAT
or SERVICE top is replaced by its stop link. A stopped timer, and one that a frame has started again, does not expire.
It rests on logs 2, 12. -/
def Obligations.AbsenceBegins : Prop :=
  ∀ s : State,
    (s.gate.absence ≠ some 0 → exec .absenceTimerExpiry s = .next s.arbitrate) ∧
    (s.gate.absence = some 0 → s.seq.chain = [] →
      exec .absenceTimerExpiry s
        = .next (State.arbitrate { s with
            gate := { s.gate with present := false, absence := none }, seq := { s.seq with demand := false } })) ∧
    (∀ t m below, s.gate.absence = some 0 → s.seq.chain = t :: below → s.phase = .normal → s.sized →
      s.unwatched → (s.tables.seq t).stopLink = some m → s.seqEntersQuietly m →
      ((s.tables.seq t).cls = .heat ∧ s.switchCheck m .demandOff = none
        ∨ (s.tables.seq t).cls = .service ∧ s.switchCheck m .absence = none) →
      ∃ u : State, exec .absenceTimerExpiry s = .next u.arbitrate ∧ s.enteredSeq u m below [] ∧
        u.seq.demand = false ∧ u.gate.present = false ∧ u.gate.absence = none ∧ u.fault = s.fault)

/-! ### Frost -/

/-- The deficit and the debt of every circuit in use at a mark (R102), whatever its stage, and the stage after it, row by row
of Table 31. -/
def Obligations.DebtAtMark : Prop :=
  ∀ (s : State) (c : Nat), (s.tables.circuit c).inUse = true →
    let e := s.tables.circuit c
    let p := s.point e.point
    let n := s.markedCircuit c
    (∀ f, p.quality = .good → p.filtered = some f → n.last = some (e.tF - f, .point)) ∧
    (p.quality ≠ .good → n.last = some ((e.dFb : Int), .fallback)) ∧
    (∀ d src, n.last = some (d, src) →
      (0 < d → (n.debt : Int) = min ((s.circuit c).debt + d) 16777215) ∧
      (d ≤ 0 → (n.debt : Int) = max ((s.circuit c).debt + d) 0)) ∧
    ((s.circuit c).stage = .quiet →
      (e.l1 ≤ n.debt → n.stage = .circulate) ∧ (n.debt < e.l1 → n.stage = .quiet)) ∧
    ((s.circuit c).stage = .circulate →
      (∀ q, e.l2 ≤ n.debt → e.tier2 = some q → q ∈ s.seq.chain → n.stage = .firing) ∧
      (∀ q, e.l2 ≤ n.debt → e.tier2 = some q → q ∉ s.seq.chain → n.stage = .firingRequested ∧ n.blocked = s.locked) ∧
      (n.debt < e.l2 ∨ e.tier2 = none →
        (∀ f, n.debt = 0 → p.quality = .good → p.filtered = some f → e.tF + e.margin ≤ f → n.stage = .quiet) ∧
        (n.debt ≠ 0 ∨ p.quality ≠ .good ∨ (∃ f, p.filtered = some f ∧ f < e.tF + e.margin) → n.stage = .circulate))) ∧
    ((s.circuit c).stage = .firingRequested →
      (n.debt < e.l1 → n.stage = .circulate ∧ n.blocked = false) ∧
      (e.l1 ≤ n.debt → n.stage = .firingRequested ∧ n.blocked = (s.circuit c).blocked)) ∧
    ((s.circuit c).stage = .firing → n.stage = .firing)

/-- The Frost Unit's second mark: every circuit takes its mark and the claims follow the circuits that moved. When no request
begins or ends, nothing of the points, sequences and faults changes. A request that the arbiter must leave pending becomes a
source of its sequence's flag, and one that ends is removed from it. In a locked part with its chain empty a request sets
`blocked`, claims ALARM and raises FROST_BLOCKED, which fills the newest entry's empty second fault. A request that the arbiter
can serve is called at once over the top, which is suspended where it stands, and its circuit is FIRING with the flag cleared.
The FROST claim on a role is the highest of the claims of the circuits that are not QUIET. No circuit is marked without
committed tables.
It rests on logs 2, 12. -/
def Obligations.FrostMarkTaken : Prop :=
  (∀ s : State,
    let m := s.markedCircuits
    let begins := fun c => (s.circuit c).stage = .circulate ∧ (s.markedCircuit c).stage = .firingRequested
    let ends := fun c => (s.circuit c).stage = .firingRequested ∧ (s.markedCircuit c).stage = .circulate
    let calm := fun (u : State) => u.frostTimer = 0 ∧
      (movedCircuits s m ≠ [] → ∀ r, r < 12 → (u.role r).frost = m.frostClaim r) ∧
      (movedCircuits s m = [] → u.roles = s.roles) ∧
      u.points = s.points ∧ u.flue = s.flue ∧ u.pins = s.pins ∧ u.tables = s.tables ∧ u.staging = s.staging ∧
      u.gate.up = s.gate.up ∧ u.gate.down = s.gate.down
    let requested := fun (u : State) =>
      u.seq = { s.seq with triggers := u.seq.triggers } ∧
      ∀ n, n < 12 → (u.trigger n).own = (s.trigger n).own ∧
        ∀ c, c < 6 →
          ((s.tables.circuit c).tier2 = some n → begins c → (u.trigger n).circuits.getD c false = true) ∧
          ((s.tables.circuit c).tier2 = some n → ends c → (u.trigger n).circuits.getD c false = false) ∧
          ((s.tables.circuit c).tier2 ≠ some n ∨ ¬ begins c ∧ ¬ ends c →
            (u.trigger n).circuits.getD c false = (s.trigger n).circuits.getD c false)
    (s.phase = .normal → s.sized → s.unheeded → (∀ c, c < 6 → ¬ begins c ∧ ¬ ends c) →
      ∃ u : State, exec .frostSecondMark s = .next u.arbitrate ∧ calm u ∧
        (∀ c, c < 6 → u.circuit c = s.markedCircuit c) ∧
        u.seq = s.seq ∧ u.fault = s.fault ∧ u.trace = s.trace ∧ u.store = s.store) ∧
    (s.phase = .normal → s.sized → s.unheeded → s.locked = false → s.seq.demand = false →
      (∀ n, n < 12 → s.switchCheck n .trigger ≠ none ∧ s.switchCheck n .trigger ≠ some .active) →
      ∃ u : State, exec .frostSecondMark s = .next u.arbitrate ∧ calm u ∧ requested u ∧
        (∀ c, c < 6 → u.circuit c = s.markedCircuit c) ∧
        u.fault = s.fault ∧ u.trace = s.trace ∧ u.store = s.store) ∧
    (∀ c n, s.phase = .normal → s.sized → s.unheeded → s.locked = true → s.seq.chain = [] → c < 6 →
      (s.tables.circuit c).inUse = true → (s.tables.circuit c).tier2 = some n → n < 12 → begins c →
      (∀ d, c < d → d < 6 → ¬ begins d) →
      ∃ u : State, exec .frostSecondMark s = .next u.arbitrate ∧ calm u ∧ requested u ∧
        (∀ d, d < 6 → u.circuit d = s.markedCircuit d) ∧ (u.circuit c).blocked = true ∧
        (∃ v, (u.role 7).frost = some v ∧ 1000 ≤ v) ∧ (u.notice .fault).flag = true ∧
        u.fault.record = some
          { code := 68, cls := .notice, outcome := .whileLocked, limitMark := false, seq := some n, step := none
            line := none, time := s.faultTime, flueTemp := s.flueTemp } ∧
        (∀ e rest, s.fault.data.history = e :: rest → e.second = none →
          u.fault.data = { s.fault.data with history := { e with second := some 68 } :: rest }) ∧
        (∀ e rest, s.fault.data.history = e :: rest → e.second.isSome = true → u.fault.data = s.fault.data)) ∧
    (∀ c n t x below, s.phase = .normal → s.sized → s.unwatched → s.locked = false → s.seq.chain = t :: below → t < 12 →
      s.seq.running = some x → s.seq.triggers = List.replicate 12 Trigger.clear → c < 6 → begins c → (s.tables.circuit c).inUse = true →
      (s.tables.circuit c).tier2 = some n → (∀ d, d < 6 → d ≠ c → ¬ begins d ∧ ¬ ends d) →
      s.switchCheck n .trigger = none → s.seqEntersQuietly n →
      ∃ u : State, exec .frostSecondMark s = .next u.arbitrate ∧ s.calledSeq u n (t :: below) [] ∧
        (u.seqRun t).saved = some { step := x.step, elapsed := x.elapsed, allowance := x.allowance } ∧
        u.trigger n = Trigger.clear ∧
        u.circuit c = { s.markedCircuit c with stage := .firing, blocked := false }) ∧
    (s.phase = .checking ∨ s.phase = .fallback →
      exec .frostSecondMark s = .next (State.arbitrate { s with frostTimer := 0 }))) ∧
  (∀ (s : State) (r : Nat),
    let claims := fun c v => (s.tables.circuit c).inUse = true ∧ (s.circuit c).stage ≠ .quiet ∧
      ∃ p : TierRole, ((s.tables.circuit c).tierA = some p ∨ (s.tables.circuit c).tierB = some p) ∧ p.role = r ∧
        p.output.claim = some v
    let alarm := fun v => r = 7 ∧ v = 1000 ∧ ∃ c, c < 6 ∧ (s.tables.circuit c).inUse = true ∧ (s.circuit c).blocked = true
    (∀ v, s.frostClaim r = some v →
      ((∃ c, c < 6 ∧ claims c v) ∨ alarm v) ∧ (∀ c w, c < 6 → claims c w → w ≤ v) ∧ (∀ w, alarm w → w ≤ v)) ∧
    (s.frostClaim r = none → (∀ c v, c < 6 → ¬ claims c v) ∧ ∀ v, ¬ alarm v))

/-- Every step keeps the laws of R81 and R104: at most four sequences on the chain, none twice, all in use; debts in range,
and FIRING only while the tier-2 sequence is on the chain. -/
def Obligations.StepKeepsChainAndFrostLaws : Prop :=
  ∀ s t : State, s.chainLaw → s.frostLaw → step s = .next t → t.chainLaw ∧ t.frostLaw

/-! ### Roles and lines -/

/-- The three timers of a field role: the refresh expiry places the applied value again and renews an answered
confirmation, the confirm expiry hands the role to the conditions, and the heard timer's end makes it unheard; a timer that
is stopped or still runs does not expire.
It rests on logs 2, 12. -/
def Obligations.FieldRoleTimersExpire : Prop :=
  ∀ (r : Nat) (s : State),
    (∀ n c, s.phase = .normal → (s.role r).refresh = some 0 → (s.tables.role r).target = .field n c →
      let e := s.tables.role r
      let x := s.role r
      let y := if x.since then { x with actual := none, since := false, confirm := some (e.confirmWindow * 10) } else x
      exec (.refreshExpiry r) s
        = .next ((s.setRole r { y with refresh := some (s.tables.device.refresh * 10) }).setSlot r
            (some { node := n, channel := c, last := some x.applied, pending := true, newer := true })).arbitrate) ∧
    ((s.role r).refresh ≠ some 0 → exec (.refreshExpiry r) s = .next s.arbitrate) ∧
    (s.phase = .normal → (s.role r).confirm = some 0 → s.unheeded →
      exec (.confirmExpiry r) s
        = .next ((walk (.role r) (s.setRole r { s.role r with confirm := none }) []).1).arbitrate) ∧
    ((s.role r).confirm ≠ some 0 → exec (.confirmExpiry r) s = .next s.arbitrate) ∧
    ((s.role r).heard = some 0 →
      exec (.heardTimerExpiry r) s = .next (s.setRole r { s.role r with heard := none }).arbitrate) ∧
    ((s.role r).heard ≠ some 0 → exec (.heardTimerExpiry r) s = .next s.arbitrate)

/-- Readback that raises no fault: a settle expiry and a sense change while settled set the mismatch mark to the
disagreement; a sense change while the settle runs is recorded; each is handed to the conditions of the line's role.
It rests on logs 2, 12. -/
def Obligations.ReadbackCompared : Prop :=
  ∀ (l : Nat) (s : State), l < 8 → s.phase = .normal → s.sized → s.unheeded →
    let handed := fun (u : State) => ((s.tables.roleOfLine l).map fun r => (walk (.role r) u []).1).getD u
    ((s.line l).settle = some 0 →
      (s.sense l = (s.line l).commanded ∨ (s.line l).mismatch = true) →
      exec (.settleExpiry l) s
        = .next (handed (s.setLine l { commanded := (s.line l).commanded, settle := none
                                       mismatch := s.sense l != (s.line l).commanded })).arbitrate) ∧
    ((s.line l).settle ≠ some 0 → exec (.settleExpiry l) s = .next s.arbitrate) ∧
    (∀ on, s.sense l = !on → (s.line l).settle.isSome = true →
      exec (.senseChange l on) s = .next (handed (s.setSense l on)).arbitrate) ∧
    (∀ on, s.sense l = !on → (s.line l).settle = none → (on = (s.line l).commanded ∨ (s.line l).mismatch = true) →
      exec (.senseChange l on) s
        = .next (handed ((s.setSense l on).setLine l
            { s.line l with mismatch := on != (s.line l).commanded })).arbitrate)

/-- LINE_MISMATCH on a line of no safety role, while unlocked: the mark is set, the fault is recorded as NOTED with its
line, the FAULT notice is raised, and the chain, the roles and the lockout data stand. On a line of roles 0 to 2, at a settle
expiry and at a sense change while settled, the mark is set and the part locks out with the fault and enters its purge. On an
empty chain the fault names no sequence and no step.
It rests on logs 2, 12. -/
def Obligations.LineMismatchNoted : Prop :=
  (∀ (l : Nat) (s : State), l < 8 → s.locksQuietly → (s.line l).mismatch = false →
    (∃ r, r < 3 ∧ (s.tables.role r).target = .line l) →
    let fault : FaultIn :=
      { code := 65, cls := .lockout, seq := s.top, step := s.seq.running.map (·.step), line := some l }
    ((s.line l).settle = some 0 → s.sense l = !(s.line l).commanded →
      ∃ u : State, exec (.settleExpiry l) s = .next u.arbitrate ∧ s.lockedOut u fault false ∧ (u.line l).mismatch = true) ∧
    (∀ on, s.sense l = !on → (s.line l).settle = none → on = !(s.line l).commanded →
      ∃ u : State, exec (.senseChange l on) s = .next u.arbitrate ∧ (s.setSense l on).lockedOut u fault false ∧
        (u.line l).mismatch = true)) ∧
  ∀ (l : Nat) (s : State), l < 8 → s.phase = .normal → s.sized → s.unheeded → s.locked = false →
    (s.line l).settle = some 0 → s.sense l = !(s.line l).commanded → (s.line l).mismatch = false →
    (∀ r, r < 3 → (s.tables.role r).target ≠ .line l) →
    ∃ u : State, exec (.settleExpiry l) s = .next u.arbitrate ∧
      u.line l = { commanded := (s.line l).commanded, settle := none, mismatch := true } ∧
      u.fault.record = some
        { code := 65, cls := .notice, outcome := .noted, limitMark := false, seq := s.top,
          step := s.seq.running.map (·.step), line := some l, time := s.faultTime, flueTemp := s.flueTemp } ∧
      u.fault.data = s.fault.data ∧ (u.notice .fault).flag = true ∧
      u.trace = s.traced [.fault 65] ∧
      u.seq = s.seq ∧ u.roles = s.roles ∧ u.points = s.points ∧ u.circuits = s.circuits ∧ u.store = s.store ∧
      (∀ k, k ≠ l → u.line k = s.line k)

/-- LIMIT opening on an idle part with no fuel role ON: the LIMIT slots are filled and LIMIT_OPEN is a NOTICE that is only
noted. With a fuel role ON or a sequence on the chain the slots are filled, and LIMIT_OPEN locks the part out, which enters its
purge. LIMIT closing empties the slots. A level that does not change is no event.
It rests on logs 12, 14. -/
def Obligations.LimitMoves : Prop :=
  ∀ s : State,
    (s.pins.limitClosed = false → exec .limitOpening s = .next s.arbitrate) ∧
    (s.pins.limitClosed = true → exec .limitClosing s = .next s.arbitrate) ∧
    (s.pins.limitClosed = true → s.phase = .normal → s.locked = false → s.seq.chain = [] →
      (∀ r, r < 3 → (s.role r).applied = 0) → s.sized → s.appliedLaw → s.unheeded →
      ∃ u : State, exec .limitOpening s = .next u.arbitrate ∧ u.pins = { s.pins with limitClosed := false } ∧
        (∀ r, r < 3 → (u.role r).limit = some 0 ∧ (u.role r).applied = 0 ∧ (u.role r).owner = .limit) ∧
        (∀ r, 3 ≤ r → r < 12 → (u.role r).limit = none) ∧
        u.fault.record = some
          { code := 64, cls := .notice, outcome := .noted, limitMark := false, seq := none,
            step := s.seq.running.map (·.step), line := none, time := s.faultTime, flueTemp := s.flueTemp } ∧
        u.trace = s.traced [.fault 64] ∧
        u.fault.data = s.fault.data ∧ u.seq = s.seq ∧ u.points = s.points ∧ u.circuits = s.circuits) ∧
    (s.pins.limitClosed = true → s.locksQuietly → (∃ r, r < 3 ∧ (s.role r).applied ≠ 0) ∨ s.seq.chain ≠ [] →
      ∃ u : State, exec .limitOpening s = .next u.arbitrate ∧
        (s.setPins { s.pins with limitClosed := false }).lockedOut u
          { code := 64, cls := .lockout, seq := s.top, step := s.seq.running.map (·.step), line := none } false ∧
        (∀ r, r < 12 → (u.role r).limit = if r < 3 then some 0 else none) ∧
        (∀ r, r < 3 → (u.role r).applied = 0 ∧ (u.role r).owner = .limit)) ∧
    (s.pins.limitClosed = false → s.phase = .normal → s.sized → s.unheeded →
      ∃ u : State, exec .limitClosing s = .next u.arbitrate ∧ u.pins = { s.pins with limitClosed := true } ∧
        (∀ r, r < 12 → (u.role r).limit = none) ∧
        u.seq = s.seq ∧ u.points = s.points ∧ u.circuits = s.circuits ∧ u.fault = s.fault ∧ u.trace = s.trace)

/-- SET ROLE: clamped to the role's range, made 0 or 1000 for a SWITCHED role, and retained; APPLIED with the controller as
owner and a substitution placed, also for an unchanged value, when nothing above claims the role, HELD with the applied value
standing when something does, NOT_PERMITTED on a role it may not command, NOT_IN_USE in fallback mode. What a change of a
role's claims does, for every role and every claimant: owner and applied value become those of the highest claim; a changed
value is handed to the conditions, starts the readback of a line whose command it changes, and on a field role starts the
confirmation again and places the substitution, unless the controller's own frame carries the value. The refresh timer of a
field role stops under CONTROLLER and DEFAULT, starts with each placement and when the owner rises above CONTROLLER, and
otherwise runs on. What SEQUENCE and LOCKOUT, LIMIT, and FROST claim is handed over in this way role by role, the lowest
first.
It rests on logs 11, 12, 20, 43. -/
def Obligations.SetRoleAnswered : Prop :=
  (∀ (s : State) (src role : Byte) (v : Word), s.manages src → s.committing = false → role.toNat < 12 →
     let r := role.toNat
     let h := s.heardFrom src
     let q := clampRequest (s.tables.role r) v.toNat
     (s.phase = .normal → s.sized → s.unheeded → (s.tables.role r).ctlAllowed = true → (s.role r).limit = none →
       (s.role r).lockout = none → (s.role r).sequence = none → (s.role r).frost = none →
       ∃ u : State, exec (.setRole src role v) s = .next u.arbitrate ∧
         u.gate.reply = (h.reply src .applied).gate.reply ∧
         (let x := s.role r
          let e := s.tables.role r
          let y : RoleRun := { x with ctlFilled := true, requested := q, applied := q, owner := .controller }
          (∀ n c, e.target = .field n c →
            u.slot r = some { node := n, channel := c, last := some q, pending := true, newer := true } ∧
            u.lines = s.lines ∧ (x.applied = q → u.role r = { y with refresh := none }) ∧
            (x.applied ≠ q → u.role r = { y with
              actual := none, since := false, confirm := some (e.confirmWindow * 10), refresh := none })) ∧
          (∀ l, e.target = .line l → l < 8 → u.role r = y ∧ u.gate.slots = s.gate.slots ∧
            (∀ k, k ≠ l → u.line k = s.line k) ∧
            u.line l = (if x.applied = q ∨ (s.line l).commanded = (q != 0) then s.line l
              else { s.line l with commanded := q != 0, settle := some 2 })) ∧
          (e.target = .none → u.role r = y ∧ u.lines = s.lines ∧ u.gate.slots = s.gate.slots) ∧
          (x.applied = q → u.conds = s.conds) ∧
          (x.applied ≠ q → u.conds = (walk (.role r) { u with conds := s.conds } []).1.conds)) ∧
         (∀ k, k ≠ r → u.role k = s.role k) ∧ u.seq = s.seq ∧ u.points = s.points ∧ u.circuits = s.circuits ∧
         u.fault = s.fault ∧ u.store = s.store) ∧
     (s.phase = .normal → s.sized → s.unheeded → s.appliedLaw → (s.tables.role r).ctlAllowed = true →
       ((s.role r).limit.isSome = true ∨ (s.role r).lockout.isSome = true ∨ (s.role r).sequence.isSome = true
         ∨ (s.role r).frost.isSome = true) →
       ∃ u : State, exec (.setRole src role v) s = .next u.arbitrate ∧
         u.gate.reply = (h.reply src .held).gate.reply ∧
         u.role r = { s.role r with ctlFilled := true, requested := q } ∧
         (∀ k, k ≠ r → u.role k = s.role k) ∧ u.lines = s.lines ∧ u.gate.slots = s.gate.slots ∧ u.seq = s.seq ∧
         u.conds = s.conds ∧ u.fault = s.fault ∧ u.store = s.store) ∧
     (s.phase = .normal → (s.tables.role r).ctlAllowed = false →
       exec (.setRole src role v) s = .next (h.reply src (.refused reasonNotPermitted [])).arbitrate) ∧
     (s.phase = .fallback →
       exec (.setRole src role v) s = .next (h.reply src (.refused reasonNotInUse [])).arbitrate)) ∧
  (∀ (e : RoleEntry) (v : Nat), e.ctlMin ≤ e.ctlMax →
    let c := if v < e.ctlMin then e.ctlMin else if e.ctlMax < v then e.ctlMax else v
    (e.kind = .level → clampRequest e v = c) ∧
    (e.kind = .switched → (c = 0 → clampRequest e v = 0) ∧ (c ≠ 0 → clampRequest e v = 1000))) ∧
  (∀ (x : RoleRun) (v : Nat),
    (x.limit = some v → x.claim = (.limit, v)) ∧
    (x.limit = none → x.lockout = some v → x.claim = (.lockout, v)) ∧
    (x.limit = none → x.lockout = none → x.sequence = some v → x.claim = (.sequence, v)) ∧
    (x.limit = none → x.lockout = none → x.sequence = none → x.frost = some v → x.claim = (.frost, v)) ∧
    (x.limit = none → x.lockout = none → x.sequence = none → x.frost = none →
      (x.ctlFilled = true → x.claim = (.controller, x.requested)) ∧ (x.ctlFilled = false → x.claim = (.default, 0)))) ∧
  (∀ (carried : Bool) (r : Nat) (x : RoleRun) (w : Work), w.st.sized → r < 12 →
    let s := w.st
    let old := s.role r
    let e := s.tables.role r
    let done := changeRole carried r x w
    let t := done.st
    let y := t.role r
    let above := fun (o : Claimant) => o = .limit ∨ o = .lockout ∨ o = .sequence ∨ o = .frost
    let started := some (s.tables.device.refresh * 10)
    (t = { s with roles := s.roles.set r y, lines := t.lines, gate := { s.gate with slots := t.gate.slots } }) ∧
    (y = { x with owner := x.claim.1, applied := x.claim.2, actual := y.actual, since := y.since, confirm := y.confirm
                  refresh := y.refresh }) ∧
    ((∀ n c, e.target ≠ .field n c) → y.actual = x.actual ∧ y.since = x.since ∧ y.confirm = x.confirm ∧
      y.refresh = x.refresh ∧ t.gate = s.gate) ∧
    ((∀ l, e.target ≠ .line l) → t.lines = s.lines) ∧
    (x.claim.2 = old.applied →
      done = w.withSt t ∧ t.lines = s.lines ∧ t.gate = s.gate ∧
      y.actual = x.actual ∧ y.since = x.since ∧ y.confirm = x.confirm ∧
      ∀ n c, e.target = .field n c →
        (¬ above y.owner → y.refresh = none) ∧ (above y.owner → above old.owner → y.refresh = x.refresh) ∧
        (above y.owner → ¬ above old.owner → y.refresh = started)) ∧
    (x.claim.2 ≠ old.applied →
      done = (w.withSt t).emit [.condWalk (.role r)] ∧
      (∀ n c, e.target = .field n c →
        y.actual = none ∧ y.since = false ∧ y.confirm = some (e.confirmWindow * 10) ∧
        (∀ k, k ≠ r → t.slot k = s.slot k) ∧
        (carried = true → t.slot r = s.slot r) ∧
        (carried = false →
          t.slot r = some { node := n, channel := c, last := some y.applied, pending := true, newer := true }) ∧
        (¬ above y.owner → y.refresh = none) ∧
        (above y.owner → carried = false ∨ ¬ above old.owner → y.refresh = started) ∧
        (above y.owner → carried = true → above old.owner → y.refresh = x.refresh)) ∧
      (∀ l, e.target = .line l → l < 8 →
        (∀ k, k ≠ l → t.line k = s.line k) ∧
        ((s.line l).commanded = (y.applied != 0) → t.line l = s.line l) ∧
        ((s.line l).commanded ≠ (y.applied != 0) →
          t.line l = { s.line l with commanded := y.applied != 0, settle := some 2 })))) ∧
  (∀ (f : Nat → RoleRun → RoleRun) (w : Work), w.st.sized →
    let s := w.st
    let done := applySlots f w
    let t := done.st
    let moves := fun r => f r (s.role r) ≠ s.role r ∧ (f r (s.role r)).claim.2 ≠ (s.role r).applied
    (t = { s with roles := t.roles, lines := t.lines, gate := { s.gate with slots := t.gate.slots } }) ∧
    (∀ r, r < 12 →
      let one := (changeRole false r (f r (s.role r)) w).st
      (f r (s.role r) = s.role r → t.role r = s.role r ∧ t.slot r = s.slot r) ∧
      (f r (s.role r) ≠ s.role r → t.role r = one.role r ∧ t.slot r = one.slot r)) ∧
    (∃ changed : List Nat, changed.Pairwise (· < ·) ∧ (∀ r, r ∈ changed ↔ r < 12 ∧ moves r) ∧
      done = (w.withSt t).emit (changed.map fun r => .condWalk (.role r)))) ∧
  (∀ w : Work, w.st.phase = .normal →
    actSequenceClaims w
      = applySlots (fun r x => { x with sequence := w.st.sequenceClaim r, lockout := w.st.lockoutSlot r }) w ∧
    applyLimit w = applySlots (fun r x => { x with limit := w.st.limitSlot r }) w ∧
    actFrostClaims w = applySlots (fun r x => { x with frost := w.st.frostClaim r }) w)

/-- Every step keeps the law of R116: each role's owner and applied value are its highest-precedence claimant's. -/
def Obligations.StepKeepsAppliedLaw : Prop :=
  ∀ s t : State, s.appliedLaw → step s = .next t → t.appliedLaw

/-- Every step keeps the claim slots equal to what the LIMIT input, the lockout state, the running step and the frost
circuits claim. -/
def Obligations.StepKeepsSlotsLaw : Prop :=
  ∀ s t : State, s.sized → s.slotsLaw → step s = .next t → t.slotsLaw

/-- Every step keeps each line ON exactly while its role's applied value is nonzero. -/
def Obligations.StepKeepsLinesLaw : Prop :=
  ∀ s t : State, s.sized → s.tablesChecked → s.linesLaw → step s = .next t → t.linesLaw

/-- What the claim laws give for safety: while locked, the fuel, ignition and preheat roles 0, 1, 2 and 4 are applied 0 and
ALARM is applied 1000, and while LIMIT is open roles 0 to 2 are applied 0. -/
def Obligations.LockedOrLimitHoldsFuelOff : Prop :=
  ∀ s : State, s.phase = .normal → s.sized → s.appliedLaw → s.slotsLaw →
    (s.locked = true →
      (s.role 0).applied = 0 ∧ (s.role 1).applied = 0 ∧ (s.role 2).applied = 0 ∧ (s.role 4).applied = 0 ∧
        (s.role 7).applied = 1000) ∧
    (s.pins.limitClosed = false →
      (s.role 0).applied = 0 ∧ (s.role 1).applied = 0 ∧ (s.role 2).applied = 0)

/-! ### Faults, lockout, unlock -/

/-- The unlock conditions in their order, and what a refusal and an acceptance do to a request and to an edge (R147).
It rests on logs 12, 37. -/
def Obligations.UnlockConditions : Prop :=
  ∀ s : State,
    (s.locked = false → s.unlockRefusal = some reasonNotLocked) ∧
    (s.locked = true → s.fault.data.allowance = 0 → s.unlockRefusal = some reasonNoAllowance) ∧
    (s.locked = true → 1 ≤ s.fault.data.allowance → s.pins.limitClosed = false →
      s.unlockRefusal = some reasonLimitOpen) ∧
    (s.locked = true → 1 ≤ s.fault.data.allowance → s.pins.limitClosed = true →
      (s.seq.chain ≠ [] ∨ s.seq.purgeDue = true) → s.unlockRefusal = some reasonPurging) ∧
    (s.locked = true → 1 ≤ s.fault.data.allowance → s.pins.limitClosed = true → s.seq.chain = [] →
      s.seq.purgeDue = false → s.unlockRefusal = none) ∧
    (∀ src : Byte, s.manages src → s.committing = false →
      (∀ reason, s.unlockRefusal = some reason →
        exec (.unlock src) s = .next ((s.heardFrom src).reply src (.refused reason [])).arbitrate) ∧
      (s.unlockRefusal = none →
        exec (.unlock src) s = finish (acceptUnlock ((Work.idle (s.heardFrom src)).answer src (.ok []))))) ∧
    (s.serving = true → s.unlockActive = false →
      (∀ reason, s.unlockRefusal = some reason →
        exec .unlockEdge s
          = .next ((s.setUnlock true).raiseNotice .unlock
              ([u8 reason, u8 s.fault.data.allowance] ++ u16 s.fault.data.number)).arbitrate) ∧
      (s.unlockRefusal = none → exec .unlockEdge s = finish (acceptUnlock (Work.idle (s.setUnlock true)))))

/-- An accepted unlock, by request and by edge, with nothing waiting to run: UNLOCKED, the allowance one lower, the regain
timer running, every LOCKOUT slot and `blocked` mark empty, a LOCKOUT notice raised, the rest of the lockout data, the chain
and the points as they stood.
It rests on logs 12, 37. -/
def Obligations.UnlockAccepted : Prop :=
  ∀ s : State, s.unlockRefusal = none → s.phase = .normal → s.sized → s.unheeded → s.noTriggers = true →
    s.seq.demand = false →
    let after := fun (u : State) =>
      u.fault.data = { s.fault.data with locked := false, allowance := s.fault.data.allowance - 1 } ∧
      u.fault.record = s.fault.record ∧
      u.fault.regain = (match s.fault.regain with | some t => some t | none => some 12000) ∧
      (∀ r, r < 12 → (u.role r).lockout = none) ∧
      (∀ c, c < 6 → (s.tables.circuit c).inUse = true → (u.circuit c).blocked = false) ∧
      (u.notice .lockout).flag = true ∧ u.seq.chain = [] ∧ u.seq.demand = false ∧ u.points = s.points ∧
      u.tables = s.tables ∧ (u.store.write.isSome = true ∨ u.store.again = true)
    (∀ src : Byte, s.manages src → s.committing = false →
      ∃ u : State, exec (.unlock src) s = .next u.arbitrate ∧ after u ∧
        u.gate.reply = ((s.heardFrom src).reply src (.ok [])).gate.reply) ∧
    (s.unlockActive = false → ∃ u : State, exec .unlockEdge s = .next u.arbitrate ∧ after u ∧ u.unlockActive = true)

/-- The regain timer's expiry earns one unlock back, up to 3, starts again below 3 and requests a persistence write; a
timer that is stopped or still runs does not expire. UNLOCK leaving its active level changes the input's level alone, so
that the next edge can occur (R121, R149).
It rests on logs 2, 12, 15, 37. -/
def Obligations.RegainAndUnlockInput : Prop :=
  ∀ s : State,
    (s.fault.regain = some 0 →
      let a := min (s.fault.data.allowance + 1) 3
      exec .regainExpiry s
        = .next ((s.setFault { s.fault with
            data := { s.fault.data with allowance := a }
            regain := if a < 3 then some 12000 else none }).requestPersist).arbitrate) ∧
    (s.fault.regain ≠ some 0 → exec .regainExpiry s = .next s.arbitrate) ∧
    (exec .unlockInputLeavesActiveLevel s
        = .next (s.setPins { s.pins with unlockHigh := !s.tables.device.unlockHigh }).arbitrate ∧
      (s.setPins { s.pins with unlockHigh := !s.tables.device.unlockHigh }).unlockActive = false)

/-- Which faults lock an unlocked part out: one of class LOCKOUT, without the limit mark; one of class RECYCLE whose count
reaches the limit, with it; one of class RECYCLE whose recovery entry is refused, without it. Below the limit the fault is
RECYCLED and the recovery entry made, and a NOTICE is noted alone. At a max-dwell expiry the step's class decides so, and the
part locks out and enters its purge. A fault decided as a lockout, within the fault's event: LOCKED, the next number, the
history entry in front, the record LOCKED_OUT, every recycle count 0, the lockout purge entered, or left due during a commit,
the trace record ended and perhaps begun anew by a traced purge; allowance, demand and pending triggers stand.
It rests on logs 2, 12. -/
def Obligations.LockoutEntry : Prop :=
  (∀ (f : FaultIn) (w : Work), w.st.locked = false →
    let s := w.st
    let t := w.trace (.fault f.code)
    let record := fun (cls : FaultClass) (o : FaultOutcome) => ({
      code := f.code, cls := cls, outcome := o, limitMark := false, seq := f.seq, step := f.step, line := f.line
      time := s.faultTime, flueTemp := s.flueTemp } : FaultRecord)
    (f.cls = .notice → actTakeFault f w = t.withSt (t.st.noteFault (record .notice .noted))) ∧
    (f.cls = .lockout → actTakeFault f w = lockOut f false t) ∧
    (∀ n, f.cls = .recycle → f.seq = some n → n < s.seq.runs.length →
      let count := (s.seqRun n).recycle + 1
      let limit := (s.tables.seq n).recycleLimit
      let counted := t.withSt (t.st.setRecycle n count)
      (limit ≤ count → actTakeFault f w = lockOut f true counted) ∧
      (count < limit → (∀ m, (s.tables.seq n).recoveryLink = some m → s.switchCheck m .recycle ≠ none) →
        actTakeFault f w = lockOut f false counted) ∧
      (∀ m, count < limit → (s.tables.seq n).recoveryLink = some m → s.switchCheck m .recycle = none →
        actTakeFault f w
          = doEnter m .recycle (counted.withSt (counted.st.noteFault (record .recycle .recycled)))))) ∧
  (∀ (s : State) (x : Running) (n : Nat), s.locksQuietly → s.seq.running = some x → s.top = some n → n < 12 →
    x.maxDwell ≠ 0 → x.hold = false → x.maxDwell ≤ x.elapsed → (s.tables.step x.step).onTimeout = .fault →
    let e := s.tables.step x.step
    let count := (s.seqRun n).recycle + 1
    let limit := (s.tables.seq n).recycleLimit
    let fault := fun (cls : FaultClass) => ({
      code := e.faultCode, cls := cls, seq := some n, step := some x.step, line := none } : FaultIn)
    (e.faultClass = .lockout →
      ∃ u : State, exec .maxDwellExpiry s = .next u.arbitrate ∧ s.lockedOut u (fault .lockout) false) ∧
    (e.faultClass = .recycle → limit ≤ count →
      ∃ u : State, exec .maxDwellExpiry s = .next u.arbitrate ∧ s.lockedOut u (fault .recycle) true) ∧
    (e.faultClass = .recycle → count < limit →
      (∀ m, (s.tables.seq n).recoveryLink = some m → s.switchCheck m .recycle ≠ none) →
      ∃ u : State, exec .maxDwellExpiry s = .next u.arbitrate ∧ s.lockedOut u (fault .recycle) false)) ∧
  ∀ (f : FaultIn) (mark : Bool) (w : Work), deviceCheck w.st.tables = true →
    let s := w.st
    let t := (lockOut f mark w).st
    let number := if s.fault.data.number = 65535 then 1 else s.fault.data.number + 1
    t.fault.data =
      { s.fault.data with
        locked := true, number := number
        history := { number := number, cause := f.code, seq := f.seq, step := f.step, limitMark := mark,
                     flueTemp := s.flueTemp, second := none } :: s.fault.data.history.take 5 } ∧
    t.fault.record = some
      { code := f.code, cls := .lockout, outcome := .lockedOut, limitMark := mark, seq := f.seq, step := f.step,
        line := f.line, time := s.faultTime, flueTemp := s.flueTemp } ∧
    (∀ n, n < 12 → (t.seqRun n).recycle = 0) ∧
    (s.committing = false → t.seq.chain = [s.tables.device.lockoutSeq] ∧ t.seq.purgeDue = s.seq.purgeDue) ∧
    (s.committing = true → t.seq.chain = [] ∧ t.seq.purgeDue = true) ∧
    (s.committing = true → t.trace = w.traceFinish.st.trace) ∧
    (s.committing = false → t.trace = (w.traceFinish.traceTop s.tables.device.lockoutSeq).st.trace) ∧
    t.seq.demand = s.seq.demand ∧ t.seq.triggers = s.seq.triggers ∧ t.points = s.points ∧ t.tables = s.tables ∧
    (t.store.write.isSome = true ∨ t.store.again = true)

/-- A fault taken while LOCKED: the purge leaves the chain, an empty second-fault field of the newest entry takes the
code, the record says WHILE_LOCKED with the class as raised, and number, allowance and demand stand. -/
def Obligations.FaultWhileLocked : Prop :=
  ∀ (f : FaultIn) (w : Work), w.st.locked = true →
    let s := w.st
    let t := (actTakeFault f w).st
    t.seq.chain = [] ∧ t.seq.demand = s.seq.demand ∧
    (s.seq.chain = [] → t.trace = (w.trace (.fault f.code)).st.trace) ∧
    (s.seq.chain ≠ [] → t.trace = (w.trace (.fault f.code)).traceFinish.st.trace) ∧
    t.fault.record = some
      { code := f.code, cls := f.cls, outcome := .whileLocked, limitMark := false, seq := f.seq, step := f.step,
        line := f.line, time := s.faultTime, flueTemp := s.flueTemp } ∧
    (∀ e rest, s.fault.data.history = e :: rest → e.second = none →
      t.fault.data = { s.fault.data with history := { e with second := some f.code } :: rest } ∧
      (t.store.write.isSome = true ∨ t.store.again = true)) ∧
    (∀ e rest, s.fault.data.history = e :: rest → e.second.isSome = true → t.fault.data = s.fault.data)

/-- Every step keeps the law of R145 on the lockout data, volatile and in both copies: at most 6 history entries, an
allowance of at most 3. -/
def Obligations.StepKeepsLockoutLaw : Prop :=
  ∀ s t : State, s.lockoutLaw → step s = .next t → t.lockoutLaw

/-! ### The trace -/

/-- What the Trace Unit writes. An entry of an open record that has not ended goes to the write position in WRITING, which
then advances, or leaves its half: flag set, TRACE notice raised, HOLD when the other half waits; in HOLD it is counted in the
gap. A traced sequence that becomes top with no record open begins one with START. Ending a record writes END and the filler of
its half, or is kept in HOLD. TRACE RELEASE: a half whose flag is clear is refused with NOT_READY; one whose flag is set is
released, and a writer that does not wait on it stays where it is; one that waits writes GAP when entries were lost, then the
kept END of a record that has ended.
It rests on logs 12, 38. -/
def Obligations.TraceReleased : Prop :=
  (∀ (w : Work) (k : TraceKind),
    (w.st.trace.opened = none → w.trace k = w) ∧
    (∀ r, w.st.trace.opened = some r →
      let t := w.st.trace
      let u := (w.trace k).st.trace
      let offset := min (w.st.clock - r.start) 65535
      let counted : OpenRecord := { r with count := min (r.count + 1) 65535 }
      let mem := t.mem.set t.pos { kind := k, record := r.number, offset := offset }
      (r.ended.isSome = true → w.trace k = w) ∧
      (r.ended = none → w.trace k = { w with st := w.st.setTrace u, fins := (w.trace k).fins }) ∧
      (r.ended = none → t.hold = true →
        u = { t with opened := some counted, gap := min (t.gap + 1) 65535
                     gapAt := if t.gap = 0 then offset else t.gapAt }) ∧
      (r.ended = none → t.hold = false →
        (t.pos ≠ 255 → t.pos ≠ 511 → u = { t with opened := some counted, mem := mem, pos := t.pos + 1 }) ∧
        (t.pos = 255 → u = { t with opened := some counted, mem := mem, pos := 256, ready0 := true, hold := t.ready1 } ∧
          (t.ready0 = false → .traceNotice 0 ∈ (w.trace k).fins)) ∧
        (t.pos = 511 → u = { t with opened := some counted, mem := mem, pos := 0, ready1 := true, hold := t.ready0 } ∧
          (t.ready1 = false → .traceNotice 1 ∈ (w.trace k).fins))))) ∧
  (∀ (w : Work) (n : Nat),
    ((w.st.tables.seq n).trace = false ∨ w.st.trace.opened.isSome = true → w.traceTop n = w) ∧
    ((w.st.tables.seq n).trace = true → w.st.trace.opened = none →
      let t := w.st.trace
      let begun : OpenRecord := { number := t.counter, seq := n, start := w.st.clock, count := 0, ended := none }
      w.traceTop n
        = Work.trace { w with st := w.st.setTrace { t with counter := (t.counter + 1) % 256, opened := some begun } }
            (.start n))) ∧
  (∀ (w : Work),
    (w.st.trace.opened = none → w.traceFinish = w) ∧
    (∀ r, w.st.trace.opened = some r → w.st.trace.mem.length = 512 → w.st.trace.pos < 512 →
      let t := w.st.trace
      let u := w.traceFinish.st.trace
      let offset := min (w.st.clock - r.start) 65535
      let count := min (r.count + 1) 65535
      let stop := if t.pos < 256 then 256 else 512
      (r.ended.isSome = true → w.traceFinish = w) ∧
      (r.ended = none → t.hold = true → u = { t with opened := some { r with count := count, ended := some offset } }) ∧
      (r.ended = none → t.hold = false →
        u.opened = none ∧ u.counter = t.counter ∧ u.gap = t.gap ∧ u.mem.length = 512 ∧
        (∀ i, i < 512 → u.mem.getD i TraceEntry.empty =
          if i = t.pos then { kind := .finish count, record := r.number, offset := offset }
          else if t.pos < i ∧ i < stop then { kind := .empty, record := r.number, offset := offset }
          else t.mem.getD i TraceEntry.empty) ∧
        (t.pos < 256 → u.pos = 256 ∧ u.ready0 = true ∧ u.ready1 = t.ready1 ∧ u.hold = t.ready1) ∧
        (256 ≤ t.pos → u.pos = 0 ∧ u.ready1 = true ∧ u.ready0 = t.ready0 ∧ u.hold = t.ready0)))) ∧
  ∀ (s : State) (src half : Byte), s.manages src → half.toNat < 2 →
    let h := s.heardFrom src
    let ok := h.reply src (.ok [])
    let freed := s.trace.setReady half.toNat false
    let gapEntry := fun (r : OpenRecord) => ({ kind := .gap s.trace.gap, record := r.number
                                               offset := s.trace.gapAt } : TraceEntry)
    (s.trace.ready half.toNat = false →
      exec (.traceRelease src half) s = .next (h.reply src (.refused reasonNotReady [])).arbitrate) ∧
    (s.trace.ready half.toNat = true → (s.trace.hold = false ∨ halfOf s.trace.pos ≠ half.toNat) →
      exec (.traceRelease src half) s = .next (ok.setTrace freed).arbitrate) ∧
    (s.trace.ready half.toNat = true → s.trace.hold = true → s.trace.pos = 256 * half.toNat →
      (s.trace.gap = 0 → (∀ r, s.trace.opened = some r → r.ended = none) →
        exec (.traceRelease src half) s = .next (ok.setTrace { freed with hold := false }).arbitrate) ∧
      (∀ r, 0 < s.trace.gap → s.trace.opened = some r → r.ended = none →
        exec (.traceRelease src half) s
          = .next (ok.setTrace { freed with
              hold := false, gap := 0, mem := s.trace.mem.set s.trace.pos (gapEntry r), pos := s.trace.pos + 1 }).arbitrate) ∧
      (∀ r offset, s.trace.opened = some r → r.ended = some offset → s.sized →
        let at' := if s.trace.gap = 0 then s.trace.pos else s.trace.pos + 1
        ∃ u : State, exec (.traceRelease src half) s = .next u.arbitrate ∧ u.trace.opened = none ∧ u.trace.gap = 0 ∧
          u.trace.ready half.toNat = true ∧ u.trace.ready (1 - half.toNat) = s.trace.ready (1 - half.toNat) ∧
          u.trace.pos = 256 * (1 - half.toNat) ∧ u.trace.hold = s.trace.ready (1 - half.toNat) ∧
          (∀ i, i < 512 → u.trace.mem.getD i TraceEntry.empty =
            if i = at' then { kind := .finish r.count, record := r.number, offset := offset }
            else if i = s.trace.pos then gapEntry r
            else if at' < i ∧ i < 256 * half.toNat + 256 then { kind := .empty, record := r.number, offset := offset }
            else s.trace.mem.getD i TraceEntry.empty) ∧
          (u.notice .trace).flag = true ∧ u.gate.reply = ok.gate.reply ∧ u.seq = s.seq ∧ u.fault = s.fault ∧
          u.points = s.points ∧ u.store = s.store))

/-- Every step keeps the law of R155: the half in which the writer stands has its flag clear, and set only in HOLD. -/
def Obligations.StepKeepsTraceLaw : Prop :=
  ∀ s t : State, s.traceLaw → step s = .next t → t.traceLaw

/-! ### The store -/

/-- The completion of a persistence write: the copy written takes its place; a waiting image write then begins, else one
further write if one was requested, with the data as it stands and a generation one above; no write, no completion.
It rests on logs 12, 16. -/
def Obligations.PersistenceWriteCompletes : Prop :=
  ∀ s : State,
    (s.store.write = none → exec .persistenceWriteComplete s = .next s.arbitrate) ∧
    (∀ w, s.store.write = some w →
      let x : Store := { s.store with
        copy0 := if w.target = 0 then some w.copy else s.store.copy0
        copy1 := if w.target = 0 then s.store.copy1 else some w.copy
        write := none }
      (s.store.commit = .waiting →
        exec .persistenceWriteComplete s = .next (s.setStore { x with commit := .writing }).arbitrate) ∧
      (s.store.commit ≠ .waiting → s.store.again = false →
        exec .persistenceWriteComplete s = .next (s.setStore x).arbitrate) ∧
      (∀ i c, s.store.commit ≠ .waiting → s.store.again = true → x.newer = some (i, c) →
        exec .persistenceWriteComplete s
          = .next (s.setStore { x with
              again := false
              write := some { target := 1 - i, copy :=
                { data := s.fault.data, generation := (c.generation + 1) % 65536 } } }).arbitrate))

/-- Commit completion, with no purge due and no demand: the staging image governs and is the stored image, points,
conditions, flue and sequences are in their reset forms, the circuits are derived again, and nothing runs. Every role holds
what LIMIT, the lockout state and the frost circuits claim and, where the controller may command it, the requested value
within its new range; every field role has its confirmation started and its substitution placed; every line is commanded by
its role with its readback settling, and keeps its mismatch mark under the same role. A controller whose address has changed
is absent.
It rests on logs 12, 25, 34. -/
def Obligations.CommitCompletes : Prop :=
  ∀ s : State,
    (s.store.commit ≠ .writing → exec .commitCompletion s = .next s.arbitrate) ∧
    (s.store.commit = .writing → s.seq.purgeDue = false → s.seq.demand = false →
      s.staging.sized → (∀ r l, r < 12 → (s.staging.role r).target = .line l → l < 8) →
      ∃ u : State, exec .commitCompletion s = .next u.arbitrate ∧
        u.phase = .normal ∧ u.tables = s.staging ∧ u.staging = s.staging ∧ u.store.image = some s.staging ∧
        u.store.commit = .none ∧ u.points = List.replicate 24 PointRun.empty ∧
        u.conds = List.replicate 32 CondRun.reset ∧ u.flue = FlueRun.reset ∧
        u.seq = SeqUnit.reset ∧
        (∀ c, c < 6 → u.circuit c = rederive (s.staging.circuit c) (s.circuit c)) ∧
        (∀ r, r < 12 →
          let e := s.staging.role r
          let y := u.role r
          let kept := s.phase = .normal ∧ e.ctlAllowed = true
          (y = { RoleRun.reset with
            limit := y.limit, lockout := y.lockout, frost := y.frost, ctlFilled := y.ctlFilled, requested := y.requested
            applied := y.applied, owner := y.owner, confirm := y.confirm, refresh := y.refresh }) ∧
          y.limit = (if s.pins.limitClosed = false ∧ r < 3 then some 0 else none) ∧
          y.lockout = (if s.locked = true ∧ (r = 0 ∨ r = 1 ∨ r = 2 ∨ r = 4) then some 0
            else if s.locked = true ∧ r = 7 then some 1000 else none) ∧
          y.frost = u.frostClaim r ∧
          (kept → y.ctlFilled = (s.role r).ctlFilled ∧ y.requested = clampRequest e (s.role r).requested) ∧
          (¬ kept → y.ctlFilled = false ∧ y.requested = 0) ∧
          (y.owner, y.applied) = y.claim ∧
          (∀ n c, e.target = .field n c → y.confirm = some (e.confirmWindow * 10) ∧
            y.refresh = (if y.owner = .controller ∨ y.owner = .default then none
              else some (s.staging.device.refresh * 10)) ∧
            u.slot r = some { node := n, channel := c, last := some y.applied, pending := true, newer := true }) ∧
          ((∀ n c, e.target ≠ .field n c) → y.confirm = none ∧ y.refresh = none ∧ u.slot r = none)) ∧
        (∀ l, l < 8 → (u.line l).settle = some 2 ∧
          (u.line l).commanded = (match s.staging.roleOfLine l with
            | some r => (u.role r).applied != 0
            | none => false) ∧
          ((u.line l).mismatch = true ↔ (s.line l).mismatch = true ∧ ∃ r, s.tables.roleOfLine l = some r ∧
            s.staging.roleOfLine l = some r)) ∧
        (s.staging.device.ctlAddr ≠ s.tables.device.ctlAddr → s.gate.present = true →
          u.gate.present = false ∧ u.gate.absence = none) ∧
        (s.staging.device.ctlAddr = s.tables.device.ctlAddr ∨ s.gate.present = false →
          u.gate.present = s.gate.present ∧ u.gate.absence = s.gate.absence) ∧ u.fault = s.fault ∧ u.trace = s.trace ∧ u.pins = s.pins ∧
        u.gate.up = s.gate.up ∧ u.gate.down = s.gate.down ∧ u.gate.reply = s.gate.reply)

/-- The power-on image check: a good image becomes the active tables and the staging image, points, conditions, flue,
sequences and circuits are in their reset forms, every role holds what LIMIT and the lockout state claim and nothing else,
every field role has its confirmation started and its substitution placed, and every line is commanded by its role with its
readback settling; a bad one leads to fallback mode, OL5 to OL7 ON, and the fault TABLE_INVALID.
It rests on logs 12, 25, 29. -/
def Obligations.ImageCheckEnds : Prop :=
  ∀ s : State,
    (s.phase ≠ .checking → exec .powerOnImageCheck s = .next s.arbitrate) ∧
    (∀ t, s.phase = .checking → s.store.image = some t →
      t.sized → (∀ r l, r < 12 → (t.role r).target = .line l → l < 8) →
      exec .powerOnImageCheck s = .next (s.activated t).arbitrate ∧
        (let a := s.activated t
         (a = { s with
           phase := .normal, tables := t, staging := t, points := List.replicate 24 PointRun.empty
           conds := List.replicate 32 CondRun.reset, flue := FlueRun.reset, seq := SeqUnit.reset
           circuits := List.replicate 6 CircuitRun.reset, roles := a.roles, lines := a.lines
           gate := { s.gate with slots := a.gate.slots } }) ∧
         a.roles.length = 12 ∧ a.lines.length = 8 ∧ a.gate.slots.length = 12 ∧
         (∀ r, r < 12 →
           let e := t.role r
           let y := a.role r
           (y = { RoleRun.reset with
             limit := y.limit, lockout := y.lockout, applied := y.applied, owner := y.owner, confirm := y.confirm
             refresh := y.refresh }) ∧
           y.limit = (if s.pins.limitClosed = false ∧ r < 3 then some 0 else none) ∧
           y.lockout = (if s.locked = true ∧ (r = 0 ∨ r = 1 ∨ r = 2 ∨ r = 4) then some 0
             else if s.locked = true ∧ r = 7 then some 1000 else none) ∧
           (y.owner, y.applied) = y.claim ∧
           (∀ n c, e.target = .field n c → y.confirm = some (e.confirmWindow * 10) ∧
             y.refresh = (if y.owner = .default then none else some (t.device.refresh * 10)) ∧
             a.slot r = some { node := n, channel := c, last := some y.applied, pending := true, newer := true }) ∧
           ((∀ n c, e.target ≠ .field n c) → y.confirm = none ∧ y.refresh = none ∧ a.slot r = none)) ∧
         (∀ l, l < 8 → (a.line l).settle = some 2 ∧ (a.line l).mismatch = false ∧
           (a.line l).commanded = (match t.roleOfLine l with
             | some r => (a.role r).applied != 0
             | none => false)))) ∧
    (s.phase = .checking → s.store.image = none → s.locked = false → s.trace.opened = none →
      ∃ u : State, exec .powerOnImageCheck s = .next u.arbitrate ∧
        u.phase = .fallback ∧ u.tables = Tables.initial ∧ u.staging = Tables.initial ∧
        (∀ l, l < 8 → u.line l = { commanded := decide (5 ≤ l), settle := none, mismatch := false }) ∧
        u.points = List.replicate 24 PointRun.empty ∧ u.conds = List.replicate 32 CondRun.reset ∧
        u.flue = FlueRun.reset ∧ u.circuits = List.replicate 6 CircuitRun.reset ∧ u.roles = s.roles ∧
        u.gate = { s.gate with notices := u.gate.notices } ∧ (u.notice .fault).flag = true ∧ u.trace = s.trace ∧
        u.pins = s.pins ∧
        u.fault.record = some
          { code := 69, cls := .notice, outcome := .noted, limitMark := false, seq := none, step := none, line := none,
            time := s.faultTime, flueTemp := none } ∧
        u.fault.data = s.fault.data ∧ u.seq = SeqUnit.reset ∧ u.store = s.store)

/-- Device reset restores the lockout data from the store it finds and puts everything volatile in its reset form, field by
field, with the image check running; a power loss leaves the store with what was being written lost, and everything volatile in
the same forms. The forms themselves: what a point, a condition, the flue, the Sequence Unit, a circuit, a role, a line, the
gate, a port and the trace hold. The levels of the pins, the command queue and the free order stand through both, and the address
of the part through a power loss.
It rests on logs 7, 8, 15, 17, 29, 31, 50. -/
def Obligations.ResetAndPowerLoss : Prop :=
  (∀ s : State,
    let blank := fun (phase : Phase) (address : Nat) (fault : FaultUnit) (store : Store) =>
      ({ pending := s.pending, order := s.order, phase := phase, clock := 0, pins := s.pins, mgmtAddr := address
         tables := Tables.initial, staging := Tables.initial, assembly := none
         points := List.replicate 24 PointRun.empty, pointTimer := 0, conds := List.replicate 32 CondRun.reset
         flue := FlueRun.reset, seq := SeqUnit.reset, circuits := List.replicate 6 CircuitRun.reset, frostTimer := 0
         roles := List.replicate 12 RoleRun.reset, lines := List.replicate 8 LineRun.reset, gate := Gate.reset
         ctlPort := PortState.idle, fieldPort := PortState.idle, fault := fault, trace := TraceUnit.reset
         store := store } : State)
    let starting := fun (adr : Nat) (data : LockoutData) (store : Store) =>
      blank .checking (56 + adr)
        { record := none, data := data, regain := if data.allowance < 3 then some 12000 else none } store
    (∀ adr, adr < 4 →
      (∀ i c, s.resetStore.newer = some (i, c) →
        exec (.deviceReset adr) s = .next (starting adr c.data s.resetStore)) ∧
      (s.resetStore.newer = none →
        exec (.deviceReset adr) s
          = .next (starting adr { locked := false, number := 0, history := [], allowance := 3 } { s.resetStore with
              write := some
                { target := 0, copy :=
                  { data := { locked := false, number := 0, history := [], allowance := 3 }, generation := 0 } }
              again := true }))) ∧
    (s.phase = .off → s.resetStore = s.store) ∧
    (s.phase ≠ .off → s.store.write = none → s.store.commit = .none → s.store.again = false →
      s.resetStore = s.store) ∧
    (s.phase ≠ .off → ∃ x : Store,
      exec .powerLoss s
        = .next (blank .off s.mgmtAddr { record := none, data := LockoutData.initial, regain := none } x) ∧
      x.write = none ∧ x.again = false ∧ x.commit = .none ∧
      (s.store.commit = .none → x.image = s.store.image) ∧ (s.store.commit ≠ .none → x.image = none) ∧
      (∀ w, s.store.write = some w →
        (w.target = 0 → x.copy0 = none ∧ x.copy1 = s.store.copy1) ∧
        (w.target ≠ 0 → x.copy0 = s.store.copy0 ∧ x.copy1 = none)) ∧
      (s.store.write = none → x.copy0 = s.store.copy0 ∧ x.copy1 = s.store.copy1)) ∧
    (s.phase = .off → exec .powerLoss s = .next s)) ∧
  (PointRun.empty = { raw := none, value := none, filtered := none, quality := .none, age := 0 } ∧
    CondRun.reset = { raw := .unknown, held := .unknown, timer := none } ∧
    FlueRun.reset =
      { window := [], draught := .unknown, blocked := .unknown, spill := .unknown, rise := .idle, baseline := none
        required := none, riseTimer := none, allowance := none, allowanceFrom := none } ∧
    SeqUnit.reset =
      { chain := [], runs := List.replicate 12 { saved := none, recycle := 0 }, running := none
        triggers := List.replicate 12 { own := false, circuits := List.replicate 6 false }, demand := false
        purgeDue := false } ∧
    CircuitRun.reset = { debt := 0, stage := .quiet, blocked := false, last := none } ∧
    RoleRun.reset =
      { limit := none, lockout := none, sequence := none, frost := none, ctlFilled := false, requested := 0, applied := 0
        owner := .default, actual := none, since := false, confirm := none, heard := none, refresh := none } ∧
    LineRun.reset = { commanded := false, settle := none, mismatch := false } ∧
    Gate.reset =
      { up := [], down := [], reply := [], slots := List.replicate 12 none
        notices := List.replicate 7 { flag := false, newer := false, content := [] }, driveCount := 0, present := false
        absence := none } ∧
    PortState.idle = { hearing := .ready, sending := false, hand := none, lastSent := [] } ∧
    TraceUnit.reset =
      { mem := List.replicate 512 { kind := .empty, record := 0, offset := 0 }, pos := 0, ready0 := false, ready1 := false
        hold := false, gap := 0, gapAt := 0, counter := 0, opened := none } ∧
    Tables.initial.sized ∧
    (∀ e ∈ Tables.initial.points, e.inUse = false) ∧ (∀ e ∈ Tables.initial.conds, e.inUse = false) ∧
    (∀ e ∈ Tables.initial.steps, e.inUse = false) ∧ (∀ e ∈ Tables.initial.seqs, e.inUse = false) ∧
    (∀ e ∈ Tables.initial.circuits, e.inUse = false) ∧ (∀ e ∈ Tables.initial.roles, e.target = .none) ∧
    Tables.initial.flue.draughtPt = none ∧ Tables.initial.flue.fluePt = none ∧ Tables.initial.flue.spillPt = none ∧
    Tables.initial.flue.roomPt = none ∧
    Tables.initial.device =
      { ctlAddr := 48, startSeq := 0, lockoutSeq := 0, absenceTimeout := 30, refresh := 10, passUnrouted := false
        unlockHigh := false })

/-- Every step keeps R165's law: tables that govern, the stored image and an image being written have passed every
cross-check. Tables that have passed meet, entry by entry, the checks of R21, R39, R58, R60, R99, R115 and R165. -/
def Obligations.StepKeepsTablesChecked : Prop :=
  (∀ s t : State, s.tablesChecked → step s = .next t → t.tablesChecked) ∧
  ∀ t : Tables, crossCheck t = none ↔ ∀ (k : TableKind) (i : Nat), i < k.size → t.passes k i

/-! ### Management requests -/

/-- LOAD: part 0 begins an assembly, a part that is not the next one drops it, and the last part stages the entry when it
passes every check and is BAD_REQUEST, with staging kept, when it does not. What staging does: it refuses an index above the
kind's range and any entry with a field out of its range or a constraint broken; it replaces that entry and no other; and the
entry reads back as the bytes loaded, but for the places that it does not use. That staging accepts every entry in its ranges is
said in StagedEntriesRoundTrip.
It rests on logs 12, 18, 40, 44, 55. -/
def Obligations.LoadStagesEntries : Prop :=
  (∀ (t t' : Tables) (k : TableKind) (i : Nat) (bs : List Byte), t.sized → stageEntry t k i bs = some t' →
    i < k.size ∧ bs.length = k.partLengths.sum ∧ t'.entryOk k i ∧ t' = t.putEntry t' k i ∧
    ∀ j, j < bs.length → ¬ unusedPlace k bs j → (entryBytes t' k i)[j]? = bs[j]?) ∧
  ∀ (s : State) (src kind index part : Byte) (fields : List Byte) (k : TableKind) (p : Nat),
    s.manages src → s.committing = false → fields.length ≤ 21 →
    readLoad kind index part fields = some (.load k index.toNat p fields) →
    let h := s.heardFrom src
    let ok := Result.ok []
    let bs := if p = 0 then fields else (s.assembly.map Assembly.fields).getD [] ++ fields
    let expected := p = 0 ∨
      ∃ old, s.assembly = some { kind := k, index := index.toNat, nextPart := p, fields := old }
    (¬ expected →
      exec (.load src kind index part fields) s
        = .next (State.reply { h with assembly := none } src .badRequest).arbitrate) ∧
    (expected → p + 1 < k.partLengths.length →
      exec (.load src kind index part fields) s
        = .next (State.reply
            { h with assembly := some { kind := k, index := index.toNat, nextPart := p + 1, fields := bs } } src
            ok).arbitrate) ∧
    (∀ t, expected → k.partLengths.length ≤ p + 1 → stageEntry s.staging k index.toNat bs = some t →
      exec (.load src kind index part fields) s
        = .next (State.reply { h with assembly := none, staging := t } src ok).arbitrate) ∧
    (expected → k.partLengths.length ≤ p + 1 → stageEntry s.staging k index.toNat bs = none →
      exec (.load src kind index part fields) s
        = .next (State.reply { h with assembly := none } src .badRequest).arbitrate)

/-- The bytes of any entry in its ranges stage that entry and no other, for all eight kinds of table, so that an entry that a
LOAD has staged reads back as bytes that stage it again; and part
`p` of an entry is those of its bytes that Table 44 gives to the part. The layouts, kind by kind: which byte of an entry holds
which field, and the codes of its enumerated fields. Places that an entry does not use are 0, or NONE for a point or role.
It rests on logs 19, 40, 44, 55. -/
def Obligations.StagedEntriesRoundTrip : Prop :=
  (∀ (t src : Tables) (k : TableKind) (i : Nat), i < k.size → src.entryOk k i →
    stageEntry t k i (entryBytes src k i) = some (t.putEntry src k i)) ∧
  (∀ (t t' : Tables) (k : TableKind) (i : Nat) (bs : List Byte), t.sized → stageEntry t k i bs = some t' →
    stageEntry t' k i (entryBytes t' k i) = some t') ∧
  (∀ (t : Tables) (i p : Nat) (k : TableKind),
    let output := fun (o : Output) => u16 (codeOf OutMode.all o.mode * 16384 + o.value % 1024)
    let tier := fun (x : Option TierRole) => match x with
      | some y => u8 y.role :: output y.output
      | none => [255#8, 0#8, 0#8]
    let watch := fun (j : Nat) (e : StepEntry) => match e.supervision[j]? with
      | some v => [u8 v.cond, flagByte [v.expected, v.fail]]
      | none => [0#8, 0#8]
    (entryBytes t .point i = (let e := t.point i
      [u8 e.source, u8 e.channel, u8 (codeOf PointKind.all e.kind)] ++ i16 e.offset ++ u16 e.gain ++ [flagByte [e.inUse]] ++
        i16 e.plausLo ++ i16 e.plausHi ++ [u8 e.k, u8 e.staleLimit])) ∧
    (entryBytes t .condition i = (let e := t.cond i
      [u8 (codeOf CondKind.all e.kind), u8 e.point] ++ i16 e.threshold ++ u16 e.hyst ++
        [u8 e.level, u8 e.role, u8 e.a, u8 e.b] ++ u16 e.hold ++ [flagByte [e.inUse]])) ∧
    (entryBytes t .flue i = (let e := t.flue
      [indexByte e.draughtPt, indexByte e.fluePt, indexByte e.spillPt, indexByte e.roomPt] ++ u16 e.dReq ++ u16 e.dBlock ++
        i16 e.tCold ++ i16 e.tWarm ++ u16 e.rCold ++ u16 e.rWarm ++ u16 e.riseWindow ++ u16 e.sDelta ++ [u8 e.kW] ++
        u16 e.aMax)) ∧
    (∀ e, t.step i = e → e.outputs.length = 12 → e.supervision.length ≤ 4 →
      entryBytes t .step i = (e.outputs.map output).flatten ++
        [indexByte e.proving, flagByte [e.provingValue, e.warmup, e.armRise, e.success, e.inUse]] ++ u16 e.minDwell ++
        u16 e.maxDwell ++ [indexByte e.call] ++
        [match e.next with | .step k => u8 k | .finish => 253#8 | .hold => 254#8] ++
        [match e.onTimeout with | .goto k => u8 k | .none => 254#8 | .fault => 255#8] ++
        [u8 e.faultCode, u8 (codeOf StepClass.all e.faultClass), u8 e.supervision.length] ++
        watch 0 e ++ watch 1 e ++ watch 2 e ++ watch 3 e) ∧
    (∀ e, t.seq i = e → e.tracePoints.length ≤ 4 →
      entryBytes t .sequence i =
        [u8 e.entryStep, u8 (codeOf SeqClass.all e.cls), u8 e.priority, indexByte e.stopLink, indexByte e.recoveryLink,
          u8 e.recycleLimit, u8 (codeOf ResumeMode.all e.resumeMode), indexByte e.trigger, flagByte [e.trace, e.inUse],
          u8 e.tracePoints.length, indexByte e.tracePoints[0]?, indexByte e.tracePoints[1]?, indexByte e.tracePoints[2]?,
          indexByte e.tracePoints[3]?]) ∧
    (entryBytes t .circuit i = (let e := t.circuit i
      [u8 e.point] ++ i16 e.tF ++ u24 e.l1 ++ u24 e.l2 ++ u16 e.dFb ++ [u8 e.margin] ++ tier e.tierA ++ tier e.tierB ++
        [indexByte e.tier2, flagByte [e.inUse]])) ∧
    (entryBytes t .role i = (let e := t.role i
      [u8 (codeOf RoleKind.all e.kind)] ++
        (match e.target with | .none => [0#8, 0#8, 0#8] | .line l => [1#8, u8 l, 0#8] | .field n c => [2#8, u8 n, u8 c]) ++
        [u8 e.tolerance, u8 e.confirmWindow, flagByte [e.ctlAllowed]] ++ u16 e.ctlMin ++ u16 e.ctlMax)) ∧
    (entryBytes t .device i = (let e := t.device
      [u8 e.ctlAddr, u8 e.startSeq, u8 e.lockoutSeq, u8 e.absenceTimeout, u8 e.refresh,
        flagByte [e.passUnrouted, e.unlockHigh]])) ∧
    (entryPart t k i p = ((entryBytes t k i).drop (k.partLengths.take p).sum).take (k.partLengths.getD p 0)) ∧
    ((entryBytes t k i).length = k.partLengths.sum ∨ k = .step ∧ (t.step i).outputs.length ≠ 12)) ∧
  ([TableKind.point, .condition, .flue, .step, .sequence, .circuit, .role, .device].map TableKind.partLengths
      = [[8, 6], [13], [16, 7], [20, 15, 9], [14], [20], [11], [6]] ∧
    [PointKind.temp, .draught, .flame, .level, .contact].map (codeOf PointKind.all) = [0, 1, 2, 3, 4] ∧
    [CondKind.above, .below, .contact, .roleConfirmed, .both, .either, .flueDraught, .flueBlocked, .flueSpill,
      .flueRise].map (codeOf CondKind.all) = [0, 1, 2, 3, 4, 5, 6, 7, 8, 9] ∧
    [OutMode.off, .on, .level, .free].map (codeOf OutMode.all) = [0, 1, 2, 3] ∧
    [StepClass.recycle, .lockout].map (codeOf StepClass.all) = [0, 1] ∧
    [SeqClass.heat, .stop, .recovery, .frost, .protect, .service, .lockoutPurge].map (codeOf SeqClass.all)
      = [0, 1, 2, 3, 4, 5, 6] ∧
    [ResumeMode.restartStep, .continueStep].map (codeOf ResumeMode.all) = [0, 1] ∧
    [RoleKind.switched, .level].map (codeOf RoleKind.all) = [0, 1])

/-- READ, STATUS and TRACE READ answer OK with what stands when they are taken, and change nothing else, also during a store
write. What they carry: the loaded parts of either image, and after them the runtime parts of the active one, kind by kind;
the thirteen status pages; the entries of the trace. How numbers stand in bytes: high byte first, two's complement, NONE as
255, flags from bit 0 up, an absent field as 0; a time in seconds is the timer's deciseconds in whole seconds, rounded down
or up.
It rests on logs 9, 12, 19, 24, 30. -/
def Obligations.ReadsAnswer : Prop :=
  (∀ (s : State) (src : Byte), s.manages src →
    let h := s.heardFrom src
    (∀ (image kind index part : Byte) (active : Bool) (k : TableKind) (i p : Nat),
      readRead image kind index part = some (.read active k i p) →
      exec (.read src image kind index part) s = .next (h.reply src (.ok (readBytes h active k i p))).arbitrate) ∧
    (∀ page : Byte, page.toNat < 13 →
      exec (.status src page) s = .next (h.reply src (.ok (statusPage h page.toNat))).arbitrate) ∧
    (∀ (index : Word) (count : Byte), 1 ≤ count.toNat → count.toNat ≤ 4 → index.toNat + count.toNat ≤ 512 →
      exec (.traceRead src index count) s
        = .next (h.reply src (.ok (traceReadBytes s index.toNat count.toNat))).arbitrate)) ∧
  (∀ (n : Nat) (z : Int) (o : Option Nat) (oz : Option Int) (b0 b1 b2 b3 b4 b5 b6 b7 : Bool),
    let bit := fun (b : Bool) => if b = true then 1 else 0
    (u8 n).toNat = n % 256 ∧ u16 n = [u8 (n / 256), u8 n] ∧ u24 n = u8 (n / 65536) :: u16 n ∧
    u32 n = u16 (n / 65536) ++ u16 n ∧
    (0 ≤ z → z ≤ 32767 → i16 z = u16 z.toNat) ∧ (z < 0 → -32768 ≤ z → i16 z = u16 (65536 + z).toNat) ∧
    indexByte o = u8 (o.getD 255) ∧ optU16 o = u16 (o.getD 0) ∧ optI16 oz = i16 (oz.getD 0) ∧
    (flagByte [b0, b1, b2, b3, b4, b5, b6, b7]).toNat = bit b0 + 2 * bit b1 + 4 * bit b2 + 8 * bit b3 + 16 * bit b4 +
      32 * bit b5 + 64 * bit b6 + 128 * bit b7 ∧
    (∀ bs : List Bool, flagByte (bs ++ [false]) = flagByte bs) ∧
    (secondsLeft n = n / 10 ∨ n % 10 ≠ 0 ∧ secondsLeft n = n / 10 + 1)) ∧
  (∀ (s : State) (k : TableKind) (i p : Nat),
    let left := fun (o : Option Nat) => o.map secondsLeft
    (readBytes s false k i p = entryPart s.staging k i p) ∧
    (p < k.partLengths.length → readBytes s true k i p = entryPart s.tables k i p) ∧
    (readBytes s true .point i 2 = (let x := s.point i
      [flagByte [x.raw.isSome, x.value.isSome, x.filtered.isSome]] ++ optU16 x.raw ++ optI16 x.value ++ optI16 x.filtered ++
        [u8 (codeOf Quality.all x.quality), u8 x.age])) ∧
    (readBytes s true .condition i 1 = (let x := s.cond i
      let rest := x.timer.map fun t => (s.tables.cond i).hold - t
      [flagByte [rest.isSome], u8 x.raw.code, u8 x.held.code] ++ optU16 rest)) ∧
    (∀ a b c d e f g j : Option Int, s.flue.window.length ≤ 8 →
      [s.flue.window[0]?, s.flue.window[1]?, s.flue.window[2]?, s.flue.window[3]?, s.flue.window[4]?, s.flue.window[5]?,
        s.flue.window[6]?, s.flue.window[7]?] = [a, b, c, d, e, f, g, j] →
      readBytes s true .flue i 2 = [u8 s.flue.window.length] ++ optI16 a ++ optI16 b ++ optI16 c ++ optI16 d ++ optI16 e ++
        optI16 f ++ optI16 g ++ optI16 j ++
        [u8 s.flue.draught.code, u8 s.flue.blocked.code, u8 s.flue.spill.code, u8 s.flue.rise.value.code]) ∧
    (readBytes s true .flue i 3 = (let x := s.flue
      [flagByte [x.baseline.isSome, x.required.isSome, x.riseTimer.isSome, x.allowance.isSome, x.allowanceFrom.isSome],
        u8 (codeOf RiseState.all x.rise)] ++ optI16 x.baseline ++ optU16 x.required ++ optU16 (left x.riseTimer) ++
        optU16 x.allowance ++ optI16 x.allowanceFrom)) ∧
    (readBytes s true .sequence i 1 = (let x := s.seqRun i
      [flagByte [decide (i ∈ s.seq.chain), (s.returnLink i).isSome], indexByte (s.returnLink i), flagByte [x.saved.isSome]] ++
        (match x.saved with
          | some c => [u8 c.step] ++ u16 c.elapsed ++ [flagByte [c.allowance.isSome]] ++ optU16 c.allowance
          | none => [0#8, 0#8, 0#8, 0#8, 0#8, 0#8]) ++ [u8 x.recycle])) ∧
    (∀ above below, s.seq.chain = above ++ i :: below → i ∉ above → s.returnLink i = below.head?) ∧
    (i ∉ s.seq.chain → s.returnLink i = none) ∧
    (readBytes s true .circuit i 1 = (let x := s.circuit i
      u24 x.debt ++ [u8 (codeOf Stage.all x.stage), flagByte [x.blocked], flagByte [x.last.isSome]] ++
        (match x.last with
          | some d => i16 d.1 ++ [u8 (codeOf DeficitSource.all d.2)]
          | none => [0#8, 0#8, 0#8]))) ∧
    (readBytes s true .role i 1 = (let x := s.role i
      [u8 (codeOf Claimant.all x.owner)] ++ u16 x.applied ++ u16 x.requested ++
        [flagByte [x.actual.isSome, x.confirm.isSome]] ++ optU16 x.actual ++
        [match (s.tables.role i).target with
          | .line l => flagByte [x.since, x.heard.isSome, (s.line l).commanded, s.sense l, (s.line l).settle.isNone,
              (s.line l).mismatch]
          | .field _ _ => flagByte [x.since, x.heard.isSome]
          | .none => flagByte [x.since, x.heard.isSome]] ++ [u8 ((left x.confirm).getD 0)]))) ∧
  (∀ s : State,
    let left := fun (o : Option Nat) => o.map secondsLeft
    let flue := [u8 s.flue.draught.code, u8 s.flue.blocked.code, u8 s.flue.spill.code, u8 s.flue.rise.value.code]
    let half := fun (c : Nat) => codeOf Stage.all (s.circuit c).stage +
      (if (s.circuit c).blocked = true then 4 else 0) + (if (s.tables.circuit c).inUse = true then 8 else 0)
    let owner := fun (r : Nat) => [u8 (codeOf Claimant.all (s.role r).owner)] ++ u16 (s.role r).applied
    let trigger := fun (n : Nat) => let t := s.trigger n
      let f := fun (c : Nat) => t.circuits.getD c false
      flagByte [f 0, f 1, f 2, f 3, f 4, f 5, false, t.own]
    let waits := fun (r : Nat) => (s.slot r).any Slot.pending
    let stands := fun (n : Nat) => (s.trigger n).stands
    let member := fun (d : Nat) => match s.seq.chain[d]? with
      | none => [255#8, 255#8, 0#8, 0#8, 0#8]
      | some n =>
        (match d, s.seq.running, (s.seqRun n).saved with
          | 0, some x, _ => [u8 n, u8 x.step] ++ u16 x.elapsed
          | 0, none, _ => [u8 n, 255#8, 0#8, 0#8]
          | _ + 1, _, some c => [u8 n, u8 c.step] ++ u16 c.elapsed
          | _ + 1, _, none => [u8 n, 255#8, 0#8, 0#8]) ++ [u8 (s.seqRun n).recycle]
    (s.seq.chain.length ≤ 4 → s.seq.chain.Nodup →
      statusPage s 0 =
        [(match s.locked, s.seq.chain with | false, [] => 0#8 | false, _ :: _ => 1#8 | true, _ :: _ => 2#8 | true, [] => 3#8),
          if s.store.commit = .none then 0#8 else 1#8,
          flagByte [decide (s.phase = .fallback), s.seq.demand, s.gate.present, s.pins.limitClosed, s.seq.purgeDue],
          u8 s.seq.chain.length] ++ member 0 ++ member 1 ++ member 2 ++ member 3) ∧
    (statusPage s 1 =
      (match s.seq.running with
        | some x => [1#8] ++ u16 x.minDwell ++ u16 x.maxDwell ++ [flagByte [x.hold]]
        | none => [0#8, 0#8, 0#8, 0#8, 0#8, 0#8]) ++
        [flagByte [stands 8, stands 9, stands 10, stands 11],
          flagByte [stands 0, stands 1, stands 2, stands 3, stands 4, stands 5, stands 6, stands 7]] ++
        [trigger 0, trigger 1, trigger 2, trigger 3, trigger 4, trigger 5, trigger 6, trigger 7, trigger 8, trigger 9,
          trigger 10, trigger 11]) ∧
    (statusPage s 2 = [flagByte [s.gate.absence.isSome], u8 ((left s.gate.absence).getD 0)] ++ flue ++
      [u8 (codeOf RiseState.all s.flue.rise), u8 (half 0 * 16 + half 1), u8 (half 2 * 16 + half 3), u8 (half 4 * 16 + half 5),
        u8 s.gate.up.length, u8 s.gate.down.length, u8 s.gate.reply.length,
        flagByte [(s.notice .lockout).flag, (s.notice .fault).flag, (s.notice .frost).flag, (s.notice .chain).flag,
          (s.notice .drive).flag, (s.notice .trace).flag, (s.notice .unlock).flag],
        flagByte [waits 8, waits 9, waits 10, waits 11],
        flagByte [waits 0, waits 1, waits 2, waits 3, waits 4, waits 5, waits 6, waits 7]]) ∧
    (statusPage s 3 = owner 0 ++ owner 1 ++ owner 2 ++ owner 3 ++ owner 4 ++ owner 5 ++ owner 6 ++ owner 7) ∧
    (statusPage s 4 = owner 8 ++ owner 9 ++ owner 10 ++ owner 11 ++
      [flagByte [(s.line 0).commanded, (s.line 1).commanded, (s.line 2).commanded, (s.line 3).commanded,
          (s.line 4).commanded, (s.line 5).commanded, (s.line 6).commanded, (s.line 7).commanded],
        flagByte [s.sense 0, s.sense 1, s.sense 2, s.sense 3, s.sense 4, s.sense 5, s.sense 6, s.sense 7]]) ∧
    (statusPage s 5 = (let d := s.fault.data
      let t := s.trace
      let ended := t.opened.any fun r => r.ended.isSome
      [flagByte [s.fault.regain.isSome, t.opened.isSome], flagByte [d.locked]] ++ u16 d.number ++ [u8 d.allowance] ++
        optU16 (left s.fault.regain) ++ u16 t.pos ++ [flagByte [t.ready0, t.ready1, t.hold, ended]] ++ u16 t.gap ++
        [u8 ((t.opened.map OpenRecord.number).getD 0)])) ∧
    (s.fault.record = none → statusPage s 6 = List.replicate 14 0) ∧
    (∀ x, s.fault.record = some x →
      statusPage s 6 = [flagByte [true, x.line.isSome, x.flueTemp.isSome], u8 x.code, u8 (codeOf FaultClass.all x.cls),
        u8 (codeOf FaultOutcome.all x.outcome), flagByte [x.limitMark], indexByte x.seq, indexByte x.step,
        u8 (x.line.getD 0)] ++ u32 x.time ++ optI16 x.flueTemp) ∧
    (∀ n, n < 6 → s.fault.data.history[n]? = none → statusPage s (7 + n) = List.replicate 10 0) ∧
    (∀ n x, n < 6 → s.fault.data.history[n]? = some x →
      statusPage s (7 + n) = 1 :: (u16 x.number ++ [u8 x.cause, indexByte x.seq, indexByte x.step,
        flagByte [x.flueTemp.isSome, x.second.isSome, false, false, false, false, false, x.limitMark]] ++
        optI16 x.flueTemp ++ [u8 (x.second.getD 0)]))) ∧
  (∀ (s : State) (index count record offset n m : Nat) (z : Int),
    let entry := fun (k : TraceKind) => traceBytes { kind := k, record := record, offset := offset }
    let body := [u8 record] ++ u16 offset
    (index + count < s.trace.mem.length →
      traceReadBytes s index (count + 1) = traceReadBytes s index count ++
        (s.trace.mem[index + count]?.map traceBytes).getD []) ∧
    traceReadBytes s index 0 = [] ∧
    (entry .empty = [0x00#8] ++ body ++ [0#8, 0#8]) ∧ (entry (.start n) = [0x20#8] ++ body ++ [u8 n, 0#8]) ∧
    (n < 24 → entry (.sample n z) = [u8 (0x40 + n)] ++ body ++ i16 z) ∧
    (entry (.step n m) = [0x60#8] ++ body ++ [u8 n, u8 m]) ∧ (entry (.fault n) = [0x80#8] ++ body ++ [u8 n, 0#8]) ∧
    (entry (.gap n) = [0xA0#8] ++ body ++ u16 n) ∧ (entry (.finish n) = [0xC0#8] ++ body ++ u16 n)) ∧
  (Tri.no.code = 0 ∧ Tri.yes.code = 1 ∧ Tri.unknown.code = 2 ∧
    [Quality.none, .good, .implausible, .stale].map (codeOf Quality.all) = [0, 1, 2, 3] ∧
    [RiseState.idle, .armed, .passed, .failed].map (codeOf RiseState.all) = [0, 1, 2, 3] ∧
    [Stage.quiet, .circulate, .firingRequested, .firing].map (codeOf Stage.all) = [0, 1, 2, 3] ∧
    [DeficitSource.point, .fallback].map (codeOf DeficitSource.all) = [0, 1] ∧
    [Claimant.limit, .lockout, .sequence, .frost, .controller, .default].map (codeOf Claimant.all) = [0, 1, 2, 3, 4, 5] ∧
    [FaultClass.notice, .recycle, .lockout].map (codeOf FaultClass.all) = [0, 1, 2] ∧
    [FaultOutcome.noted, .recycled, .lockedOut, .whileLocked].map (codeOf FaultOutcome.all) = [0, 1, 2, 3])

/-- DISCARD copies the active tables to staging and drops the assembly; COMMIT is refused with CHAIN_BUSY on a chain, with
the kind and index of the first failing entry, and otherwise starts the store write. Which entry fails first: the lowest of its
kind that fails its check, when every entry of the kinds before it passes, in the order POINT, CONDITION, FLUE, ROLE, STEP,
SEQUENCE, DEVICE, CIRCUIT; what each check says stands in Tables.passes.
It rests on logs 12, 22, 33. -/
def Obligations.DiscardAndCommitAnswered : Prop :=
  (∀ t : Tables, (crossCheck t = none ↔ ∀ (k : TableKind) (i : Nat), i < k.size → t.passes k i) ∧
    ∀ (k : TableKind) (i : Nat), crossCheck t = some (k, i) ↔ t.failsFirst k i) ∧
  ∀ (s : State) (src : Byte), s.manages src → s.committing = false →
    let h := s.heardFrom src
    exec (.discard src) s
      = .next (State.reply { h with staging := s.tables, assembly := none } src (.ok [])).arbitrate ∧
    (s.seq.chain ≠ [] →
      exec (.commit src) s = .next (h.reply src (.refused reasonChainBusy [])).arbitrate) ∧
    (∀ k i, s.seq.chain = [] → crossCheck s.staging = some (k, i) →
      exec (.commit src) s
        = .next (h.reply src (.refused reasonCheckFailed [u8 (codeOf TableKind.all k), u8 i])).arbitrate) ∧
    (s.seq.chain = [] → crossCheck s.staging = none →
      exec (.commit src) s
        = .next (State.reply { h with
            assembly := none
            store := { s.store with commit := if s.store.write.isSome then .waiting else .writing } }
            src (.ok [])).arbitrate)

/-- What is turned away. A DRIVE frame that is dropped whole raises its notice and changes no role: a source that is not
the controller, a payload that is not 1 to 4 settings, a destination of 0 or 1. Of the management requests, LOAD, DISCARD,
COMMIT, DEMAND ON, DEMAND OFF, RUN, STOP, SET ROLE and UNLOCK are answered BUSY during a store write; every request from another
source is answered NOT_CONTROLLER, with no effect but its reply, and with the reply queue full it gets no reply. A request
with an unknown sub-code, a wrong length or a field outside its range is answered BAD_REQUEST, also during a store write, and
drops the assembly when it is a LOAD.
It rests on logs 12, 18, 19, 27. -/
def Obligations.FramesTurnedAway : Prop :=
  ∀ (s : State) (src dst : Byte) (sub : BitVec 4) (payload : List Byte),
    s.serving = true → s.receives .control = true → src ≠ 0 → payload.length ≤ 24 → s.mgmtAddr < 256 →
    let h := s.heardFrom src
    (2 ≤ dst.toNat ∧ dst.toNat ≤ 47 → s.fromController src = false →
      exec (.driveInterception src dst sub payload) s
        = .next (h.raiseDrive reasonNotPermitted (some dst.toNat) none none).arbitrate) ∧
    (2 ≤ dst.toNat ∧ dst.toNat ≤ 47 → s.fromController src = true → groupsOk 4 payload = false →
      exec (.driveInterception src dst sub payload) s
        = .next (h.raiseDrive reasonMalformed (some dst.toNat) none none).arbitrate) ∧
    (dst.toNat ≤ 1 →
      exec (.driveInterception src dst sub payload) s
        = .next (h.raiseDrive reasonUnrouted none none none).arbitrate) ∧
    (48 ≤ dst.toNat → exec (.driveInterception src dst sub payload) s = .next h.arbitrate) ∧
    (∀ (kind index part n role : Byte) (fields : List Byte) (v : Word),
      s.gate.reply.length < 4 → s.fromController src = true → s.committing = true →
      (readLoad kind index part fields).isSome = true → fields.length ≤ 21 → n.toNat < 12 → role.toNat < 12 →
      ∀ c ∈ [Instr.load src kind index part fields, .discard src, .commit src, .demandOn src, .demandOff src, .run src n,
          .stop src, .setRole src role v, .unlock src],
        exec c s = .next (h.reply src .busy).arbitrate) ∧
    (∀ (b1 b2 b3 b4 : Byte) (fields : List Byte) (v : Word), fields.length ≤ 21 →
      ∀ c ∈ [Instr.load src b1 b2 b3 fields, .read src b1 b2 b3 b4, .discard src, .commit src, .demandOn src,
          .demandOff src, .run src b1, .stop src, .setRole src b1 v, .unlock src, .status src b1, .traceRead src v b1,
          .traceRelease src b1],
        (s.gate.reply.length < 4 → s.fromController src = false →
          exec c s = .next (h.reply src (.refused reasonNotController [])).arbitrate) ∧
        (4 ≤ s.gate.reply.length → exec c s = .next h.arbitrate)) ∧
    (s.gate.reply.length < 4 → s.fromController src = true →
      let bad := (h.reply src .badRequest).arbitrate
      let dropped := (State.reply { h with assembly := none } src .badRequest).arbitrate
      let f : Frame := { src := src, dst := u8 s.mgmtAddr, kind := kindByte 4 sub.toNat, payload := payload }
      let wrong := fun (subs : List Nat) (length : Nat) => sub.toNat ∈ subs ∧ payload.length ≠ length
      (sub.toNat = 0 ∨ 14 ≤ sub.toNat ∨ wrong [2] 4 ∨ wrong [3, 4, 5, 6, 8, 10] 0 ∨ wrong [7, 11, 13] 1 ∨
          wrong [9, 12] 3 → exec (.controlFrame f) s = .next bad) ∧
      (sub.toNat = 1 → payload.length < 3 → exec (.controlFrame f) s = .next dropped) ∧
      ∀ (b1 b2 b3 b4 : Byte) (fields : List Byte) (v : Word),
        (8 ≤ b1.toNat → fields.length ≤ 21 → exec (.load src b1 b2 b3 fields) s = .next dropped) ∧
        (∀ k : TableKind, TableKind.all[b1.toNat]? = some k → fields.length ≤ 21 →
          (b3.toNat % 16 ≠ k.partLengths.length ∨ k.partLengths.length ≤ b3.toNat / 16
            ∨ k.partLengths.getD (b3.toNat / 16) 0 ≠ fields.length) →
          exec (.load src b1 b2 b3 fields) s = .next dropped) ∧
        (2 ≤ b1.toNat ∨ 8 ≤ b2.toNat → exec (.read src b1 b2 b3 b4) s = .next bad) ∧
        (∀ k : TableKind, TableKind.all[b2.toNat]? = some k →
          (k.size ≤ b3.toNat ∨ b1 = 0 ∧ k.partLengths.length ≤ b4.toNat
            ∨ k.partLengths.length + k.runtimeParts ≤ b4.toNat) →
          exec (.read src b1 b2 b3 b4) s = .next bad) ∧
        (12 ≤ b1.toNat → exec (.run src b1) s = .next bad ∧ exec (.setRole src b1 v) s = .next bad) ∧
        (13 ≤ b1.toNat → exec (.status src b1) s = .next bad) ∧
        (b1.toNat = 0 ∨ 4 < b1.toNat ∨ 512 < v.toNat + b1.toNat → exec (.traceRead src v b1) s = .next bad) ∧
        (2 ≤ b1.toNat → exec (.traceRelease src b1) s = .next bad))

end Slice0Statements
end

