-- ==== Sys2Proof/Laws/State.lean ====
section
/-! SUPPORT. One lemma per field per update of the state, true by rfl, so that no proof unfolds a record update; and the
same for the work list of a command. -/

namespace Sys2Proof.Machine

/-! `setPoint` -/

@[simp] theorem State.setPoint_pending (s : State) (i : Nat) (x : PointRun) :
    (s.setPoint i x).pending = s.pending := rfl
@[simp] theorem State.setPoint_order (s : State) (i : Nat) (x : PointRun) : (s.setPoint i x).order = s.order := rfl
@[simp] theorem State.setPoint_phase (s : State) (i : Nat) (x : PointRun) : (s.setPoint i x).phase = s.phase := rfl
@[simp] theorem State.setPoint_clock (s : State) (i : Nat) (x : PointRun) : (s.setPoint i x).clock = s.clock := rfl
@[simp] theorem State.setPoint_pins (s : State) (i : Nat) (x : PointRun) : (s.setPoint i x).pins = s.pins := rfl
@[simp] theorem State.setPoint_mgmtAddr (s : State) (i : Nat) (x : PointRun) :
    (s.setPoint i x).mgmtAddr = s.mgmtAddr := rfl
@[simp] theorem State.setPoint_tables (s : State) (i : Nat) (x : PointRun) : (s.setPoint i x).tables = s.tables := rfl
@[simp] theorem State.setPoint_staging (s : State) (i : Nat) (x : PointRun) :
    (s.setPoint i x).staging = s.staging := rfl
@[simp] theorem State.setPoint_assembly (s : State) (i : Nat) (x : PointRun) :
    (s.setPoint i x).assembly = s.assembly := rfl
@[simp] theorem State.setPoint_points (s : State) (i : Nat) (x : PointRun) :
    (s.setPoint i x).points = s.points.set i x := rfl
@[simp] theorem State.setPoint_pointTimer (s : State) (i : Nat) (x : PointRun) :
    (s.setPoint i x).pointTimer = s.pointTimer := rfl
@[simp] theorem State.setPoint_conds (s : State) (i : Nat) (x : PointRun) : (s.setPoint i x).conds = s.conds := rfl
@[simp] theorem State.setPoint_flue (s : State) (i : Nat) (x : PointRun) : (s.setPoint i x).flue = s.flue := rfl
@[simp] theorem State.setPoint_seq (s : State) (i : Nat) (x : PointRun) : (s.setPoint i x).seq = s.seq := rfl
@[simp] theorem State.setPoint_circuits (s : State) (i : Nat) (x : PointRun) :
    (s.setPoint i x).circuits = s.circuits := rfl
@[simp] theorem State.setPoint_frostTimer (s : State) (i : Nat) (x : PointRun) :
    (s.setPoint i x).frostTimer = s.frostTimer := rfl
@[simp] theorem State.setPoint_roles (s : State) (i : Nat) (x : PointRun) : (s.setPoint i x).roles = s.roles := rfl
@[simp] theorem State.setPoint_lines (s : State) (i : Nat) (x : PointRun) : (s.setPoint i x).lines = s.lines := rfl
@[simp] theorem State.setPoint_gate (s : State) (i : Nat) (x : PointRun) : (s.setPoint i x).gate = s.gate := rfl
@[simp] theorem State.setPoint_ctlPort (s : State) (i : Nat) (x : PointRun) :
    (s.setPoint i x).ctlPort = s.ctlPort := rfl
@[simp] theorem State.setPoint_fieldPort (s : State) (i : Nat) (x : PointRun) :
    (s.setPoint i x).fieldPort = s.fieldPort := rfl
@[simp] theorem State.setPoint_fault (s : State) (i : Nat) (x : PointRun) : (s.setPoint i x).fault = s.fault := rfl
@[simp] theorem State.setPoint_trace (s : State) (i : Nat) (x : PointRun) : (s.setPoint i x).trace = s.trace := rfl
@[simp] theorem State.setPoint_store (s : State) (i : Nat) (x : PointRun) : (s.setPoint i x).store = s.store := rfl

/-! `setCond` -/

@[simp] theorem State.setCond_pending (s : State) (i : Nat) (x : CondRun) : (s.setCond i x).pending = s.pending := rfl
@[simp] theorem State.setCond_order (s : State) (i : Nat) (x : CondRun) : (s.setCond i x).order = s.order := rfl
@[simp] theorem State.setCond_phase (s : State) (i : Nat) (x : CondRun) : (s.setCond i x).phase = s.phase := rfl
@[simp] theorem State.setCond_clock (s : State) (i : Nat) (x : CondRun) : (s.setCond i x).clock = s.clock := rfl
@[simp] theorem State.setCond_pins (s : State) (i : Nat) (x : CondRun) : (s.setCond i x).pins = s.pins := rfl
@[simp] theorem State.setCond_mgmtAddr (s : State) (i : Nat) (x : CondRun) :
    (s.setCond i x).mgmtAddr = s.mgmtAddr := rfl
@[simp] theorem State.setCond_tables (s : State) (i : Nat) (x : CondRun) : (s.setCond i x).tables = s.tables := rfl
@[simp] theorem State.setCond_staging (s : State) (i : Nat) (x : CondRun) : (s.setCond i x).staging = s.staging := rfl
@[simp] theorem State.setCond_assembly (s : State) (i : Nat) (x : CondRun) :
    (s.setCond i x).assembly = s.assembly := rfl
@[simp] theorem State.setCond_points (s : State) (i : Nat) (x : CondRun) : (s.setCond i x).points = s.points := rfl
@[simp] theorem State.setCond_pointTimer (s : State) (i : Nat) (x : CondRun) :
    (s.setCond i x).pointTimer = s.pointTimer := rfl
@[simp] theorem State.setCond_conds (s : State) (i : Nat) (x : CondRun) :
    (s.setCond i x).conds = s.conds.set i x := rfl
@[simp] theorem State.setCond_flue (s : State) (i : Nat) (x : CondRun) : (s.setCond i x).flue = s.flue := rfl
@[simp] theorem State.setCond_seq (s : State) (i : Nat) (x : CondRun) : (s.setCond i x).seq = s.seq := rfl
@[simp] theorem State.setCond_circuits (s : State) (i : Nat) (x : CondRun) :
    (s.setCond i x).circuits = s.circuits := rfl
@[simp] theorem State.setCond_frostTimer (s : State) (i : Nat) (x : CondRun) :
    (s.setCond i x).frostTimer = s.frostTimer := rfl
@[simp] theorem State.setCond_roles (s : State) (i : Nat) (x : CondRun) : (s.setCond i x).roles = s.roles := rfl
@[simp] theorem State.setCond_lines (s : State) (i : Nat) (x : CondRun) : (s.setCond i x).lines = s.lines := rfl
@[simp] theorem State.setCond_gate (s : State) (i : Nat) (x : CondRun) : (s.setCond i x).gate = s.gate := rfl
@[simp] theorem State.setCond_ctlPort (s : State) (i : Nat) (x : CondRun) : (s.setCond i x).ctlPort = s.ctlPort := rfl
@[simp] theorem State.setCond_fieldPort (s : State) (i : Nat) (x : CondRun) :
    (s.setCond i x).fieldPort = s.fieldPort := rfl
@[simp] theorem State.setCond_fault (s : State) (i : Nat) (x : CondRun) : (s.setCond i x).fault = s.fault := rfl
@[simp] theorem State.setCond_trace (s : State) (i : Nat) (x : CondRun) : (s.setCond i x).trace = s.trace := rfl
@[simp] theorem State.setCond_store (s : State) (i : Nat) (x : CondRun) : (s.setCond i x).store = s.store := rfl

/-! `setFlue` -/

@[simp] theorem State.setFlue_pending (s : State) (x : FlueRun) : (s.setFlue x).pending = s.pending := rfl
@[simp] theorem State.setFlue_order (s : State) (x : FlueRun) : (s.setFlue x).order = s.order := rfl
@[simp] theorem State.setFlue_phase (s : State) (x : FlueRun) : (s.setFlue x).phase = s.phase := rfl
@[simp] theorem State.setFlue_clock (s : State) (x : FlueRun) : (s.setFlue x).clock = s.clock := rfl
@[simp] theorem State.setFlue_pins (s : State) (x : FlueRun) : (s.setFlue x).pins = s.pins := rfl
@[simp] theorem State.setFlue_mgmtAddr (s : State) (x : FlueRun) : (s.setFlue x).mgmtAddr = s.mgmtAddr := rfl
@[simp] theorem State.setFlue_tables (s : State) (x : FlueRun) : (s.setFlue x).tables = s.tables := rfl
@[simp] theorem State.setFlue_staging (s : State) (x : FlueRun) : (s.setFlue x).staging = s.staging := rfl
@[simp] theorem State.setFlue_assembly (s : State) (x : FlueRun) : (s.setFlue x).assembly = s.assembly := rfl
@[simp] theorem State.setFlue_points (s : State) (x : FlueRun) : (s.setFlue x).points = s.points := rfl
@[simp] theorem State.setFlue_pointTimer (s : State) (x : FlueRun) : (s.setFlue x).pointTimer = s.pointTimer := rfl
@[simp] theorem State.setFlue_conds (s : State) (x : FlueRun) : (s.setFlue x).conds = s.conds := rfl
@[simp] theorem State.setFlue_flue (s : State) (x : FlueRun) : (s.setFlue x).flue = x := rfl
@[simp] theorem State.setFlue_seq (s : State) (x : FlueRun) : (s.setFlue x).seq = s.seq := rfl
@[simp] theorem State.setFlue_circuits (s : State) (x : FlueRun) : (s.setFlue x).circuits = s.circuits := rfl
@[simp] theorem State.setFlue_frostTimer (s : State) (x : FlueRun) : (s.setFlue x).frostTimer = s.frostTimer := rfl
@[simp] theorem State.setFlue_roles (s : State) (x : FlueRun) : (s.setFlue x).roles = s.roles := rfl
@[simp] theorem State.setFlue_lines (s : State) (x : FlueRun) : (s.setFlue x).lines = s.lines := rfl
@[simp] theorem State.setFlue_gate (s : State) (x : FlueRun) : (s.setFlue x).gate = s.gate := rfl
@[simp] theorem State.setFlue_ctlPort (s : State) (x : FlueRun) : (s.setFlue x).ctlPort = s.ctlPort := rfl
@[simp] theorem State.setFlue_fieldPort (s : State) (x : FlueRun) : (s.setFlue x).fieldPort = s.fieldPort := rfl
@[simp] theorem State.setFlue_fault (s : State) (x : FlueRun) : (s.setFlue x).fault = s.fault := rfl
@[simp] theorem State.setFlue_trace (s : State) (x : FlueRun) : (s.setFlue x).trace = s.trace := rfl
@[simp] theorem State.setFlue_store (s : State) (x : FlueRun) : (s.setFlue x).store = s.store := rfl

/-! `setSeq` -/

@[simp] theorem State.setSeq_pending (s : State) (x : SeqUnit) : (s.setSeq x).pending = s.pending := rfl
@[simp] theorem State.setSeq_order (s : State) (x : SeqUnit) : (s.setSeq x).order = s.order := rfl
@[simp] theorem State.setSeq_phase (s : State) (x : SeqUnit) : (s.setSeq x).phase = s.phase := rfl
@[simp] theorem State.setSeq_clock (s : State) (x : SeqUnit) : (s.setSeq x).clock = s.clock := rfl
@[simp] theorem State.setSeq_pins (s : State) (x : SeqUnit) : (s.setSeq x).pins = s.pins := rfl
@[simp] theorem State.setSeq_mgmtAddr (s : State) (x : SeqUnit) : (s.setSeq x).mgmtAddr = s.mgmtAddr := rfl
@[simp] theorem State.setSeq_tables (s : State) (x : SeqUnit) : (s.setSeq x).tables = s.tables := rfl
@[simp] theorem State.setSeq_staging (s : State) (x : SeqUnit) : (s.setSeq x).staging = s.staging := rfl
@[simp] theorem State.setSeq_assembly (s : State) (x : SeqUnit) : (s.setSeq x).assembly = s.assembly := rfl
@[simp] theorem State.setSeq_points (s : State) (x : SeqUnit) : (s.setSeq x).points = s.points := rfl
@[simp] theorem State.setSeq_pointTimer (s : State) (x : SeqUnit) : (s.setSeq x).pointTimer = s.pointTimer := rfl
@[simp] theorem State.setSeq_conds (s : State) (x : SeqUnit) : (s.setSeq x).conds = s.conds := rfl
@[simp] theorem State.setSeq_flue (s : State) (x : SeqUnit) : (s.setSeq x).flue = s.flue := rfl
@[simp] theorem State.setSeq_seq (s : State) (x : SeqUnit) : (s.setSeq x).seq = x := rfl
@[simp] theorem State.setSeq_circuits (s : State) (x : SeqUnit) : (s.setSeq x).circuits = s.circuits := rfl
@[simp] theorem State.setSeq_frostTimer (s : State) (x : SeqUnit) : (s.setSeq x).frostTimer = s.frostTimer := rfl
@[simp] theorem State.setSeq_roles (s : State) (x : SeqUnit) : (s.setSeq x).roles = s.roles := rfl
@[simp] theorem State.setSeq_lines (s : State) (x : SeqUnit) : (s.setSeq x).lines = s.lines := rfl
@[simp] theorem State.setSeq_gate (s : State) (x : SeqUnit) : (s.setSeq x).gate = s.gate := rfl
@[simp] theorem State.setSeq_ctlPort (s : State) (x : SeqUnit) : (s.setSeq x).ctlPort = s.ctlPort := rfl
@[simp] theorem State.setSeq_fieldPort (s : State) (x : SeqUnit) : (s.setSeq x).fieldPort = s.fieldPort := rfl
@[simp] theorem State.setSeq_fault (s : State) (x : SeqUnit) : (s.setSeq x).fault = s.fault := rfl
@[simp] theorem State.setSeq_trace (s : State) (x : SeqUnit) : (s.setSeq x).trace = s.trace := rfl
@[simp] theorem State.setSeq_store (s : State) (x : SeqUnit) : (s.setSeq x).store = s.store := rfl

/-! `setCircuit` -/

@[simp] theorem State.setCircuit_pending (s : State) (i : Nat) (x : CircuitRun) :
    (s.setCircuit i x).pending = s.pending := rfl
@[simp] theorem State.setCircuit_order (s : State) (i : Nat) (x : CircuitRun) :
    (s.setCircuit i x).order = s.order := rfl
@[simp] theorem State.setCircuit_phase (s : State) (i : Nat) (x : CircuitRun) :
    (s.setCircuit i x).phase = s.phase := rfl
@[simp] theorem State.setCircuit_clock (s : State) (i : Nat) (x : CircuitRun) :
    (s.setCircuit i x).clock = s.clock := rfl
@[simp] theorem State.setCircuit_pins (s : State) (i : Nat) (x : CircuitRun) : (s.setCircuit i x).pins = s.pins := rfl
@[simp] theorem State.setCircuit_mgmtAddr (s : State) (i : Nat) (x : CircuitRun) :
    (s.setCircuit i x).mgmtAddr = s.mgmtAddr := rfl
@[simp] theorem State.setCircuit_tables (s : State) (i : Nat) (x : CircuitRun) :
    (s.setCircuit i x).tables = s.tables := rfl
@[simp] theorem State.setCircuit_staging (s : State) (i : Nat) (x : CircuitRun) :
    (s.setCircuit i x).staging = s.staging := rfl
@[simp] theorem State.setCircuit_assembly (s : State) (i : Nat) (x : CircuitRun) :
    (s.setCircuit i x).assembly = s.assembly := rfl
@[simp] theorem State.setCircuit_points (s : State) (i : Nat) (x : CircuitRun) :
    (s.setCircuit i x).points = s.points := rfl
@[simp] theorem State.setCircuit_pointTimer (s : State) (i : Nat) (x : CircuitRun) :
    (s.setCircuit i x).pointTimer = s.pointTimer := rfl
@[simp] theorem State.setCircuit_conds (s : State) (i : Nat) (x : CircuitRun) :
    (s.setCircuit i x).conds = s.conds := rfl
@[simp] theorem State.setCircuit_flue (s : State) (i : Nat) (x : CircuitRun) : (s.setCircuit i x).flue = s.flue := rfl
@[simp] theorem State.setCircuit_seq (s : State) (i : Nat) (x : CircuitRun) : (s.setCircuit i x).seq = s.seq := rfl
@[simp] theorem State.setCircuit_circuits (s : State) (i : Nat) (x : CircuitRun) :
    (s.setCircuit i x).circuits = s.circuits.set i x := rfl
@[simp] theorem State.setCircuit_frostTimer (s : State) (i : Nat) (x : CircuitRun) :
    (s.setCircuit i x).frostTimer = s.frostTimer := rfl
@[simp] theorem State.setCircuit_roles (s : State) (i : Nat) (x : CircuitRun) :
    (s.setCircuit i x).roles = s.roles := rfl
@[simp] theorem State.setCircuit_lines (s : State) (i : Nat) (x : CircuitRun) :
    (s.setCircuit i x).lines = s.lines := rfl
@[simp] theorem State.setCircuit_gate (s : State) (i : Nat) (x : CircuitRun) : (s.setCircuit i x).gate = s.gate := rfl
@[simp] theorem State.setCircuit_ctlPort (s : State) (i : Nat) (x : CircuitRun) :
    (s.setCircuit i x).ctlPort = s.ctlPort := rfl
@[simp] theorem State.setCircuit_fieldPort (s : State) (i : Nat) (x : CircuitRun) :
    (s.setCircuit i x).fieldPort = s.fieldPort := rfl
@[simp] theorem State.setCircuit_fault (s : State) (i : Nat) (x : CircuitRun) :
    (s.setCircuit i x).fault = s.fault := rfl
@[simp] theorem State.setCircuit_trace (s : State) (i : Nat) (x : CircuitRun) :
    (s.setCircuit i x).trace = s.trace := rfl
@[simp] theorem State.setCircuit_store (s : State) (i : Nat) (x : CircuitRun) :
    (s.setCircuit i x).store = s.store := rfl

/-! `setRole` -/

@[simp] theorem State.setRole_pending (s : State) (i : Nat) (x : RoleRun) : (s.setRole i x).pending = s.pending := rfl
@[simp] theorem State.setRole_order (s : State) (i : Nat) (x : RoleRun) : (s.setRole i x).order = s.order := rfl
@[simp] theorem State.setRole_phase (s : State) (i : Nat) (x : RoleRun) : (s.setRole i x).phase = s.phase := rfl
@[simp] theorem State.setRole_clock (s : State) (i : Nat) (x : RoleRun) : (s.setRole i x).clock = s.clock := rfl
@[simp] theorem State.setRole_pins (s : State) (i : Nat) (x : RoleRun) : (s.setRole i x).pins = s.pins := rfl
@[simp] theorem State.setRole_mgmtAddr (s : State) (i : Nat) (x : RoleRun) :
    (s.setRole i x).mgmtAddr = s.mgmtAddr := rfl
@[simp] theorem State.setRole_tables (s : State) (i : Nat) (x : RoleRun) : (s.setRole i x).tables = s.tables := rfl
@[simp] theorem State.setRole_staging (s : State) (i : Nat) (x : RoleRun) : (s.setRole i x).staging = s.staging := rfl
@[simp] theorem State.setRole_assembly (s : State) (i : Nat) (x : RoleRun) :
    (s.setRole i x).assembly = s.assembly := rfl
@[simp] theorem State.setRole_points (s : State) (i : Nat) (x : RoleRun) : (s.setRole i x).points = s.points := rfl
@[simp] theorem State.setRole_pointTimer (s : State) (i : Nat) (x : RoleRun) :
    (s.setRole i x).pointTimer = s.pointTimer := rfl
@[simp] theorem State.setRole_conds (s : State) (i : Nat) (x : RoleRun) : (s.setRole i x).conds = s.conds := rfl
@[simp] theorem State.setRole_flue (s : State) (i : Nat) (x : RoleRun) : (s.setRole i x).flue = s.flue := rfl
@[simp] theorem State.setRole_seq (s : State) (i : Nat) (x : RoleRun) : (s.setRole i x).seq = s.seq := rfl
@[simp] theorem State.setRole_circuits (s : State) (i : Nat) (x : RoleRun) :
    (s.setRole i x).circuits = s.circuits := rfl
@[simp] theorem State.setRole_frostTimer (s : State) (i : Nat) (x : RoleRun) :
    (s.setRole i x).frostTimer = s.frostTimer := rfl
@[simp] theorem State.setRole_roles (s : State) (i : Nat) (x : RoleRun) :
    (s.setRole i x).roles = s.roles.set i x := rfl
@[simp] theorem State.setRole_lines (s : State) (i : Nat) (x : RoleRun) : (s.setRole i x).lines = s.lines := rfl
@[simp] theorem State.setRole_gate (s : State) (i : Nat) (x : RoleRun) : (s.setRole i x).gate = s.gate := rfl
@[simp] theorem State.setRole_ctlPort (s : State) (i : Nat) (x : RoleRun) : (s.setRole i x).ctlPort = s.ctlPort := rfl
@[simp] theorem State.setRole_fieldPort (s : State) (i : Nat) (x : RoleRun) :
    (s.setRole i x).fieldPort = s.fieldPort := rfl
@[simp] theorem State.setRole_fault (s : State) (i : Nat) (x : RoleRun) : (s.setRole i x).fault = s.fault := rfl
@[simp] theorem State.setRole_trace (s : State) (i : Nat) (x : RoleRun) : (s.setRole i x).trace = s.trace := rfl
@[simp] theorem State.setRole_store (s : State) (i : Nat) (x : RoleRun) : (s.setRole i x).store = s.store := rfl

/-! `setLine` -/

@[simp] theorem State.setLine_pending (s : State) (i : Nat) (x : LineRun) : (s.setLine i x).pending = s.pending := rfl
@[simp] theorem State.setLine_order (s : State) (i : Nat) (x : LineRun) : (s.setLine i x).order = s.order := rfl
@[simp] theorem State.setLine_phase (s : State) (i : Nat) (x : LineRun) : (s.setLine i x).phase = s.phase := rfl
@[simp] theorem State.setLine_clock (s : State) (i : Nat) (x : LineRun) : (s.setLine i x).clock = s.clock := rfl
@[simp] theorem State.setLine_pins (s : State) (i : Nat) (x : LineRun) : (s.setLine i x).pins = s.pins := rfl
@[simp] theorem State.setLine_mgmtAddr (s : State) (i : Nat) (x : LineRun) :
    (s.setLine i x).mgmtAddr = s.mgmtAddr := rfl
@[simp] theorem State.setLine_tables (s : State) (i : Nat) (x : LineRun) : (s.setLine i x).tables = s.tables := rfl
@[simp] theorem State.setLine_staging (s : State) (i : Nat) (x : LineRun) : (s.setLine i x).staging = s.staging := rfl
@[simp] theorem State.setLine_assembly (s : State) (i : Nat) (x : LineRun) :
    (s.setLine i x).assembly = s.assembly := rfl
@[simp] theorem State.setLine_points (s : State) (i : Nat) (x : LineRun) : (s.setLine i x).points = s.points := rfl
@[simp] theorem State.setLine_pointTimer (s : State) (i : Nat) (x : LineRun) :
    (s.setLine i x).pointTimer = s.pointTimer := rfl
@[simp] theorem State.setLine_conds (s : State) (i : Nat) (x : LineRun) : (s.setLine i x).conds = s.conds := rfl
@[simp] theorem State.setLine_flue (s : State) (i : Nat) (x : LineRun) : (s.setLine i x).flue = s.flue := rfl
@[simp] theorem State.setLine_seq (s : State) (i : Nat) (x : LineRun) : (s.setLine i x).seq = s.seq := rfl
@[simp] theorem State.setLine_circuits (s : State) (i : Nat) (x : LineRun) :
    (s.setLine i x).circuits = s.circuits := rfl
@[simp] theorem State.setLine_frostTimer (s : State) (i : Nat) (x : LineRun) :
    (s.setLine i x).frostTimer = s.frostTimer := rfl
@[simp] theorem State.setLine_roles (s : State) (i : Nat) (x : LineRun) : (s.setLine i x).roles = s.roles := rfl
@[simp] theorem State.setLine_lines (s : State) (i : Nat) (x : LineRun) :
    (s.setLine i x).lines = s.lines.set i x := rfl
@[simp] theorem State.setLine_gate (s : State) (i : Nat) (x : LineRun) : (s.setLine i x).gate = s.gate := rfl
@[simp] theorem State.setLine_ctlPort (s : State) (i : Nat) (x : LineRun) : (s.setLine i x).ctlPort = s.ctlPort := rfl
@[simp] theorem State.setLine_fieldPort (s : State) (i : Nat) (x : LineRun) :
    (s.setLine i x).fieldPort = s.fieldPort := rfl
@[simp] theorem State.setLine_fault (s : State) (i : Nat) (x : LineRun) : (s.setLine i x).fault = s.fault := rfl
@[simp] theorem State.setLine_trace (s : State) (i : Nat) (x : LineRun) : (s.setLine i x).trace = s.trace := rfl
@[simp] theorem State.setLine_store (s : State) (i : Nat) (x : LineRun) : (s.setLine i x).store = s.store := rfl

/-! `setGate` -/

@[simp] theorem State.setGate_pending (s : State) (x : Gate) : (s.setGate x).pending = s.pending := rfl
@[simp] theorem State.setGate_order (s : State) (x : Gate) : (s.setGate x).order = s.order := rfl
@[simp] theorem State.setGate_phase (s : State) (x : Gate) : (s.setGate x).phase = s.phase := rfl
@[simp] theorem State.setGate_clock (s : State) (x : Gate) : (s.setGate x).clock = s.clock := rfl
@[simp] theorem State.setGate_pins (s : State) (x : Gate) : (s.setGate x).pins = s.pins := rfl
@[simp] theorem State.setGate_mgmtAddr (s : State) (x : Gate) : (s.setGate x).mgmtAddr = s.mgmtAddr := rfl
@[simp] theorem State.setGate_tables (s : State) (x : Gate) : (s.setGate x).tables = s.tables := rfl
@[simp] theorem State.setGate_staging (s : State) (x : Gate) : (s.setGate x).staging = s.staging := rfl
@[simp] theorem State.setGate_assembly (s : State) (x : Gate) : (s.setGate x).assembly = s.assembly := rfl
@[simp] theorem State.setGate_points (s : State) (x : Gate) : (s.setGate x).points = s.points := rfl
@[simp] theorem State.setGate_pointTimer (s : State) (x : Gate) : (s.setGate x).pointTimer = s.pointTimer := rfl
@[simp] theorem State.setGate_conds (s : State) (x : Gate) : (s.setGate x).conds = s.conds := rfl
@[simp] theorem State.setGate_flue (s : State) (x : Gate) : (s.setGate x).flue = s.flue := rfl
@[simp] theorem State.setGate_seq (s : State) (x : Gate) : (s.setGate x).seq = s.seq := rfl
@[simp] theorem State.setGate_circuits (s : State) (x : Gate) : (s.setGate x).circuits = s.circuits := rfl
@[simp] theorem State.setGate_frostTimer (s : State) (x : Gate) : (s.setGate x).frostTimer = s.frostTimer := rfl
@[simp] theorem State.setGate_roles (s : State) (x : Gate) : (s.setGate x).roles = s.roles := rfl
@[simp] theorem State.setGate_lines (s : State) (x : Gate) : (s.setGate x).lines = s.lines := rfl
@[simp] theorem State.setGate_gate (s : State) (x : Gate) : (s.setGate x).gate = x := rfl
@[simp] theorem State.setGate_ctlPort (s : State) (x : Gate) : (s.setGate x).ctlPort = s.ctlPort := rfl
@[simp] theorem State.setGate_fieldPort (s : State) (x : Gate) : (s.setGate x).fieldPort = s.fieldPort := rfl
@[simp] theorem State.setGate_fault (s : State) (x : Gate) : (s.setGate x).fault = s.fault := rfl
@[simp] theorem State.setGate_trace (s : State) (x : Gate) : (s.setGate x).trace = s.trace := rfl
@[simp] theorem State.setGate_store (s : State) (x : Gate) : (s.setGate x).store = s.store := rfl

/-! `setFault` -/

@[simp] theorem State.setFault_pending (s : State) (x : FaultUnit) : (s.setFault x).pending = s.pending := rfl
@[simp] theorem State.setFault_order (s : State) (x : FaultUnit) : (s.setFault x).order = s.order := rfl
@[simp] theorem State.setFault_phase (s : State) (x : FaultUnit) : (s.setFault x).phase = s.phase := rfl
@[simp] theorem State.setFault_clock (s : State) (x : FaultUnit) : (s.setFault x).clock = s.clock := rfl
@[simp] theorem State.setFault_pins (s : State) (x : FaultUnit) : (s.setFault x).pins = s.pins := rfl
@[simp] theorem State.setFault_mgmtAddr (s : State) (x : FaultUnit) : (s.setFault x).mgmtAddr = s.mgmtAddr := rfl
@[simp] theorem State.setFault_tables (s : State) (x : FaultUnit) : (s.setFault x).tables = s.tables := rfl
@[simp] theorem State.setFault_staging (s : State) (x : FaultUnit) : (s.setFault x).staging = s.staging := rfl
@[simp] theorem State.setFault_assembly (s : State) (x : FaultUnit) : (s.setFault x).assembly = s.assembly := rfl
@[simp] theorem State.setFault_points (s : State) (x : FaultUnit) : (s.setFault x).points = s.points := rfl
@[simp] theorem State.setFault_pointTimer (s : State) (x : FaultUnit) :
    (s.setFault x).pointTimer = s.pointTimer := rfl
@[simp] theorem State.setFault_conds (s : State) (x : FaultUnit) : (s.setFault x).conds = s.conds := rfl
@[simp] theorem State.setFault_flue (s : State) (x : FaultUnit) : (s.setFault x).flue = s.flue := rfl
@[simp] theorem State.setFault_seq (s : State) (x : FaultUnit) : (s.setFault x).seq = s.seq := rfl
@[simp] theorem State.setFault_circuits (s : State) (x : FaultUnit) : (s.setFault x).circuits = s.circuits := rfl
@[simp] theorem State.setFault_frostTimer (s : State) (x : FaultUnit) :
    (s.setFault x).frostTimer = s.frostTimer := rfl
@[simp] theorem State.setFault_roles (s : State) (x : FaultUnit) : (s.setFault x).roles = s.roles := rfl
@[simp] theorem State.setFault_lines (s : State) (x : FaultUnit) : (s.setFault x).lines = s.lines := rfl
@[simp] theorem State.setFault_gate (s : State) (x : FaultUnit) : (s.setFault x).gate = s.gate := rfl
@[simp] theorem State.setFault_ctlPort (s : State) (x : FaultUnit) : (s.setFault x).ctlPort = s.ctlPort := rfl
@[simp] theorem State.setFault_fieldPort (s : State) (x : FaultUnit) : (s.setFault x).fieldPort = s.fieldPort := rfl
@[simp] theorem State.setFault_fault (s : State) (x : FaultUnit) : (s.setFault x).fault = x := rfl
@[simp] theorem State.setFault_trace (s : State) (x : FaultUnit) : (s.setFault x).trace = s.trace := rfl
@[simp] theorem State.setFault_store (s : State) (x : FaultUnit) : (s.setFault x).store = s.store := rfl

/-! `setTrace` -/

@[simp] theorem State.setTrace_pending (s : State) (x : TraceUnit) : (s.setTrace x).pending = s.pending := rfl
@[simp] theorem State.setTrace_order (s : State) (x : TraceUnit) : (s.setTrace x).order = s.order := rfl
@[simp] theorem State.setTrace_phase (s : State) (x : TraceUnit) : (s.setTrace x).phase = s.phase := rfl
@[simp] theorem State.setTrace_clock (s : State) (x : TraceUnit) : (s.setTrace x).clock = s.clock := rfl
@[simp] theorem State.setTrace_pins (s : State) (x : TraceUnit) : (s.setTrace x).pins = s.pins := rfl
@[simp] theorem State.setTrace_mgmtAddr (s : State) (x : TraceUnit) : (s.setTrace x).mgmtAddr = s.mgmtAddr := rfl
@[simp] theorem State.setTrace_tables (s : State) (x : TraceUnit) : (s.setTrace x).tables = s.tables := rfl
@[simp] theorem State.setTrace_staging (s : State) (x : TraceUnit) : (s.setTrace x).staging = s.staging := rfl
@[simp] theorem State.setTrace_assembly (s : State) (x : TraceUnit) : (s.setTrace x).assembly = s.assembly := rfl
@[simp] theorem State.setTrace_points (s : State) (x : TraceUnit) : (s.setTrace x).points = s.points := rfl
@[simp] theorem State.setTrace_pointTimer (s : State) (x : TraceUnit) :
    (s.setTrace x).pointTimer = s.pointTimer := rfl
@[simp] theorem State.setTrace_conds (s : State) (x : TraceUnit) : (s.setTrace x).conds = s.conds := rfl
@[simp] theorem State.setTrace_flue (s : State) (x : TraceUnit) : (s.setTrace x).flue = s.flue := rfl
@[simp] theorem State.setTrace_seq (s : State) (x : TraceUnit) : (s.setTrace x).seq = s.seq := rfl
@[simp] theorem State.setTrace_circuits (s : State) (x : TraceUnit) : (s.setTrace x).circuits = s.circuits := rfl
@[simp] theorem State.setTrace_frostTimer (s : State) (x : TraceUnit) :
    (s.setTrace x).frostTimer = s.frostTimer := rfl
@[simp] theorem State.setTrace_roles (s : State) (x : TraceUnit) : (s.setTrace x).roles = s.roles := rfl
@[simp] theorem State.setTrace_lines (s : State) (x : TraceUnit) : (s.setTrace x).lines = s.lines := rfl
@[simp] theorem State.setTrace_gate (s : State) (x : TraceUnit) : (s.setTrace x).gate = s.gate := rfl
@[simp] theorem State.setTrace_ctlPort (s : State) (x : TraceUnit) : (s.setTrace x).ctlPort = s.ctlPort := rfl
@[simp] theorem State.setTrace_fieldPort (s : State) (x : TraceUnit) : (s.setTrace x).fieldPort = s.fieldPort := rfl
@[simp] theorem State.setTrace_fault (s : State) (x : TraceUnit) : (s.setTrace x).fault = s.fault := rfl
@[simp] theorem State.setTrace_trace (s : State) (x : TraceUnit) : (s.setTrace x).trace = x := rfl
@[simp] theorem State.setTrace_store (s : State) (x : TraceUnit) : (s.setTrace x).store = s.store := rfl

/-! `setStore` -/

@[simp] theorem State.setStore_pending (s : State) (x : Store) : (s.setStore x).pending = s.pending := rfl
@[simp] theorem State.setStore_order (s : State) (x : Store) : (s.setStore x).order = s.order := rfl
@[simp] theorem State.setStore_phase (s : State) (x : Store) : (s.setStore x).phase = s.phase := rfl
@[simp] theorem State.setStore_clock (s : State) (x : Store) : (s.setStore x).clock = s.clock := rfl
@[simp] theorem State.setStore_pins (s : State) (x : Store) : (s.setStore x).pins = s.pins := rfl
@[simp] theorem State.setStore_mgmtAddr (s : State) (x : Store) : (s.setStore x).mgmtAddr = s.mgmtAddr := rfl
@[simp] theorem State.setStore_tables (s : State) (x : Store) : (s.setStore x).tables = s.tables := rfl
@[simp] theorem State.setStore_staging (s : State) (x : Store) : (s.setStore x).staging = s.staging := rfl
@[simp] theorem State.setStore_assembly (s : State) (x : Store) : (s.setStore x).assembly = s.assembly := rfl
@[simp] theorem State.setStore_points (s : State) (x : Store) : (s.setStore x).points = s.points := rfl
@[simp] theorem State.setStore_pointTimer (s : State) (x : Store) : (s.setStore x).pointTimer = s.pointTimer := rfl
@[simp] theorem State.setStore_conds (s : State) (x : Store) : (s.setStore x).conds = s.conds := rfl
@[simp] theorem State.setStore_flue (s : State) (x : Store) : (s.setStore x).flue = s.flue := rfl
@[simp] theorem State.setStore_seq (s : State) (x : Store) : (s.setStore x).seq = s.seq := rfl
@[simp] theorem State.setStore_circuits (s : State) (x : Store) : (s.setStore x).circuits = s.circuits := rfl
@[simp] theorem State.setStore_frostTimer (s : State) (x : Store) : (s.setStore x).frostTimer = s.frostTimer := rfl
@[simp] theorem State.setStore_roles (s : State) (x : Store) : (s.setStore x).roles = s.roles := rfl
@[simp] theorem State.setStore_lines (s : State) (x : Store) : (s.setStore x).lines = s.lines := rfl
@[simp] theorem State.setStore_gate (s : State) (x : Store) : (s.setStore x).gate = s.gate := rfl
@[simp] theorem State.setStore_ctlPort (s : State) (x : Store) : (s.setStore x).ctlPort = s.ctlPort := rfl
@[simp] theorem State.setStore_fieldPort (s : State) (x : Store) : (s.setStore x).fieldPort = s.fieldPort := rfl
@[simp] theorem State.setStore_fault (s : State) (x : Store) : (s.setStore x).fault = s.fault := rfl
@[simp] theorem State.setStore_trace (s : State) (x : Store) : (s.setStore x).trace = s.trace := rfl
@[simp] theorem State.setStore_store (s : State) (x : Store) : (s.setStore x).store = x := rfl

/-! `setPins` -/

@[simp] theorem State.setPins_pending (s : State) (x : Pins) : (s.setPins x).pending = s.pending := rfl
@[simp] theorem State.setPins_order (s : State) (x : Pins) : (s.setPins x).order = s.order := rfl
@[simp] theorem State.setPins_phase (s : State) (x : Pins) : (s.setPins x).phase = s.phase := rfl
@[simp] theorem State.setPins_clock (s : State) (x : Pins) : (s.setPins x).clock = s.clock := rfl
@[simp] theorem State.setPins_pins (s : State) (x : Pins) : (s.setPins x).pins = x := rfl
@[simp] theorem State.setPins_mgmtAddr (s : State) (x : Pins) : (s.setPins x).mgmtAddr = s.mgmtAddr := rfl
@[simp] theorem State.setPins_tables (s : State) (x : Pins) : (s.setPins x).tables = s.tables := rfl
@[simp] theorem State.setPins_staging (s : State) (x : Pins) : (s.setPins x).staging = s.staging := rfl
@[simp] theorem State.setPins_assembly (s : State) (x : Pins) : (s.setPins x).assembly = s.assembly := rfl
@[simp] theorem State.setPins_points (s : State) (x : Pins) : (s.setPins x).points = s.points := rfl
@[simp] theorem State.setPins_pointTimer (s : State) (x : Pins) : (s.setPins x).pointTimer = s.pointTimer := rfl
@[simp] theorem State.setPins_conds (s : State) (x : Pins) : (s.setPins x).conds = s.conds := rfl
@[simp] theorem State.setPins_flue (s : State) (x : Pins) : (s.setPins x).flue = s.flue := rfl
@[simp] theorem State.setPins_seq (s : State) (x : Pins) : (s.setPins x).seq = s.seq := rfl
@[simp] theorem State.setPins_circuits (s : State) (x : Pins) : (s.setPins x).circuits = s.circuits := rfl
@[simp] theorem State.setPins_frostTimer (s : State) (x : Pins) : (s.setPins x).frostTimer = s.frostTimer := rfl
@[simp] theorem State.setPins_roles (s : State) (x : Pins) : (s.setPins x).roles = s.roles := rfl
@[simp] theorem State.setPins_lines (s : State) (x : Pins) : (s.setPins x).lines = s.lines := rfl
@[simp] theorem State.setPins_gate (s : State) (x : Pins) : (s.setPins x).gate = s.gate := rfl
@[simp] theorem State.setPins_ctlPort (s : State) (x : Pins) : (s.setPins x).ctlPort = s.ctlPort := rfl
@[simp] theorem State.setPins_fieldPort (s : State) (x : Pins) : (s.setPins x).fieldPort = s.fieldPort := rfl
@[simp] theorem State.setPins_fault (s : State) (x : Pins) : (s.setPins x).fault = s.fault := rfl
@[simp] theorem State.setPins_trace (s : State) (x : Pins) : (s.setPins x).trace = s.trace := rfl
@[simp] theorem State.setPins_store (s : State) (x : Pins) : (s.setPins x).store = s.store := rfl

/-! `setSeqRun` -/

@[simp] theorem State.setSeqRun_pending (s : State) (i : Nat) (x : SeqRun) :
    (s.setSeqRun i x).pending = s.pending := rfl
@[simp] theorem State.setSeqRun_order (s : State) (i : Nat) (x : SeqRun) : (s.setSeqRun i x).order = s.order := rfl
@[simp] theorem State.setSeqRun_phase (s : State) (i : Nat) (x : SeqRun) : (s.setSeqRun i x).phase = s.phase := rfl
@[simp] theorem State.setSeqRun_clock (s : State) (i : Nat) (x : SeqRun) : (s.setSeqRun i x).clock = s.clock := rfl
@[simp] theorem State.setSeqRun_pins (s : State) (i : Nat) (x : SeqRun) : (s.setSeqRun i x).pins = s.pins := rfl
@[simp] theorem State.setSeqRun_mgmtAddr (s : State) (i : Nat) (x : SeqRun) :
    (s.setSeqRun i x).mgmtAddr = s.mgmtAddr := rfl
@[simp] theorem State.setSeqRun_tables (s : State) (i : Nat) (x : SeqRun) : (s.setSeqRun i x).tables = s.tables := rfl
@[simp] theorem State.setSeqRun_staging (s : State) (i : Nat) (x : SeqRun) :
    (s.setSeqRun i x).staging = s.staging := rfl
@[simp] theorem State.setSeqRun_assembly (s : State) (i : Nat) (x : SeqRun) :
    (s.setSeqRun i x).assembly = s.assembly := rfl
@[simp] theorem State.setSeqRun_points (s : State) (i : Nat) (x : SeqRun) : (s.setSeqRun i x).points = s.points := rfl
@[simp] theorem State.setSeqRun_pointTimer (s : State) (i : Nat) (x : SeqRun) :
    (s.setSeqRun i x).pointTimer = s.pointTimer := rfl
@[simp] theorem State.setSeqRun_conds (s : State) (i : Nat) (x : SeqRun) : (s.setSeqRun i x).conds = s.conds := rfl
@[simp] theorem State.setSeqRun_flue (s : State) (i : Nat) (x : SeqRun) : (s.setSeqRun i x).flue = s.flue := rfl
@[simp] theorem State.setSeqRun_seq (s : State) (i : Nat) (x : SeqRun) :
    (s.setSeqRun i x).seq = { s.seq with runs := s.seq.runs.set i x } := rfl
@[simp] theorem State.setSeqRun_circuits (s : State) (i : Nat) (x : SeqRun) :
    (s.setSeqRun i x).circuits = s.circuits := rfl
@[simp] theorem State.setSeqRun_frostTimer (s : State) (i : Nat) (x : SeqRun) :
    (s.setSeqRun i x).frostTimer = s.frostTimer := rfl
@[simp] theorem State.setSeqRun_roles (s : State) (i : Nat) (x : SeqRun) : (s.setSeqRun i x).roles = s.roles := rfl
@[simp] theorem State.setSeqRun_lines (s : State) (i : Nat) (x : SeqRun) : (s.setSeqRun i x).lines = s.lines := rfl
@[simp] theorem State.setSeqRun_gate (s : State) (i : Nat) (x : SeqRun) : (s.setSeqRun i x).gate = s.gate := rfl
@[simp] theorem State.setSeqRun_ctlPort (s : State) (i : Nat) (x : SeqRun) :
    (s.setSeqRun i x).ctlPort = s.ctlPort := rfl
@[simp] theorem State.setSeqRun_fieldPort (s : State) (i : Nat) (x : SeqRun) :
    (s.setSeqRun i x).fieldPort = s.fieldPort := rfl
@[simp] theorem State.setSeqRun_fault (s : State) (i : Nat) (x : SeqRun) : (s.setSeqRun i x).fault = s.fault := rfl
@[simp] theorem State.setSeqRun_trace (s : State) (i : Nat) (x : SeqRun) : (s.setSeqRun i x).trace = s.trace := rfl
@[simp] theorem State.setSeqRun_store (s : State) (i : Nat) (x : SeqRun) : (s.setSeqRun i x).store = s.store := rfl

/-! `setChain` -/

@[simp] theorem State.setChain_pending (s : State) (x : List Nat) : (s.setChain x).pending = s.pending := rfl
@[simp] theorem State.setChain_order (s : State) (x : List Nat) : (s.setChain x).order = s.order := rfl
@[simp] theorem State.setChain_phase (s : State) (x : List Nat) : (s.setChain x).phase = s.phase := rfl
@[simp] theorem State.setChain_clock (s : State) (x : List Nat) : (s.setChain x).clock = s.clock := rfl
@[simp] theorem State.setChain_pins (s : State) (x : List Nat) : (s.setChain x).pins = s.pins := rfl
@[simp] theorem State.setChain_mgmtAddr (s : State) (x : List Nat) : (s.setChain x).mgmtAddr = s.mgmtAddr := rfl
@[simp] theorem State.setChain_tables (s : State) (x : List Nat) : (s.setChain x).tables = s.tables := rfl
@[simp] theorem State.setChain_staging (s : State) (x : List Nat) : (s.setChain x).staging = s.staging := rfl
@[simp] theorem State.setChain_assembly (s : State) (x : List Nat) : (s.setChain x).assembly = s.assembly := rfl
@[simp] theorem State.setChain_points (s : State) (x : List Nat) : (s.setChain x).points = s.points := rfl
@[simp] theorem State.setChain_pointTimer (s : State) (x : List Nat) : (s.setChain x).pointTimer = s.pointTimer := rfl
@[simp] theorem State.setChain_conds (s : State) (x : List Nat) : (s.setChain x).conds = s.conds := rfl
@[simp] theorem State.setChain_flue (s : State) (x : List Nat) : (s.setChain x).flue = s.flue := rfl
@[simp] theorem State.setChain_seq (s : State) (x : List Nat) : (s.setChain x).seq = { s.seq with chain := x } := rfl
@[simp] theorem State.setChain_circuits (s : State) (x : List Nat) : (s.setChain x).circuits = s.circuits := rfl
@[simp] theorem State.setChain_frostTimer (s : State) (x : List Nat) : (s.setChain x).frostTimer = s.frostTimer := rfl
@[simp] theorem State.setChain_roles (s : State) (x : List Nat) : (s.setChain x).roles = s.roles := rfl
@[simp] theorem State.setChain_lines (s : State) (x : List Nat) : (s.setChain x).lines = s.lines := rfl
@[simp] theorem State.setChain_gate (s : State) (x : List Nat) : (s.setChain x).gate = s.gate := rfl
@[simp] theorem State.setChain_ctlPort (s : State) (x : List Nat) : (s.setChain x).ctlPort = s.ctlPort := rfl
@[simp] theorem State.setChain_fieldPort (s : State) (x : List Nat) : (s.setChain x).fieldPort = s.fieldPort := rfl
@[simp] theorem State.setChain_fault (s : State) (x : List Nat) : (s.setChain x).fault = s.fault := rfl
@[simp] theorem State.setChain_trace (s : State) (x : List Nat) : (s.setChain x).trace = s.trace := rfl
@[simp] theorem State.setChain_store (s : State) (x : List Nat) : (s.setChain x).store = s.store := rfl

/-! `setRunning` -/

@[simp] theorem State.setRunning_pending (s : State) (x : Option Running) :
    (s.setRunning x).pending = s.pending := rfl
@[simp] theorem State.setRunning_order (s : State) (x : Option Running) : (s.setRunning x).order = s.order := rfl
@[simp] theorem State.setRunning_phase (s : State) (x : Option Running) : (s.setRunning x).phase = s.phase := rfl
@[simp] theorem State.setRunning_clock (s : State) (x : Option Running) : (s.setRunning x).clock = s.clock := rfl
@[simp] theorem State.setRunning_pins (s : State) (x : Option Running) : (s.setRunning x).pins = s.pins := rfl
@[simp] theorem State.setRunning_mgmtAddr (s : State) (x : Option Running) :
    (s.setRunning x).mgmtAddr = s.mgmtAddr := rfl
@[simp] theorem State.setRunning_tables (s : State) (x : Option Running) : (s.setRunning x).tables = s.tables := rfl
@[simp] theorem State.setRunning_staging (s : State) (x : Option Running) :
    (s.setRunning x).staging = s.staging := rfl
@[simp] theorem State.setRunning_assembly (s : State) (x : Option Running) :
    (s.setRunning x).assembly = s.assembly := rfl
@[simp] theorem State.setRunning_points (s : State) (x : Option Running) : (s.setRunning x).points = s.points := rfl
@[simp] theorem State.setRunning_pointTimer (s : State) (x : Option Running) :
    (s.setRunning x).pointTimer = s.pointTimer := rfl
@[simp] theorem State.setRunning_conds (s : State) (x : Option Running) : (s.setRunning x).conds = s.conds := rfl
@[simp] theorem State.setRunning_flue (s : State) (x : Option Running) : (s.setRunning x).flue = s.flue := rfl
@[simp] theorem State.setRunning_seq (s : State) (x : Option Running) :
    (s.setRunning x).seq = { s.seq with running := x } := rfl
@[simp] theorem State.setRunning_circuits (s : State) (x : Option Running) :
    (s.setRunning x).circuits = s.circuits := rfl
@[simp] theorem State.setRunning_frostTimer (s : State) (x : Option Running) :
    (s.setRunning x).frostTimer = s.frostTimer := rfl
@[simp] theorem State.setRunning_roles (s : State) (x : Option Running) : (s.setRunning x).roles = s.roles := rfl
@[simp] theorem State.setRunning_lines (s : State) (x : Option Running) : (s.setRunning x).lines = s.lines := rfl
@[simp] theorem State.setRunning_gate (s : State) (x : Option Running) : (s.setRunning x).gate = s.gate := rfl
@[simp] theorem State.setRunning_ctlPort (s : State) (x : Option Running) :
    (s.setRunning x).ctlPort = s.ctlPort := rfl
@[simp] theorem State.setRunning_fieldPort (s : State) (x : Option Running) :
    (s.setRunning x).fieldPort = s.fieldPort := rfl
@[simp] theorem State.setRunning_fault (s : State) (x : Option Running) : (s.setRunning x).fault = s.fault := rfl
@[simp] theorem State.setRunning_trace (s : State) (x : Option Running) : (s.setRunning x).trace = s.trace := rfl
@[simp] theorem State.setRunning_store (s : State) (x : Option Running) : (s.setRunning x).store = s.store := rfl

/-! `setTrigger` -/

@[simp] theorem State.setTrigger_pending (s : State) (i : Nat) (x : Trigger) :
    (s.setTrigger i x).pending = s.pending := rfl
@[simp] theorem State.setTrigger_order (s : State) (i : Nat) (x : Trigger) : (s.setTrigger i x).order = s.order := rfl
@[simp] theorem State.setTrigger_phase (s : State) (i : Nat) (x : Trigger) : (s.setTrigger i x).phase = s.phase := rfl
@[simp] theorem State.setTrigger_clock (s : State) (i : Nat) (x : Trigger) : (s.setTrigger i x).clock = s.clock := rfl
@[simp] theorem State.setTrigger_pins (s : State) (i : Nat) (x : Trigger) : (s.setTrigger i x).pins = s.pins := rfl
@[simp] theorem State.setTrigger_mgmtAddr (s : State) (i : Nat) (x : Trigger) :
    (s.setTrigger i x).mgmtAddr = s.mgmtAddr := rfl
@[simp] theorem State.setTrigger_tables (s : State) (i : Nat) (x : Trigger) :
    (s.setTrigger i x).tables = s.tables := rfl
@[simp] theorem State.setTrigger_staging (s : State) (i : Nat) (x : Trigger) :
    (s.setTrigger i x).staging = s.staging := rfl
@[simp] theorem State.setTrigger_assembly (s : State) (i : Nat) (x : Trigger) :
    (s.setTrigger i x).assembly = s.assembly := rfl
@[simp] theorem State.setTrigger_points (s : State) (i : Nat) (x : Trigger) :
    (s.setTrigger i x).points = s.points := rfl
@[simp] theorem State.setTrigger_pointTimer (s : State) (i : Nat) (x : Trigger) :
    (s.setTrigger i x).pointTimer = s.pointTimer := rfl
@[simp] theorem State.setTrigger_conds (s : State) (i : Nat) (x : Trigger) : (s.setTrigger i x).conds = s.conds := rfl
@[simp] theorem State.setTrigger_flue (s : State) (i : Nat) (x : Trigger) : (s.setTrigger i x).flue = s.flue := rfl
@[simp] theorem State.setTrigger_seq (s : State) (i : Nat) (x : Trigger) :
    (s.setTrigger i x).seq = { s.seq with triggers := s.seq.triggers.set i x } := rfl
@[simp] theorem State.setTrigger_circuits (s : State) (i : Nat) (x : Trigger) :
    (s.setTrigger i x).circuits = s.circuits := rfl
@[simp] theorem State.setTrigger_frostTimer (s : State) (i : Nat) (x : Trigger) :
    (s.setTrigger i x).frostTimer = s.frostTimer := rfl
@[simp] theorem State.setTrigger_roles (s : State) (i : Nat) (x : Trigger) : (s.setTrigger i x).roles = s.roles := rfl
@[simp] theorem State.setTrigger_lines (s : State) (i : Nat) (x : Trigger) : (s.setTrigger i x).lines = s.lines := rfl
@[simp] theorem State.setTrigger_gate (s : State) (i : Nat) (x : Trigger) : (s.setTrigger i x).gate = s.gate := rfl
@[simp] theorem State.setTrigger_ctlPort (s : State) (i : Nat) (x : Trigger) :
    (s.setTrigger i x).ctlPort = s.ctlPort := rfl
@[simp] theorem State.setTrigger_fieldPort (s : State) (i : Nat) (x : Trigger) :
    (s.setTrigger i x).fieldPort = s.fieldPort := rfl
@[simp] theorem State.setTrigger_fault (s : State) (i : Nat) (x : Trigger) : (s.setTrigger i x).fault = s.fault := rfl
@[simp] theorem State.setTrigger_trace (s : State) (i : Nat) (x : Trigger) : (s.setTrigger i x).trace = s.trace := rfl
@[simp] theorem State.setTrigger_store (s : State) (i : Nat) (x : Trigger) : (s.setTrigger i x).store = s.store := rfl

/-! `setSlot` -/

@[simp] theorem State.setSlot_pending (s : State) (i : Nat) (x : Option Slot) :
    (s.setSlot i x).pending = s.pending := rfl
@[simp] theorem State.setSlot_order (s : State) (i : Nat) (x : Option Slot) : (s.setSlot i x).order = s.order := rfl
@[simp] theorem State.setSlot_phase (s : State) (i : Nat) (x : Option Slot) : (s.setSlot i x).phase = s.phase := rfl
@[simp] theorem State.setSlot_clock (s : State) (i : Nat) (x : Option Slot) : (s.setSlot i x).clock = s.clock := rfl
@[simp] theorem State.setSlot_pins (s : State) (i : Nat) (x : Option Slot) : (s.setSlot i x).pins = s.pins := rfl
@[simp] theorem State.setSlot_mgmtAddr (s : State) (i : Nat) (x : Option Slot) :
    (s.setSlot i x).mgmtAddr = s.mgmtAddr := rfl
@[simp] theorem State.setSlot_tables (s : State) (i : Nat) (x : Option Slot) :
    (s.setSlot i x).tables = s.tables := rfl
@[simp] theorem State.setSlot_staging (s : State) (i : Nat) (x : Option Slot) :
    (s.setSlot i x).staging = s.staging := rfl
@[simp] theorem State.setSlot_assembly (s : State) (i : Nat) (x : Option Slot) :
    (s.setSlot i x).assembly = s.assembly := rfl
@[simp] theorem State.setSlot_points (s : State) (i : Nat) (x : Option Slot) :
    (s.setSlot i x).points = s.points := rfl
@[simp] theorem State.setSlot_pointTimer (s : State) (i : Nat) (x : Option Slot) :
    (s.setSlot i x).pointTimer = s.pointTimer := rfl
@[simp] theorem State.setSlot_conds (s : State) (i : Nat) (x : Option Slot) : (s.setSlot i x).conds = s.conds := rfl
@[simp] theorem State.setSlot_flue (s : State) (i : Nat) (x : Option Slot) : (s.setSlot i x).flue = s.flue := rfl
@[simp] theorem State.setSlot_seq (s : State) (i : Nat) (x : Option Slot) : (s.setSlot i x).seq = s.seq := rfl
@[simp] theorem State.setSlot_circuits (s : State) (i : Nat) (x : Option Slot) :
    (s.setSlot i x).circuits = s.circuits := rfl
@[simp] theorem State.setSlot_frostTimer (s : State) (i : Nat) (x : Option Slot) :
    (s.setSlot i x).frostTimer = s.frostTimer := rfl
@[simp] theorem State.setSlot_roles (s : State) (i : Nat) (x : Option Slot) : (s.setSlot i x).roles = s.roles := rfl
@[simp] theorem State.setSlot_lines (s : State) (i : Nat) (x : Option Slot) : (s.setSlot i x).lines = s.lines := rfl
@[simp] theorem State.setSlot_gate (s : State) (i : Nat) (x : Option Slot) :
    (s.setSlot i x).gate = { s.gate with slots := s.gate.slots.set i x } := rfl
@[simp] theorem State.setSlot_ctlPort (s : State) (i : Nat) (x : Option Slot) :
    (s.setSlot i x).ctlPort = s.ctlPort := rfl
@[simp] theorem State.setSlot_fieldPort (s : State) (i : Nat) (x : Option Slot) :
    (s.setSlot i x).fieldPort = s.fieldPort := rfl
@[simp] theorem State.setSlot_fault (s : State) (i : Nat) (x : Option Slot) : (s.setSlot i x).fault = s.fault := rfl
@[simp] theorem State.setSlot_trace (s : State) (i : Nat) (x : Option Slot) : (s.setSlot i x).trace = s.trace := rfl
@[simp] theorem State.setSlot_store (s : State) (i : Nat) (x : Option Slot) : (s.setSlot i x).store = s.store := rfl

/-! `setData` -/

@[simp] theorem State.setData_pending (s : State) (x : LockoutData) : (s.setData x).pending = s.pending := rfl
@[simp] theorem State.setData_order (s : State) (x : LockoutData) : (s.setData x).order = s.order := rfl
@[simp] theorem State.setData_phase (s : State) (x : LockoutData) : (s.setData x).phase = s.phase := rfl
@[simp] theorem State.setData_clock (s : State) (x : LockoutData) : (s.setData x).clock = s.clock := rfl
@[simp] theorem State.setData_pins (s : State) (x : LockoutData) : (s.setData x).pins = s.pins := rfl
@[simp] theorem State.setData_mgmtAddr (s : State) (x : LockoutData) : (s.setData x).mgmtAddr = s.mgmtAddr := rfl
@[simp] theorem State.setData_tables (s : State) (x : LockoutData) : (s.setData x).tables = s.tables := rfl
@[simp] theorem State.setData_staging (s : State) (x : LockoutData) : (s.setData x).staging = s.staging := rfl
@[simp] theorem State.setData_assembly (s : State) (x : LockoutData) : (s.setData x).assembly = s.assembly := rfl
@[simp] theorem State.setData_points (s : State) (x : LockoutData) : (s.setData x).points = s.points := rfl
@[simp] theorem State.setData_pointTimer (s : State) (x : LockoutData) :
    (s.setData x).pointTimer = s.pointTimer := rfl
@[simp] theorem State.setData_conds (s : State) (x : LockoutData) : (s.setData x).conds = s.conds := rfl
@[simp] theorem State.setData_flue (s : State) (x : LockoutData) : (s.setData x).flue = s.flue := rfl
@[simp] theorem State.setData_seq (s : State) (x : LockoutData) : (s.setData x).seq = s.seq := rfl
@[simp] theorem State.setData_circuits (s : State) (x : LockoutData) : (s.setData x).circuits = s.circuits := rfl
@[simp] theorem State.setData_frostTimer (s : State) (x : LockoutData) :
    (s.setData x).frostTimer = s.frostTimer := rfl
@[simp] theorem State.setData_roles (s : State) (x : LockoutData) : (s.setData x).roles = s.roles := rfl
@[simp] theorem State.setData_lines (s : State) (x : LockoutData) : (s.setData x).lines = s.lines := rfl
@[simp] theorem State.setData_gate (s : State) (x : LockoutData) : (s.setData x).gate = s.gate := rfl
@[simp] theorem State.setData_ctlPort (s : State) (x : LockoutData) : (s.setData x).ctlPort = s.ctlPort := rfl
@[simp] theorem State.setData_fieldPort (s : State) (x : LockoutData) : (s.setData x).fieldPort = s.fieldPort := rfl
@[simp] theorem State.setData_fault (s : State) (x : LockoutData) :
    (s.setData x).fault = { s.fault with data := x } := rfl
@[simp] theorem State.setData_trace (s : State) (x : LockoutData) : (s.setData x).trace = s.trace := rfl
@[simp] theorem State.setData_store (s : State) (x : LockoutData) : (s.setData x).store = s.store := rfl

/-! `raiseNotice` -/

@[simp] theorem State.raiseNotice_pending (s : State) (k : NoticeKind) (x : List Byte) :
    (s.raiseNotice k x).pending = s.pending := rfl
@[simp] theorem State.raiseNotice_order (s : State) (k : NoticeKind) (x : List Byte) :
    (s.raiseNotice k x).order = s.order := rfl
@[simp] theorem State.raiseNotice_phase (s : State) (k : NoticeKind) (x : List Byte) :
    (s.raiseNotice k x).phase = s.phase := rfl
@[simp] theorem State.raiseNotice_clock (s : State) (k : NoticeKind) (x : List Byte) :
    (s.raiseNotice k x).clock = s.clock := rfl
@[simp] theorem State.raiseNotice_pins (s : State) (k : NoticeKind) (x : List Byte) :
    (s.raiseNotice k x).pins = s.pins := rfl
@[simp] theorem State.raiseNotice_mgmtAddr (s : State) (k : NoticeKind) (x : List Byte) :
    (s.raiseNotice k x).mgmtAddr = s.mgmtAddr := rfl
@[simp] theorem State.raiseNotice_tables (s : State) (k : NoticeKind) (x : List Byte) :
    (s.raiseNotice k x).tables = s.tables := rfl
@[simp] theorem State.raiseNotice_staging (s : State) (k : NoticeKind) (x : List Byte) :
    (s.raiseNotice k x).staging = s.staging := rfl
@[simp] theorem State.raiseNotice_assembly (s : State) (k : NoticeKind) (x : List Byte) :
    (s.raiseNotice k x).assembly = s.assembly := rfl
@[simp] theorem State.raiseNotice_points (s : State) (k : NoticeKind) (x : List Byte) :
    (s.raiseNotice k x).points = s.points := rfl
@[simp] theorem State.raiseNotice_pointTimer (s : State) (k : NoticeKind) (x : List Byte) :
    (s.raiseNotice k x).pointTimer = s.pointTimer := rfl
@[simp] theorem State.raiseNotice_conds (s : State) (k : NoticeKind) (x : List Byte) :
    (s.raiseNotice k x).conds = s.conds := rfl
@[simp] theorem State.raiseNotice_flue (s : State) (k : NoticeKind) (x : List Byte) :
    (s.raiseNotice k x).flue = s.flue := rfl
@[simp] theorem State.raiseNotice_seq (s : State) (k : NoticeKind) (x : List Byte) :
    (s.raiseNotice k x).seq = s.seq := rfl
@[simp] theorem State.raiseNotice_circuits (s : State) (k : NoticeKind) (x : List Byte) :
    (s.raiseNotice k x).circuits = s.circuits := rfl
@[simp] theorem State.raiseNotice_frostTimer (s : State) (k : NoticeKind) (x : List Byte) :
    (s.raiseNotice k x).frostTimer = s.frostTimer := rfl
@[simp] theorem State.raiseNotice_roles (s : State) (k : NoticeKind) (x : List Byte) :
    (s.raiseNotice k x).roles = s.roles := rfl
@[simp] theorem State.raiseNotice_lines (s : State) (k : NoticeKind) (x : List Byte) :
    (s.raiseNotice k x).lines = s.lines := rfl
@[simp] theorem State.raiseNotice_gate (s : State) (k : NoticeKind) (x : List Byte) :
    (s.raiseNotice k x).gate = { s.gate with notices := s.gate.notices.set (codeOf NoticeKind.all k) { flag := true, newer := true, content := x } } := rfl
@[simp] theorem State.raiseNotice_ctlPort (s : State) (k : NoticeKind) (x : List Byte) :
    (s.raiseNotice k x).ctlPort = s.ctlPort := rfl
@[simp] theorem State.raiseNotice_fieldPort (s : State) (k : NoticeKind) (x : List Byte) :
    (s.raiseNotice k x).fieldPort = s.fieldPort := rfl
@[simp] theorem State.raiseNotice_fault (s : State) (k : NoticeKind) (x : List Byte) :
    (s.raiseNotice k x).fault = s.fault := rfl
@[simp] theorem State.raiseNotice_trace (s : State) (k : NoticeKind) (x : List Byte) :
    (s.raiseNotice k x).trace = s.trace := rfl
@[simp] theorem State.raiseNotice_store (s : State) (k : NoticeKind) (x : List Byte) :
    (s.raiseNotice k x).store = s.store := rfl

/-! `reply` -/

@[simp] theorem State.reply_pending (s : State) (d : Byte) (r : Result) : (s.reply d r).pending = s.pending := rfl
@[simp] theorem State.reply_order (s : State) (d : Byte) (r : Result) : (s.reply d r).order = s.order := rfl
@[simp] theorem State.reply_phase (s : State) (d : Byte) (r : Result) : (s.reply d r).phase = s.phase := rfl
@[simp] theorem State.reply_clock (s : State) (d : Byte) (r : Result) : (s.reply d r).clock = s.clock := rfl
@[simp] theorem State.reply_pins (s : State) (d : Byte) (r : Result) : (s.reply d r).pins = s.pins := rfl
@[simp] theorem State.reply_mgmtAddr (s : State) (d : Byte) (r : Result) : (s.reply d r).mgmtAddr = s.mgmtAddr := rfl
@[simp] theorem State.reply_tables (s : State) (d : Byte) (r : Result) : (s.reply d r).tables = s.tables := rfl
@[simp] theorem State.reply_staging (s : State) (d : Byte) (r : Result) : (s.reply d r).staging = s.staging := rfl
@[simp] theorem State.reply_assembly (s : State) (d : Byte) (r : Result) : (s.reply d r).assembly = s.assembly := rfl
@[simp] theorem State.reply_points (s : State) (d : Byte) (r : Result) : (s.reply d r).points = s.points := rfl
@[simp] theorem State.reply_pointTimer (s : State) (d : Byte) (r : Result) :
    (s.reply d r).pointTimer = s.pointTimer := rfl
@[simp] theorem State.reply_conds (s : State) (d : Byte) (r : Result) : (s.reply d r).conds = s.conds := rfl
@[simp] theorem State.reply_flue (s : State) (d : Byte) (r : Result) : (s.reply d r).flue = s.flue := rfl
@[simp] theorem State.reply_seq (s : State) (d : Byte) (r : Result) : (s.reply d r).seq = s.seq := rfl
@[simp] theorem State.reply_circuits (s : State) (d : Byte) (r : Result) : (s.reply d r).circuits = s.circuits := rfl
@[simp] theorem State.reply_frostTimer (s : State) (d : Byte) (r : Result) :
    (s.reply d r).frostTimer = s.frostTimer := rfl
@[simp] theorem State.reply_roles (s : State) (d : Byte) (r : Result) : (s.reply d r).roles = s.roles := rfl
@[simp] theorem State.reply_lines (s : State) (d : Byte) (r : Result) : (s.reply d r).lines = s.lines := rfl
@[simp] theorem State.reply_gate (s : State) (d : Byte) (r : Result) :
    (s.reply d r).gate = { s.gate with reply := s.gate.reply ++ [{ src := u8 s.mgmtAddr, dst := d, kind := kindByte 5 r.code, payload := r.payload }] } := rfl
@[simp] theorem State.reply_ctlPort (s : State) (d : Byte) (r : Result) : (s.reply d r).ctlPort = s.ctlPort := rfl
@[simp] theorem State.reply_fieldPort (s : State) (d : Byte) (r : Result) :
    (s.reply d r).fieldPort = s.fieldPort := rfl
@[simp] theorem State.reply_fault (s : State) (d : Byte) (r : Result) : (s.reply d r).fault = s.fault := rfl
@[simp] theorem State.reply_trace (s : State) (d : Byte) (r : Result) : (s.reply d r).trace = s.trace := rfl
@[simp] theorem State.reply_store (s : State) (d : Byte) (r : Result) : (s.reply d r).store = s.store := rfl

/-! `raiseLockout` -/

@[simp] theorem State.raiseLockout_pending (s : State) : (s.raiseLockout).pending = s.pending := rfl
@[simp] theorem State.raiseLockout_order (s : State) : (s.raiseLockout).order = s.order := rfl
@[simp] theorem State.raiseLockout_phase (s : State) : (s.raiseLockout).phase = s.phase := rfl
@[simp] theorem State.raiseLockout_clock (s : State) : (s.raiseLockout).clock = s.clock := rfl
@[simp] theorem State.raiseLockout_pins (s : State) : (s.raiseLockout).pins = s.pins := rfl
@[simp] theorem State.raiseLockout_mgmtAddr (s : State) : (s.raiseLockout).mgmtAddr = s.mgmtAddr := rfl
@[simp] theorem State.raiseLockout_tables (s : State) : (s.raiseLockout).tables = s.tables := rfl
@[simp] theorem State.raiseLockout_staging (s : State) : (s.raiseLockout).staging = s.staging := rfl
@[simp] theorem State.raiseLockout_assembly (s : State) : (s.raiseLockout).assembly = s.assembly := rfl
@[simp] theorem State.raiseLockout_points (s : State) : (s.raiseLockout).points = s.points := rfl
@[simp] theorem State.raiseLockout_pointTimer (s : State) : (s.raiseLockout).pointTimer = s.pointTimer := rfl
@[simp] theorem State.raiseLockout_conds (s : State) : (s.raiseLockout).conds = s.conds := rfl
@[simp] theorem State.raiseLockout_flue (s : State) : (s.raiseLockout).flue = s.flue := rfl
@[simp] theorem State.raiseLockout_seq (s : State) : (s.raiseLockout).seq = s.seq := rfl
@[simp] theorem State.raiseLockout_circuits (s : State) : (s.raiseLockout).circuits = s.circuits := rfl
@[simp] theorem State.raiseLockout_frostTimer (s : State) : (s.raiseLockout).frostTimer = s.frostTimer := rfl
@[simp] theorem State.raiseLockout_roles (s : State) : (s.raiseLockout).roles = s.roles := rfl
@[simp] theorem State.raiseLockout_lines (s : State) : (s.raiseLockout).lines = s.lines := rfl
@[simp] theorem State.raiseLockout_gate (s : State) :
    (s.raiseLockout).gate = { s.gate with notices := s.gate.notices.set (codeOf NoticeKind.all .lockout) { flag := true, newer := true, content := [] } } := rfl
@[simp] theorem State.raiseLockout_ctlPort (s : State) : (s.raiseLockout).ctlPort = s.ctlPort := rfl
@[simp] theorem State.raiseLockout_fieldPort (s : State) : (s.raiseLockout).fieldPort = s.fieldPort := rfl
@[simp] theorem State.raiseLockout_fault (s : State) : (s.raiseLockout).fault = s.fault := rfl
@[simp] theorem State.raiseLockout_trace (s : State) : (s.raiseLockout).trace = s.trace := rfl
@[simp] theorem State.raiseLockout_store (s : State) : (s.raiseLockout).store = s.store := rfl

/-! The work list -/

@[simp] theorem Work.withSt_st (w : Work) (s : State) : (w.withSt s).st = s := rfl
@[simp] theorem Work.withSt_stack (w : Work) (s : State) : (w.withSt s).stack = w.stack := rfl
@[simp] theorem Work.withSt_fins (w : Work) (s : State) : (w.withSt s).fins = w.fins := rfl
@[simp] theorem Work.withSt_emitted (w : Work) (s : State) : (w.withSt s).emitted = w.emitted := rfl
@[simp] theorem Work.withSt_queue (w : Work) (s : State) : (w.withSt s).queue = w.queue := rfl
@[simp] theorem Work.push_st (w : Work) (l : List Act) : (w.push l).st = w.st := rfl
@[simp] theorem Work.push_stack (w : Work) (l : List Act) : (w.push l).stack = l ++ w.stack := rfl
@[simp] theorem Work.push_fins (w : Work) (l : List Act) : (w.push l).fins = w.fins := rfl
@[simp] theorem Work.push_emitted (w : Work) (l : List Act) : (w.push l).emitted = w.emitted := rfl
@[simp] theorem Work.push_queue (w : Work) (l : List Act) : (w.push l).queue = w.queue := rfl
@[simp] theorem Work.emit_st (w : Work) (l : List Act) : (w.emit l).st = w.st := rfl
@[simp] theorem Work.emit_stack (w : Work) (l : List Act) : (w.emit l).stack = w.stack := rfl
@[simp] theorem Work.emit_fins (w : Work) (l : List Act) : (w.emit l).fins = w.fins := rfl
@[simp] theorem Work.emit_emitted (w : Work) (l : List Act) : (w.emit l).emitted = w.emitted ++ l := rfl
@[simp] theorem Work.emit_queue (w : Work) (l : List Act) : (w.emit l).queue = w.queue := rfl
@[simp] theorem Work.fin_st (w : Work) (a : Act) : (w.fin a).st = w.st := rfl
@[simp] theorem Work.fin_stack (w : Work) (a : Act) : (w.fin a).stack = w.stack := rfl
@[simp] theorem Work.fin_fins (w : Work) (a : Act) : (w.fin a).fins = w.fins.filter (fun x => x != a) ++ [a] := rfl
@[simp] theorem Work.fin_emitted (w : Work) (a : Act) : (w.fin a).emitted = w.emitted := rfl
@[simp] theorem Work.fin_queue (w : Work) (a : Act) : (w.fin a).queue = w.queue := rfl
@[simp] theorem Work.idle_st (s : State) : (Work.idle s).st = s := rfl
@[simp] theorem Work.idle_stack (s : State) : (Work.idle s).stack = [] := rfl
@[simp] theorem Work.idle_fins (s : State) : (Work.idle s).fins = [] := rfl
@[simp] theorem Work.idle_emitted (s : State) : (Work.idle s).emitted = [] := rfl
@[simp] theorem Work.idle_queue (s : State) : (Work.idle s).queue = [] := rfl

end Sys2Proof.Machine
end

