-- ==== Sys2Proof/Laws/Cascade.lean ====
section
/-! SUPPORT. What running a cascade can do: it ends where nothing is left, more fuel changes nothing, and it keeps every
property of the state that each action keeps. -/

namespace Sys2Proof.Machine

theorem runWork_done {w : Work} (n : Nat) (h : w.take = none) : runWork n w = some w.st := by
  cases n <;> simp [runWork, h]

theorem runWork_take {w w' : Work} {a : Act} (n : Nat) (h : w.take = some (a, w')) :
    runWork (n + 1) w = runWork n (act a w') := by
  simp [runWork, h]

theorem runWork_more {n : Nat} : ∀ {w : Work} {s : State} (k : Nat), runWork n w = some s → runWork (n + k) w = some s := by
  induction n with
  | zero =>
    intro w s k h
    cases ht : w.take with
    | none => rw [runWork_done _ ht] at h; rw [runWork_done _ ht]; exact h
    | some a => simp [runWork, ht] at h
  | succ n ih =>
    intro w s k h
    cases ht : w.take with
    | none => rw [runWork_done _ ht] at h; rw [runWork_done _ ht]; exact h
    | some a =>
      rw [runWork_take n ht] at h
      rw [Nat.add_right_comm, runWork_take (n + k) ht]
      exact ih k h

/-- Taking the next action leaves the state as it is. -/
theorem Work.take_st {w w' : Work} {a : Act} (h : w.take = some (a, w')) : w'.st = w.st := by
  unfold Work.take at h
  repeat' split at h
  all_goals simp_all
  all_goals (obtain ⟨-, rfl⟩ := h; rfl)

/-- A property of the state that every action keeps stands at the end of a cascade. -/
theorem runWork_keeps (P : State → Prop) (hact : ∀ (a : Act) (w : Work), P w.st → P (act a w).st) :
    ∀ (n : Nat) (w : Work) (s : State), P w.st → runWork n w = some s → P s := by
  intro n
  induction n with
  | zero =>
    intro w s hp h
    cases ht : w.take with
    | none => rw [runWork_done _ ht] at h; cases h; exact hp
    | some a => simp [runWork, ht] at h
  | succ n ih =>
    intro w s hp h
    cases ht : w.take with
    | none => rw [runWork_done _ ht] at h; cases h; exact hp
    | some aw =>
      obtain ⟨a, w'⟩ := aw
      rw [runWork_take n ht] at h
      exact ih _ _ (hact a w' (by rw [Work.take_st ht]; exact hp)) h

/-- The outcome of a cascade that ends. -/
theorem finish_next {w : Work} {s : State} {n : Nat} (hn : n ≤ Config.cascadeLimit) (h : runWork n w = some s) :
    finish w = .next s.arbitrate := by
  obtain ⟨k, hk⟩ := Nat.exists_eq_add_of_le hn
  unfold finish
  rw [hk, runWork_more k h]

/-- A command that leaves nothing to do ends at once. -/
theorem finish_idle {w : Work} (h : w.take = none) : finish w = .next w.st.arbitrate :=
  finish_next (Nat.zero_le _) (runWork_done 0 h)

theorem finish_idleState (s : State) : finish (Work.idle s) = .next s.arbitrate := finish_idle rfl

/-- What every action and the arbiters keep, `finish` keeps. -/
theorem finish_keeps (P : State → Prop) (hact : ∀ (a : Act) (w : Work), P w.st → P (act a w).st)
    (harb : ∀ s : State, P s → P s.arbitrate) {w : Work} {t : State} (hw : P w.st) (h : finish w = .next t) : P t := by
  unfold finish at h
  split at h
  · next s hs => cases h; exact harb _ (runWork_keeps P hact _ _ _ hw hs)
  · cases h

end Sys2Proof.Machine
end

