-- ==== Sys2Proof/Laws/Frame.lean ====
section
/-! SUPPORT. What no action of a cascade changes: the queue, the pins, the tables and staging, the ports, the frame queues,
presence, the stored image and copies, the commit state. One lemma per shared operation. -/

namespace Sys2Proof.Machine

/-- `t` agrees with `s` on everything that no action of a cascade changes. -/
structure Fixed (s t : State) : Prop where
  pending : t.pending = s.pending
  order : t.order = s.order
  phase : t.phase = s.phase
  clock : t.clock = s.clock
  pins : t.pins = s.pins
  mgmtAddr : t.mgmtAddr = s.mgmtAddr
  tables : t.tables = s.tables
  staging : t.staging = s.staging
  assembly : t.assembly = s.assembly
  pointTimer : t.pointTimer = s.pointTimer
  frostTimer : t.frostTimer = s.frostTimer
  ctlPort : t.ctlPort = s.ctlPort
  fieldPort : t.fieldPort = s.fieldPort
  up : t.gate.up = s.gate.up
  down : t.gate.down = s.gate.down
  reply : t.gate.reply = s.gate.reply
  present : t.gate.present = s.gate.present
  absence : t.gate.absence = s.gate.absence
  driveCount : t.gate.driveCount = s.gate.driveCount
  image : t.store.image = s.store.image
  copy0 : t.store.copy0 = s.store.copy0
  copy1 : t.store.copy1 = s.store.copy1
  commit : t.store.commit = s.store.commit

theorem Fixed.refl (s : State) : Fixed s s := by constructor <;> rfl

theorem Fixed.trans {s t u : State} (h : Fixed s t) (k : Fixed t u) : Fixed s u := by
  constructor
  · exact k.pending.trans h.pending
  · exact k.order.trans h.order
  · exact k.phase.trans h.phase
  · exact k.clock.trans h.clock
  · exact k.pins.trans h.pins
  · exact k.mgmtAddr.trans h.mgmtAddr
  · exact k.tables.trans h.tables
  · exact k.staging.trans h.staging
  · exact k.assembly.trans h.assembly
  · exact k.pointTimer.trans h.pointTimer
  · exact k.frostTimer.trans h.frostTimer
  · exact k.ctlPort.trans h.ctlPort
  · exact k.fieldPort.trans h.fieldPort
  · exact k.up.trans h.up
  · exact k.down.trans h.down
  · exact k.reply.trans h.reply
  · exact k.present.trans h.present
  · exact k.absence.trans h.absence
  · exact k.driveCount.trans h.driveCount
  · exact k.image.trans h.image
  · exact k.copy0.trans h.copy0
  · exact k.copy1.trans h.copy1
  · exact k.commit.trans h.commit

/-! ### Updates of the state -/

theorem State.setPoint_fixed (s : State) (i : Nat) (x : PointRun) : Fixed s (s.setPoint i x) := by constructor <;> rfl
theorem State.setCond_fixed (s : State) (i : Nat) (x : CondRun) : Fixed s (s.setCond i x) := by constructor <;> rfl
theorem State.setFlue_fixed (s : State) (x : FlueRun) : Fixed s (s.setFlue x) := by constructor <;> rfl
theorem State.setSeq_fixed (s : State) (x : SeqUnit) : Fixed s (s.setSeq x) := by constructor <;> rfl
theorem State.setSeqRun_fixed (s : State) (i : Nat) (x : SeqRun) : Fixed s (s.setSeqRun i x) := by constructor <;> rfl
theorem State.setChain_fixed (s : State) (x : List Nat) : Fixed s (s.setChain x) := by constructor <;> rfl
theorem State.setRunning_fixed (s : State) (x : Option Running) : Fixed s (s.setRunning x) := by constructor <;> rfl
theorem State.setTrigger_fixed (s : State) (i : Nat) (x : Trigger) : Fixed s (s.setTrigger i x) := by
  constructor <;> rfl
theorem State.setRole_fixed (s : State) (i : Nat) (x : RoleRun) : Fixed s (s.setRole i x) := by constructor <;> rfl
theorem State.setLine_fixed (s : State) (i : Nat) (x : LineRun) : Fixed s (s.setLine i x) := by constructor <;> rfl
theorem State.setSlot_fixed (s : State) (i : Nat) (x : Option Slot) : Fixed s (s.setSlot i x) := by constructor <;> rfl
theorem State.setFault_fixed (s : State) (x : FaultUnit) : Fixed s (s.setFault x) := by constructor <;> rfl
theorem State.setData_fixed (s : State) (x : LockoutData) : Fixed s (s.setData x) := by constructor <;> rfl
theorem State.setTrace_fixed (s : State) (x : TraceUnit) : Fixed s (s.setTrace x) := by constructor <;> rfl
theorem State.circuits_fixed (s : State) (x : List CircuitRun) : Fixed s { s with circuits := x } := by
  constructor <;> rfl
theorem State.discardSaved_fixed (s : State) (n : Nat) : Fixed s (s.discardSaved n) := s.setSeqRun_fixed n _
theorem State.setRecycle_fixed (s : State) (n k : Nat) : Fixed s (s.setRecycle n k) := s.setSeqRun_fixed n _
theorem State.clearRecycles_fixed (s : State) : Fixed s s.clearRecycles := s.setSeq_fixed _
theorem State.noteAllowance_fixed (s : State) : Fixed s s.noteAllowance := s.setFlue_fixed _
theorem State.raiseNotice_fixed (s : State) (k : NoticeKind) (c : List Byte) : Fixed s (s.raiseNotice k c) := by
  constructor <;> rfl
theorem State.raiseLockout_fixed (s : State) : Fixed s s.raiseLockout := s.raiseNotice_fixed _ _
theorem State.noteFault_fixed (s : State) (r : FaultRecord) : Fixed s (s.noteFault r) :=
  (s.setFault_fixed _).trans (State.raiseNotice_fixed _ _ _)

theorem Store.startWrite_keeps (x : Store) (d : LockoutData) :
    (x.startWrite d).image = x.image ∧ (x.startWrite d).copy0 = x.copy0 ∧ (x.startWrite d).copy1 = x.copy1
      ∧ (x.startWrite d).commit = x.commit := by
  unfold Store.startWrite
  split <;> exact ⟨rfl, rfl, rfl, rfl⟩

theorem State.requestPersist_fixed (s : State) : Fixed s s.requestPersist := by
  have h := Store.startWrite_keeps s.store s.fault.data
  unfold State.requestPersist
  split
  · constructor <;> rfl
  · constructor <;> first | rfl | exact h.1 | exact h.2.1 | exact h.2.2.1 | exact h.2.2.2

theorem State.placeSub_fixed (s : State) (r v : Nat) : Fixed s (s.placeSub r v) := by
  unfold State.placeSub
  split
  · exact s.setSlot_fixed _ _
  all_goals exact Fixed.refl s

/-! ### Work -/

theorem Work.withSt_fixed {w : Work} {t : State} (h : Fixed w.st t) : Fixed w.st (w.withSt t).st := h

theorem Work.setFlue_fixed (w : Work) (f : FlueRun) : Fixed w.st (w.setFlue f).st := by
  unfold Work.setFlue
  dsimp only
  split <;> exact w.st.setFlue_fixed f

theorem Work.setTrace_fixed (w : Work) (t : TraceUnit) : Fixed w.st (w.setTrace t).st := by
  unfold Work.setTrace
  dsimp only
  repeat' split
  all_goals exact w.st.setTrace_fixed t

theorem Work.trace_fixed (w : Work) (k : TraceKind) : Fixed w.st (w.trace k).st := by
  unfold Work.trace
  split
  · split
    · exact w.setTrace_fixed _
    · exact Fixed.refl _
  · exact Fixed.refl _

theorem Work.traceTop_fixed (w : Work) (n : Nat) : Fixed w.st (w.traceTop n).st := by
  unfold Work.traceTop
  split
  · dsimp only
    exact (w.st.setTrace_fixed _).trans (Work.trace_fixed (w.withSt _) _)
  · exact Fixed.refl _

theorem Work.traceFinish_fixed (w : Work) : Fixed w.st w.traceFinish.st := by
  unfold Work.traceFinish
  split
  · split
    · dsimp only
      split
      · exact w.st.setTrace_fixed _
      · exact w.setTrace_fixed _
    · exact Fixed.refl _
  · exact Fixed.refl _

theorem Work.riseIdle_fixed (w : Work) : Fixed w.st w.riseIdle.st := w.setFlue_fixed _

theorem Work.armRise_fixed (w : Work) : Fixed w.st w.armRise.st := w.setFlue_fixed _

/-- A fold of operations that each keep what is fixed. -/
theorem foldl_fixed {α : Type} (f : Work → α → Work) (hf : ∀ w a, Fixed w.st (f w a).st) :
    ∀ (l : List α) (w : Work), Fixed w.st (l.foldl f w).st := by
  intro l
  induction l with
  | nil => intro w; exact Fixed.refl _
  | cons a l ih => intro w; exact (hf w a).trans (ih (f w a))

theorem Work.frostMoved_st (w : Work) (moved : List Nat) : (w.frostMoved moved).st = w.st := by
  unfold Work.frostMoved
  induction moved generalizing w with
  | nil => rfl
  | cons a l ih => exact ih (w.fin (.frostNotice a))

theorem mapCircuits_fixed (f : CircuitEntry → CircuitRun → CircuitRun) (w : Work) : Fixed w.st (mapCircuits f w).st := by
  unfold mapCircuits
  dsimp only
  rw [Work.frostMoved_st]
  exact w.st.circuits_fixed _

theorem reportActive_fixed (n : Nat) (w : Work) : Fixed w.st (reportActive n w).st := mapCircuits_fixed _ w
theorem reportLeft_fixed (n : Nat) (w : Work) : Fixed w.st (reportLeft n w).st := mapCircuits_fixed _ w
theorem lockoutEntered_fixed (w : Work) : Fixed w.st (lockoutEntered w).st := mapCircuits_fixed _ w
theorem lockoutCleared_fixed (w : Work) : Fixed w.st (lockoutCleared w).st := mapCircuits_fixed _ w

/-! ### Roles and conditions -/

theorem State.actOnTarget_fixed (s : State) (r : Nat) (carried : Bool) (before : Claimant) :
    Fixed s (s.actOnTarget r carried before) := by
  unfold State.actOnTarget
  dsimp only
  split
  · exact s.setLine_fixed _ _
  · split
    · exact s.setRole_fixed _ _
    · exact (s.setRole_fixed _ _).trans (State.placeSub_fixed _ _ _)
  · exact Fixed.refl s

theorem State.ownerOnly_fixed (s : State) (r : Nat) (before : Claimant) : Fixed s (s.ownerOnly r before) := by
  unfold State.ownerOnly
  split
  · exact s.setRole_fixed _ _
  · exact Fixed.refl s

theorem changeRole_fixed (carried : Bool) (r : Nat) (x : RoleRun) (w : Work) : Fixed w.st (changeRole carried r x w).st := by
  unfold changeRole
  dsimp only
  split
  · exact (w.st.setRole_fixed _ _).trans (State.ownerOnly_fixed _ _ _)
  · exact (w.st.setRole_fixed _ _).trans (State.actOnTarget_fixed _ _ _ _)

theorem applySlots_fixed (f : Nat → RoleRun → RoleRun) (w : Work) : Fixed w.st (applySlots f w).st := by
  unfold applySlots
  refine foldl_fixed _ (fun w r => ?_) _ _
  split
  · exact Fixed.refl _
  · exact changeRole_fixed _ _ _ _

theorem walk_fixed (i : CondInput) (s : State) (changed : List Nat) : Fixed s (walk i s changed).1 := by
  unfold walk
  suffices h : ∀ (l : List Nat) (acc : State × List Nat), Fixed acc.1 (l.foldl (walkAt i) acc).1 from h _ (s, changed)
  intro l
  induction l with
  | nil => intro acc; exact Fixed.refl _
  | cons c l ih =>
    intro acc
    refine Fixed.trans ?_ (ih (walkAt i acc c))
    unfold walkAt
    dsimp only
    split
    · exact acc.1.setCond_fixed _ _
    · exact Fixed.refl _

theorem expireHold_fixed (c : Nat) (s : State) : Fixed s (expireHold c s).1 := by
  unfold expireHold
  split
  · exact s.setCond_fixed _ _
  · exact Fixed.refl s

theorem walkStart_fixed (i : CondInput) (s : State) : Fixed s (walkStart i s).1 := by
  unfold walkStart
  split
  · exact expireHold_fixed _ _
  · exact Fixed.refl _

theorem actCondWalk_fixed (i : CondInput) (w : Work) : Fixed w.st (actCondWalk i w).st := by
  have h := (walkStart_fixed i w.st).trans (walk_fixed i (walkStart i w.st).1 (walkStart i w.st).2)
  unfold actCondWalk
  split
  · revert h
    generalize walk i (walkStart i w.st).1 (walkStart i w.st).2 = p
    intro h
    dsimp only
    split
    · exact h
    · exact h
  · exact Fixed.refl _

/-! ### The chain -/

theorem leaveHead_fixed (w : Work) : Fixed w.st (leaveHead w).st := by
  unfold leaveHead
  split
  · next n rest _ =>
    exact (((w.st.discardSaved_fixed n).trans (State.setChain_fixed _ rest)).trans
      (State.setRunning_fixed _ none)).trans (reportLeft_fixed n (w.withSt _))
  · exact Fixed.refl _

theorem joinTop_fixed (n : Nat) (w : Work) : Fixed w.st (joinTop n w).st := by
  unfold joinTop
  exact (((w.st.setChain_fixed _).trans (State.setRunning_fixed _ none)).trans
    (reportActive_fixed n (w.withSt _))).trans (Work.traceTop_fixed _ n)

theorem doEnter_fixed (n : Nat) (c : Cause) (w : Work) : Fixed w.st (doEnter n c w).st :=
  (leaveHead_fixed w).trans (joinTop_fixed n (leaveHead w))

theorem suspendTop_fixed (w : Work) : Fixed w.st (suspendTop w).st := by
  unfold suspendTop
  split
  · exact (w.st.setSeqRun_fixed _ _).trans (State.setRunning_fixed _ none)
  · exact Fixed.refl _

theorem doCall_fixed (n : Nat) (c : Cause) (w : Work) : Fixed w.st (doCall n c w).st := by
  unfold doCall
  split
  · exact doEnter_fixed n c w
  · exact (suspendTop_fixed w).trans (joinTop_fixed n (suspendTop w))

theorem chainEmptied_fixed (w : Work) : Fixed w.st (chainEmptied w).st :=
  w.riseIdle_fixed.trans (Work.traceFinish_fixed _)

theorem afterLeaving_fixed (w : Work) : Fixed w.st (afterLeaving w).st := by
  unfold afterLeaving
  split
  · exact chainEmptied_fixed w
  · exact Fixed.refl _

theorem replaceByStop_fixed (c : Cause) (l : Nat) (w : Work) : Fixed w.st (replaceByStop c l w).st := by
  unfold replaceByStop
  split
  · exact doEnter_fixed _ _ _
  · exact (leaveHead_fixed w).trans (afterLeaving_fixed _)

theorem clearChain_fixed (w : Work) : Fixed w.st (clearChain w).st := by
  unfold clearChain
  dsimp only
  refine Fixed.trans (foldl_fixed (fun w n => reportLeft n (w.withSt (w.st.discardSaved n))) (fun w n => ?_)
    w.st.seq.chain w) ?_
  · exact (w.st.discardSaved_fixed n).trans (reportLeft_fixed n (w.withSt _))
  · exact (State.setChain_fixed _ []).trans (State.setRunning_fixed _ none)

theorem updateTriggers_fixed (f : Nat → Trigger → Trigger) (w : Work) : Fixed w.st (updateTriggers f w).st :=
  w.st.setSeq_fixed _

theorem actExamineTriggers_fixed (w : Work) : Fixed w.st (actExamineTriggers w).st := by
  unfold actExamineTriggers
  split
  · split
    · split
      · exact (w.st.setTrigger_fixed _ _).trans (doCall_fixed _ _ (w.withSt _))
      · exact w.st.setTrigger_fixed _ _
      · exact Fixed.refl _
    · exact Fixed.refl _
  · exact Fixed.refl _

theorem actExamineDemand_fixed (w : Work) : Fixed w.st (actExamineDemand w).st := by
  unfold actExamineDemand
  split
  · exact doEnter_fixed _ _ _
  · exact Fixed.refl _

theorem clearDemand_fixed (absent : Bool) (w : Work) : Fixed w.st (clearDemand absent w).st := by
  unfold clearDemand
  dsimp only
  have h : Fixed w.st (w.withSt (w.st.setSeq { w.st.seq with demand := false })).st := w.st.setSeq_fixed _
  repeat' split
  all_goals first | exact h.trans (replaceByStop_fixed _ _ _) | exact h

/-! ### Steps and faults -/

theorem startStep_fixed (n k : Nat) (s : State) : Fixed s (startStep n k s) := by
  unfold startStep
  dsimp only
  split
  · exact (s.setRunning_fixed _).trans (State.setRecycle_fixed _ _ _)
  · exact s.setRunning_fixed _

theorem applyAllowance_fixed (k : Nat) (s : State) : Fixed s (applyAllowance k s) := by
  unfold applyAllowance
  split
  · exact s.noteAllowance_fixed.trans (State.setRunning_fixed _ _)
  · exact Fixed.refl s

theorem applyArming_fixed (k : Nat) (w : Work) : Fixed w.st (applyArming k w).st := by
  unfold applyArming
  split
  · exact w.armRise_fixed
  · exact Fixed.refl _

theorem entryOutcome_st (n k : Nat) (w : Work) : (entryOutcome n k w).st = w.st := by
  unfold entryOutcome
  repeat' split
  all_goals rfl

theorem actStepEntry_fixed (k : Nat) (w : Work) : Fixed w.st (actStepEntry k w).st := by
  unfold actStepEntry
  split
  · dsimp only
    rw [entryOutcome_st]
    exact (((startStep_fixed _ k w.st).trans (applyAllowance_fixed k _)).trans
      (applyArming_fixed k (Work.withSt _ _))).trans (Work.trace_fixed _ _)
  · exact Fixed.refl _

theorem resume_fixed (n : Nat) (c : Saved) (w : Work) : Fixed w.st (resume n c w).st := by
  unfold resume
  split
  · exact Fixed.refl _
  · unfold continueStep
    dsimp only
    exact (w.st.setRunning_fixed _).trans (Work.trace_fixed (w.withSt _) _)

theorem actTakeUp_fixed (w : Work) : Fixed w.st (actTakeUp w).st := by
  unfold actTakeUp
  split
  · split
    · exact replaceByStop_fixed _ _ _
    · split
      · dsimp only
        refine Fixed.trans ?_ (resume_fixed _ _ _)
        exact (w.st.discardSaved_fixed _).trans
          (Work.traceTop_fixed (((w.withSt (w.st.discardSaved _)).fin _).fin _) _)
      · exact Fixed.refl _
  · exact Fixed.refl _

theorem teardown_fixed (w : Work) : Fixed w.st (teardown w).st := by
  unfold teardown
  dsimp only
  exact (((clearChain_fixed w).trans (State.clearRecycles_fixed _)).trans
    (Work.riseIdle_fixed ((clearChain w).withSt _))).trans (Work.traceFinish_fixed _)

theorem enterPurge_fixed (w : Work) : Fixed w.st (enterPurge w).st := by
  unfold enterPurge
  split
  · exact doEnter_fixed _ _ _
  · exact w.st.setSeq_fixed _
  · exact Fixed.refl _

theorem lockOut_fixed (f : FaultIn) (mark : Bool) (w : Work) : Fixed w.st (lockOut f mark w).st := by
  unfold lockOut
  dsimp only
  refine Fixed.trans ?_ (enterPurge_fixed _)
  refine Fixed.trans ?_ ((State.raiseLockout_fixed _).trans (State.requestPersist_fixed _))
  refine Fixed.trans ?_ (lockoutEntered_fixed _)
  exact ((w.st.setData_fixed _).trans (State.noteFault_fixed _ _)).trans (teardown_fixed (w.withSt _))

theorem recycle_fixed (f : FaultIn) (n : Nat) (w : Work) : Fixed w.st (recycle f n w).st := by
  unfold recycle
  dsimp only
  have h : Fixed w.st (w.withSt (w.st.setRecycle n ((w.st.seqRun n).recycle + 1))).st := w.st.setRecycle_fixed _ _
  split
  · exact h.trans (lockOut_fixed _ _ _)
  · split
    · exact (h.trans (State.noteFault_fixed _ _)).trans (doEnter_fixed _ _ (Work.withSt _ _))
    · exact h.trans (lockOut_fixed _ _ _)

theorem faultUnlocked_fixed (f : FaultIn) (w : Work) : Fixed w.st (faultUnlocked f w).st := by
  unfold faultUnlocked
  split
  · exact w.st.noteFault_fixed _
  · exact recycle_fixed _ _ _
  · exact lockOut_fixed _ _ _
  · exact lockOut_fixed _ _ _

theorem recordSecond_fixed (code : Nat) (s : State) : Fixed s (recordSecond code s) := by
  unfold recordSecond
  split
  · exact ((s.setData_fixed _).trans (State.raiseLockout_fixed _)).trans (State.requestPersist_fixed _)
  · exact Fixed.refl s

theorem endPurge_fixed (w : Work) : Fixed w.st (endPurge w).st := by
  unfold endPurge
  split
  · exact Fixed.refl _
  · exact (clearChain_fixed w).trans (chainEmptied_fixed _)

theorem faultLocked_fixed (f : FaultIn) (w : Work) : Fixed w.st (faultLocked f w).st := by
  unfold faultLocked
  dsimp only
  exact ((endPurge_fixed w).trans (recordSecond_fixed _ _)).trans (State.noteFault_fixed _ _)

theorem actTakeFault_fixed (f : FaultIn) (w : Work) : Fixed w.st (actTakeFault f w).st := by
  unfold actTakeFault
  dsimp only
  split
  · exact (w.trace_fixed _).trans (faultLocked_fixed _ _)
  · exact (w.trace_fixed _).trans (faultUnlocked_fixed _ _)

/-! ### Every action, and the cascade -/

theorem readAt_fixed (p c : Nat) (w : Work) : Fixed w.st (readAt p c w).st := w.st.setPoint_fixed _ _

theorem act_fixed (a : Act) (w : Work) : Fixed w.st (act a w).st := by
  cases a with
  | reading source channel code =>
    show Fixed w.st (actReading source channel code w).st
    unfold actReading
    split
    · split
      · exact readAt_fixed _ _ _
      · exact Fixed.refl _
    · exact Fixed.refl _
  | ageMark =>
    show Fixed w.st (actAgeMark w).st
    unfold actAgeMark
    split
    · refine foldl_fixed _ (fun w p => ?_) _ _
      unfold agePoint
      split
      · exact w.st.setPoint_fixed _ _
      · exact Fixed.refl _
    · exact Fixed.refl _
  | condWalk i => exact actCondWalk_fixed i w
  | flueInput p x =>
    show Fixed w.st (actFlueInput p x w).st
    unfold actFlueInput
    split
    · exact w.setFlue_fixed _
    · exact Fixed.refl _
  | traceSample p v =>
    show Fixed w.st (actTraceSample p v w).st
    unfold actTraceSample
    split
    · exact w.trace_fixed _
    · exact Fixed.refl _
  | roleState r level =>
    show Fixed w.st (actRoleState r level w).st
    unfold actRoleState
    split
    · exact w.st.setRole_fixed _ _
    · exact Fixed.refl _
  | handoff set =>
    show Fixed w.st (actHandoff set w).st
    unfold actHandoff
    repeat' split
    all_goals exact Fixed.refl _
  | applyTriggers set => exact updateTriggers_fixed _ w
  | frostHandoff adds removes => exact updateTriggers_fixed _ w
  | minMark =>
    show Fixed w.st (actMinMark w).st
    unfold actMinMark
    split
    · split
      · exact Fixed.refl _
      · dsimp only
        split <;> exact w.st.setRunning_fixed _
    · exact Fixed.refl _
  | maxExpiry =>
    show Fixed w.st (actMaxExpiry w).st
    unfold actMaxExpiry
    split
    · split
      · exact Fixed.refl _
      · exact Fixed.refl _
    · exact Fixed.refl _
  | advance =>
    show Fixed w.st (actAdvance w).st
    unfold actAdvance
    repeat' split
    all_goals exact w.st.setRunning_fixed _
  | enterEntry n =>
    show Fixed w.st (actEnterEntry n w).st
    unfold actEnterEntry
    split
    · exact Fixed.refl _
    · exact w.st.setRunning_fixed _
  | stepEntry k => exact actStepEntry_fixed k w
  | callRequest m =>
    show Fixed w.st (actCallRequest m w).st
    unfold actCallRequest
    split
    · split
      · exact doCall_fixed _ _ _
      · exact Fixed.refl _
    · exact Fixed.refl _
  | finishTop =>
    show Fixed w.st (actFinishTop w).st
    unfold actFinishTop
    split
    · exact ((w.st.setRecycle_fixed _ _).trans (leaveHead_fixed (w.withSt _))).trans (afterLeaving_fixed _)
    · exact Fixed.refl _
  | takeUp => exact actTakeUp_fixed w
  | examineTriggers => exact actExamineTriggers_fixed w
  | examineDemand => exact actExamineDemand_fixed w
  | absenceStart => exact clearDemand_fixed true w
  | commitSequence =>
    show Fixed w.st (actCommitSequence w).st
    unfold actCommitSequence
    dsimp only
    split
    · exact (w.st.setSeq_fixed _).trans (enterPurge_fixed (Work.withSt _ _))
    · exact Fixed.refl _
  | takeFault f => exact actTakeFault_fixed f w
  | frostClaims =>
    show Fixed w.st (actFrostClaims w).st
    unfold actFrostClaims
    split
    · exact applySlots_fixed _ _
    · exact Fixed.refl _
  | sequenceClaims =>
    show Fixed w.st (actSequenceClaims w).st
    unfold actSequenceClaims
    split
    · exact applySlots_fixed _ _
    · exact Fixed.refl _
  | frostNotice c => exact w.st.raiseNotice_fixed _ _
  | chainNotice c k n => exact w.st.raiseNotice_fixed _ _
  | traceNotice half => exact w.st.raiseNotice_fixed _ _

theorem runWork_fixed {n : Nat} {w : Work} {s : State} (h : runWork n w = some s) : Fixed w.st s :=
  runWork_keeps (fun s => Fixed w.st s) (fun a v hv => hv.trans (act_fixed a v)) n w s (Fixed.refl _) h

end Sys2Proof.Machine
end

