-- ==== Sys2Proof/Laws/Calm.lean ====
section
/-! SUPPORT. How to show that a cascade ends, and the hand-offs that have no consequence: a walk over a table with no
condition in use, and a hand-off set that no consumer follows. -/

namespace Sys2Proof.Machine

/-! ### The end of a cascade -/

/-- The weight of the actions that wait. -/
def Work.weight (m : Act → Nat) (w : Work) : Nat :=
  (w.stack.map m).sum + (w.fins.map m).sum + (w.emitted.map m).sum + (w.queue.map m).sum

/-- A cascade whose weight falls with every action ends, with whatever its actions keep. -/
theorem runWork_ends (I : Work → Prop) (m : Act → Nat)
    (h : ∀ (a : Act) (w w' : Work), w.take = some (a, w') → I w → I (act a w') ∧ (act a w').weight m < w.weight m) :
    ∀ (n : Nat) (w : Work), I w → w.weight m ≤ n → ∃ e : Work, I e ∧ e.take = none ∧ runWork n w = some e.st := by
  intro n
  induction n with
  | zero =>
    intro w hi hw
    cases ht : w.take with
    | none => exact ⟨w, hi, ht, runWork_done 0 ht⟩
    | some aw => exact absurd (h aw.1 w aw.2 ht hi).2 (by omega)
  | succ n ih =>
    intro w hi hw
    cases ht : w.take with
    | none => exact ⟨w, hi, ht, runWork_done _ ht⟩
    | some aw =>
      obtain ⟨hi', hlt⟩ := h aw.1 w aw.2 ht hi
      obtain ⟨e, he, hn, hr⟩ := ih (act aw.1 aw.2) hi' (by omega)
      exact ⟨e, he, hn, by rw [runWork_take n ht]; exact hr⟩

/-- The action taken and the work without it have together the weight of the work. -/
theorem Work.take_weight (m : Act → Nat) {w w' : Work} {a : Act} (h : w.take = some (a, w')) :
    w.weight m = m a + w'.weight m := by
  unfold Work.take at h
  split at h
  · next hs => simp at h; obtain ⟨rfl, rfl⟩ := h; simp [Work.weight, hs]; omega
  · next hs =>
    split at h
    · next hf => simp at h; obtain ⟨rfl, rfl⟩ := h; simp [Work.weight, hs, hf]; omega
    · next hf =>
      split at h
      · next hq =>
        simp at h
        obtain ⟨rfl, rfl⟩ := h
        have := congrArg (fun l => (l.map m).sum) hq
        simp at this
        simp [Work.weight, hs, hf]
        omega
      · simp at h

theorem Work.weight_withSt (m : Act → Nat) (w : Work) (s : State) : (w.withSt s).weight m = w.weight m := rfl

theorem Work.weight_push (m : Act → Nat) (w : Work) (acts : List Act) :
    (w.push acts).weight m = (acts.map m).sum + w.weight m := by
  simp [Work.weight, Work.push]; omega

theorem Work.weight_emit (m : Act → Nat) (w : Work) (acts : List Act) :
    (w.emit acts).weight m = (acts.map m).sum + w.weight m := by
  simp [Work.weight, Work.emit]; omega

theorem sum_filter_le (m : Act → Nat) (p : Act → Bool) (l : List Act) : ((l.filter p).map m).sum ≤ (l.map m).sum := by
  induction l with
  | nil => simp
  | cons a l ih => simp only [List.filter_cons]; split <;> simp <;> omega

theorem Work.weight_fin (m : Act → Nat) (w : Work) (a : Act) : (w.fin a).weight m ≤ m a + w.weight m := by
  have := sum_filter_le m (fun x => x != a) w.fins
  simp [Work.weight, Work.fin]; omega

/-! ### Walks over a table with no condition in use -/

theorem walk_unwatched {s : State} (h : s.unwatched) (i : CondInput) (changed : List Nat) :
    walk i s changed = (s, changed) := by
  unfold walk
  suffices H : ∀ l : List Nat, (∀ c ∈ l, c < 32) → l.foldl (walkAt i) (s, changed) = (s, changed) from
    H _ (fun c hc => List.mem_range.1 hc)
  intro l hl
  induction l with
  | nil => rfl
  | cons c l ih =>
    have hc : walkAt i (s, changed) c = (s, changed) := by simp [walkAt, h c (hl c (by simp))]
    rw [List.foldl_cons, hc]
    exact ih (fun d hd => hl d (by simp [hd]))

/-- A walk changes nothing and hands nothing on while no condition is in use. -/
theorem actCondWalk_unwatched {w : Work} (h : w.st.unwatched) {i : CondInput} (hi : ∀ c, i = .hold c → c < 32) :
    actCondWalk i w = w := by
  have hs : walkStart i w.st = (w.st, []) := by
    unfold walkStart
    split
    · next c => simp [expireHold, h c (hi c rfl)]
    · rfl
  unfold actCondWalk
  split
  · simp only [hs, walk_unwatched h]
    rfl
  · rfl

/-! ### Hand-off sets that no consumer follows -/

theorem State.triggers_map {s : State} (h : s.seq.triggers.length = 12) :
    (List.range 12).map s.trigger = s.seq.triggers := by
  apply List.ext_getElem
  · simp [h]
  · intro n h1 h2
    simp [State.trigger, List.getD, List.getElem?_eq_getElem h2]

theorem ownSource_unheeded {s : State} (h : s.unheeded) (set : List (Nat × Tri)) {n : Nat} (hn : n < 12) (t : Trigger) :
    ownSource s set n t = t := by
  unfold ownSource
  split
  · next hu => rw [h.2.1 n hn hu]
  · rfl

/-- Flags that no source changes: the pending-trigger set stands. -/
theorem actApplyTriggers_unheeded {w : Work} (h : w.st.unheeded) (set : List (Nat × Tri)) : actApplyTriggers set w = w := by
  have hm : (List.range 12).map (fun n => ownSource w.st set n (w.st.trigger n)) = w.st.seq.triggers := by
    rw [← State.triggers_map h.2.2]
    exact List.map_congr_left fun n hn => ownSource_unheeded h set (List.mem_range.1 hn) _
  have hst : w.st.setSeq (SeqUnit.mk w.st.seq.chain w.st.seq.runs w.st.seq.running
      ((List.range 12).map fun n => ownSource w.st set n (w.st.trigger n)) w.st.seq.demand w.st.seq.purgeDue)
        = w.st := by
    rw [hm]; rfl
  unfold actApplyTriggers updateTriggers
  simp only [hst]
  simp [Work.push, Work.withSt]

/-- A hand-off set that neither supervises nor proves the running step goes on to the pending-trigger set. -/
theorem actHandoff_unheeded {w : Work} (h : w.st.unheeded) (set : List (Nat × Tri)) :
    actHandoff set w = w.push [.applyTriggers set] := by
  unfold actHandoff
  split
  · next x hx =>
    obtain ⟨hs, hp⟩ := h.1 x hx
    simp [setViolates, setProves, hs, hp]
  · rfl

end Sys2Proof.Machine
end

