-- ==== Sys2Proof/Laws/Requests.lean ====
section
/-! SUPPORT. What the gate and the management handler do with a frame and a request: one lemma per shared operation, so that
no proof unfolds the path of a frame from the port to its handler. -/

namespace Sys2Proof.Machine

/-! ### The rows that are requests -/

theorem readRequest_load (kd i pb : Byte) (fields : List Byte) :
    readRequest 1 (kd :: i :: pb :: fields) = readLoad kd i pb fields := rfl
theorem readRequest_read (img kd i p : Byte) : readRequest 2 [img, kd, i, p] = readRead img kd i p := rfl
theorem readRequest_discard : readRequest 3 [] = some .discard := rfl
theorem readRequest_commit : readRequest 4 [] = some .commit := rfl
theorem readRequest_demandOn : readRequest 5 [] = some .demandOn := rfl
theorem readRequest_demandOff : readRequest 6 [] = some .demandOff := rfl
theorem readRequest_run (n : Byte) : readRequest 7 [n] = (readIndex 12 n).map .run := rfl
theorem readRequest_stop : readRequest 8 [] = some .stop := rfl
theorem readRequest_setRole (r h l : Byte) :
    readRequest 9 [r, h, l] = (readIndex 12 r).map fun r => .setRole r (n16 h l) := rfl
theorem readRequest_unlock : readRequest 10 [] = some .unlock := rfl
theorem readRequest_status (p : Byte) : readRequest 11 [p] = (readIndex 13 p).map .status := rfl
theorem readRequest_traceRead (h l n : Byte) :
    readRequest 12 [h, l, n] = if within 1 n.toNat 4 && n16 h l + n.toNat ≤ 512 then
      some (.traceRead (n16 h l) n.toNat) else none := rfl
theorem readRequest_traceRelease (h : Byte) : readRequest 13 [h] = (readIndex 2 h).map .traceRelease := rfl

/-! ### Numbers in bytes -/

theorem u8_toNat (n : Nat) : (u8 n).toNat = n % 256 := rfl

theorem u8_self (b : Byte) : u8 b.toNat = b := by simp [u8]

theorem n16_u16 (n : Nat) (h : n < 65536) : n16 (u8 (n / 256)) (u8 n) = n := by
  simp only [n16, u8_toNat]; omega

theorem kindByte_toNat {code sub : Nat} (hc : code < 16) (hs : sub < 16) : (kindByte code sub).toNat = code * 16 + sub := by
  simp only [kindByte, u8_toNat]; omega

theorem subCode_kindByte {code sub : Nat} (hc : code < 16) (hs : sub < 16) : subCode (kindByte code sub) = sub := by
  simp only [subCode, kindByte_toNat hc hs]; omega

theorem kindByte_code {code sub : Nat} (hc : code < 16) (hs : sub < 16) : (kindByte code sub).toNat / 16 = code := by
  rw [kindByte_toNat hc hs]; omega

/-! ### Presence -/

/-- Hearing a frame changes the port, presence and the absence timer, and nothing else. -/
theorem State.heardFrom_eq (s : State) (src : Byte) :
    s.heardFrom src = { s with
      ctlPort := { s.ctlPort with hearing := .waiting }
      gate := { s.gate with
        present := s.fromController src || s.gate.present
        absence := if s.fromController src then some s.absenceTime else s.gate.absence } } := by
  unfold State.heardFrom State.seeSource
  have h : (s.hear .control .waiting).fromController src = s.fromController src := rfl
  rw [h]
  cases hc : s.fromController src <;> rfl

/-- A frame from the control segment that the part serves reaches the gate (R128). -/
theorem receive_control {s : State} {f : Frame} (hs : s.serving = true) (hr : s.receives .control = true)
    (h0 : f.src.toNat ≠ 0) (hl : f.payload.length ≤ 24) :
    receive .control f controlArrival s =
      (if (s.heardFrom f.src).isRequest f then manageFrame f (Work.idle (s.heardFrom f.src))
       else controlOther f (Work.idle (s.heardFrom f.src))) := by
  have hd : deliverable f = true := by simp [deliverable, h0, hl]
  have hs' : (s.hear .control .waiting).serving = true := hs
  simp only [receive, hr, hd, hs', if_true]
  rfl

/-- A frame from the field segment that the part serves reaches the gate (R129). -/
theorem receive_field {s : State} {f : Frame} (hs : s.serving = true) (hr : s.receives .field = true)
    (h0 : f.src.toNat ≠ 0) (hl : f.payload.length ≤ 24) :
    receive .field f fieldArrival s = fieldArrival f (Work.idle (s.hear .field .waiting)) := by
  have hd : deliverable f = true := by simp [deliverable, h0, hl]
  have hs' : (s.hear .field .waiting).serving = true := hs
  simp only [receive, hr, hd, hs', Bool.and_self, if_true]

/-- A request row is the MANAGE frame that carries it. -/
theorem isRequest_requestFrame (s : State) (src : Byte) {sub : Nat} (hs : sub < 16) (p : List Byte)
    (hm : s.mgmtAddr < 256) : (s.heardFrom src).isRequest (requestFrame s src sub p) = true := by
  rw [State.heardFrom_eq]
  simp only [State.isRequest, requestFrame, frameKind, kindByte_code (show 4 < 16 by omega) hs, u8_toNat]
  simp
  omega

/-- A request that the control port receives in a part that serves reaches the reply queue's test (R128, R133). -/
theorem request_reaches {s : State} {src : Byte} (hserve : s.serving = true) (hrec : s.receives .control = true)
    (h0 : src.toNat ≠ 0) (hm : s.mgmtAddr < 256) {sub : Nat} (hs : sub < 16) {p : List Byte} (hp : p.length ≤ 24) :
    request src sub p s = finish (manageFrame (requestFrame s src sub p) (Work.idle (s.heardFrom src))) := by
  unfold request
  rw [receive_control hserve hrec h0 hp]
  have hr := isRequest_requestFrame s src hs p hm
  simp only [requestFrame] at hr ⊢
  simp only [hr, if_true]

/-- With the reply queue full a request is discarded before it is looked at (R133). -/
theorem request_full {s : State} {src : Byte} (hserve : s.serving = true) (hrec : s.receives .control = true)
    (h0 : src.toNat ≠ 0) (hm : s.mgmtAddr < 256) (hfull : 4 ≤ s.gate.reply.length) {sub : Nat} (hs : sub < 16)
    {p : List Byte} (hp : p.length ≤ 24) : request src sub p s = .next (s.heardFrom src).arbitrate := by
  have hl : 4 ≤ (s.heardFrom src).gate.reply.length := by rw [State.heardFrom_eq]; exact hfull
  rw [request_reaches hserve hrec h0 hm hs hp]
  simp only [manageFrame, Work.idle, hl, if_true]
  exact finish_idleState _

/-- A request from another source is refused with NOT_CONTROLLER (R133). -/
theorem request_stranger {s : State} {src : Byte} (hserve : s.serving = true) (hrec : s.receives .control = true)
    (h0 : src.toNat ≠ 0) (hm : s.mgmtAddr < 256) (hroom : s.gate.reply.length < 4)
    (hother : s.fromController src = false) {sub : Nat} (hs : sub < 16) {p : List Byte} (hp : p.length ≤ 24) :
    request src sub p s = .next ((s.heardFrom src).reply src (.refused reasonNotController [])).arbitrate := by
  have hf : (s.heardFrom src).fromController src = false := by rw [State.heardFrom_eq]; exact hother
  have hl : ¬ 4 ≤ (s.heardFrom src).gate.reply.length := by rw [State.heardFrom_eq]; exact Nat.not_le.2 hroom
  rw [request_reaches hserve hrec h0 hm hs hp]
  simp only [manageFrame, Work.idle, requestFrame, hf, hl]
  exact finish_idleState _

/-- A request that the part takes is handed to the management handler (R133). -/
theorem request_taken {s : State} {src : Byte} (h : s.manages src) {sub : Nat} (hs : sub < 16) {p : List Byte}
    (hp : p.length ≤ 24) : request src sub p s = finish (handle src sub p (Work.idle (s.heardFrom src))) := by
  obtain ⟨hserve, hrec, hctl, h0, hroom, hm⟩ := h
  have hf : (s.heardFrom src).fromController src = true := by rw [State.heardFrom_eq]; exact hctl
  have hl : ¬ 4 ≤ (s.heardFrom src).gate.reply.length := by rw [State.heardFrom_eq]; exact Nat.not_le.2 hroom
  rw [request_reaches hserve hrec h0 hm hs hp]
  simp only [manageFrame, Work.idle, requestFrame, hf, hl, subCode_kindByte (show 4 < 16 by omega) hs]
  simp

/-- A request that the handler reads and may take now is performed (R163). -/
theorem handle_perform {dst : Byte} {sub : Nat} {p : List Byte} {w : Work} {q : Request} (hq : readRequest sub p = some q)
    (hb : w.st.committing = false ∨ q.always = true) : handle dst sub p w = perform dst q w := by
  unfold handle
  rw [hq]
  rcases hb with hb | hb <;> simp [hb]

/-- A request that must wait for the store write is answered BUSY (R163). -/
theorem handle_busy {dst : Byte} {sub : Nat} {p : List Byte} {w : Work} {q : Request} (hq : readRequest sub p = some q)
    (hb : w.st.committing = true) (ha : q.always = false) : handle dst sub p w = w.answer dst .busy := by
  unfold handle
  rw [hq]
  simp [hb, ha]

/-- A request that is only answered ends with its reply in the queue. -/
theorem finish_answer (s t : State) (dst : Byte) (r : Result) :
    finish (((Work.idle s).withSt t).answer dst r) = .next (t.reply dst r).arbitrate := finish_idle rfl

end Sys2Proof.Machine
end

