-- ==== Sys2Proof/Laws/Entries.lean ====
section
/-! SUPPORT. Reading and writing the fields of a table entry undo each other: bytes and numbers, flags, index bytes, the codes
of enumerated fields, and padded places. -/

namespace Sys2Proof.Machine

/-! ### Numbers (R168) -/

theorem toNat_u8 {n : Nat} (h : n < 256) : (u8 n).toNat = n := by
  simp [u8]; omega

theorem n16_lt (hi lo : Byte) : n16 hi lo < 65536 := by
  have := hi.isLt; have := lo.isLt
  simp [n16]; omega

theorem u16_n16 (hi lo : Byte) : u16 (n16 hi lo) = [hi, lo] := by
  have := hi.isLt; have := lo.isLt
  simp only [u16, n16, List.cons.injEq, and_true]
  constructor <;> apply BitVec.eq_of_toNat_eq <;> simp [u8] <;> omega

theorem n24_u8 {n : Nat} (h : n < 16777216) : n24 (u8 (n / 65536)) (u8 (n / 256)) (u8 n) = n := by
  simp [n24, u8]; omega

theorem u24_n24 (a b c : Byte) : u24 (n24 a b c) = [a, b, c] := by
  have := a.isLt; have := b.isLt; have := c.isLt
  simp only [u24, n24, List.cons.injEq, and_true]
  refine ⟨?_, ?_, ?_⟩ <;> apply BitVec.eq_of_toNat_eq <;> simp [u8] <;> omega

theorem s16_range (hi lo : Byte) : -32768 ≤ s16 hi lo ∧ s16 hi lo ≤ 32767 := by
  have := n16_lt hi lo
  simp only [s16]; split <;> omega

/-- A signed field in its range is read as it was written. -/
theorem i16_read {z : Int} (h : -32768 ≤ z) (h' : z ≤ 32767) : ∃ hi lo, i16 z = [hi, lo] ∧ s16 hi lo = z := by
  have hz : saturate16 z = z := by
    unfold saturate16
    rw [if_neg (by omega), if_neg (by omega)]
  refine ⟨_, _, rfl, ?_⟩
  have : (saturate16 z % 65536).toNat < 65536 := by omega
  simp only [s16, n16_u16 _ this]
  rw [hz]
  split <;> omega

theorem i16_s16 (hi lo : Byte) : i16 (s16 hi lo) = [hi, lo] := by
  have h := n16_lt hi lo
  have hr := s16_range hi lo
  have hz : (saturate16 (s16 hi lo) % 65536).toNat = n16 hi lo := by
    unfold saturate16
    rw [if_neg (by omega), if_neg (by omega)]
    simp only [s16]
    split <;> omega
  simp only [i16, hz]
  exact u16_n16 hi lo

/-! ### Flags, index bytes and codes (R168, R169) -/

theorem flagByte_one (b : Bool) : flagsOk 1 (flagByte [b]) = true ∧ bitOf (flagByte [b]) 0 = b := by
  cases b <;> decide

theorem flagByte_two (a b : Bool) :
    flagsOk 2 (flagByte [a, b]) = true ∧ bitOf (flagByte [a, b]) 0 = a ∧ bitOf (flagByte [a, b]) 1 = b := by
  cases a <;> cases b <;> decide

theorem flagByte_five (a b c d e : Bool) :
    let f := flagByte [a, b, c, d, e]
    flagsOk 5 f = true ∧ bitOf f 0 = a ∧ bitOf f 1 = b ∧ bitOf f 2 = c ∧ bitOf f 3 = d ∧ bitOf f 4 = e := by
  cases a <;> cases b <;> cases c <;> cases d <;> cases e <;> decide

/-- A flag byte without a bit beyond its names is the byte of its flags. -/
theorem flagByte_bits :
    (∀ b : Byte, flagsOk 1 b = true → flagByte [bitOf b 0] = b) ∧
    (∀ b : Byte, flagsOk 2 b = true → flagByte [bitOf b 0, bitOf b 1] = b) ∧
    (∀ b : Byte, flagsOk 5 b = true → flagByte [bitOf b 0, bitOf b 1, bitOf b 2, bitOf b 3, bitOf b 4] = b) := by
  refine ⟨?_, ?_, ?_⟩ <;> decide +kernel

theorem readOptIndex_indexByte {n : Nat} (hn : n ≤ 255) (o : Option Nat) (h : ∀ p ∈ o, p < n) :
    readOptIndex n (indexByte o) = some o := by
  cases o with
  | none => simp [readOptIndex, indexByte, u8]; omega
  | some p =>
    have := h p rfl
    simp [readOptIndex, indexByte, toNat_u8 (show p < 256 by omega), this]

theorem indexByte_readOptIndex {n : Nat} {b : Byte} {o : Option Nat} (h : readOptIndex n b = some o) :
    (∀ p ∈ o, p < n) ∧ indexByte o = b := by
  unfold readOptIndex at h
  split at h
  · cases h; simpa [indexByte, u8_self]
  · split at h
    · next h2 => cases h; simp only [indexByte, Option.getD_none, ← h2, u8_self]; simp
    · cases h

/-- The code of the value that a byte names is that byte. -/
theorem codeOf_getElem {α : Type} [DecidableEq α] {l : List α} (hn : l.Nodup) {b : Byte} {x : α}
    (h : l[b.toNat]? = some x) : u8 (codeOf l x) = b := by
  obtain ⟨hl, hx⟩ := List.getElem?_eq_some_iff.1 h
  have : codeOf l x = b.toNat := by
    unfold codeOf
    rw [List.findIdx_eq hl]
    refine ⟨by simp [hx], fun j hj => ?_⟩
    simp only [decide_eq_false_iff_not]
    intro he
    exact absurd (he.trans hx.symm) (List.pairwise_iff_getElem.1 hn j b.toNat (by omega) hl hj)
  rw [this, u8_self]

theorem padTo_eq {n m : Nat} {x : Byte} {bs : List Byte} (h : bs.length + m = n) :
    padTo n x bs = bs ++ List.replicate m x := by
  simp only [padTo, List.take_append, List.take_replicate]
  rw [List.take_of_length_le (by omega), show min (n - bs.length) n = m by omega]

end Sys2Proof.Machine
end

