-- ==== Sys2Proof/Laws/Tables.lean ====
section
/-! SUPPORT. What the small checks of COMMIT say: which entries a check may name, the steps that a step names, the lowest
entry that fails, and that the work list of `reach` holds nothing that is not reached. -/

namespace Sys2Proof.Machine

theorem pointOf_iff (t : Tables) (kinds : List PointKind) (p : Nat) :
    t.pointOf kinds p = true ↔ p < 24 ∧ (t.point p).inUse = true ∧ (t.point p).kind ∈ kinds := by
  simp [Tables.pointOf, and_assoc]

theorem optPointOf_iff (t : Tables) (kinds : List PointKind) (o : Option Nat) :
    t.optPointOf kinds o = true ↔ ∀ p ∈ o, p < 24 ∧ (t.point p).inUse = true ∧ (t.point p).kind ∈ kinds := by
  cases o <;> simp [Tables.optPointOf, pointOf_iff]

theorem condUsed_iff (t : Tables) (c : Nat) : t.condUsed c = true ↔ c < 32 ∧ (t.cond c).inUse = true := by
  simp [Tables.condUsed]

theorem stepUsed_iff (t : Tables) (k : Nat) : t.stepUsed k = true ↔ k < 96 ∧ (t.step k).inUse = true := by
  simp [Tables.stepUsed]

theorem seqOf_iff (t : Tables) (cls : SeqClass) (n : Nat) :
    t.seqOf cls n = true ↔ n < 12 ∧ (t.seq n).inUse = true ∧ (t.seq n).cls = cls := by
  simp [Tables.seqOf, and_assoc]

theorem optSeqOf_iff (t : Tables) (cls : SeqClass) (o : Option Nat) :
    t.optSeqOf cls o = true ↔ ∀ n ∈ o, n < 12 ∧ (t.seq n).inUse = true ∧ (t.seq n).cls = cls := by
  cases o <;> simp [Tables.optSeqOf, seqOf_iff]

theorem levelFits_iff (t : Tables) (r : Nat) (o : Output) :
    levelFits t r o = true ↔ (o.mode = .level → (t.role r).kind = .level) := by
  cases h : o.mode <;> simp [levelFits, h]

theorem fuelLine_iff (x : Target) : x.fuelLine = true ↔ ∃ l, l ≤ 4 ∧ x = .line l := by
  cases x <;> simp [Target.fuelLine]

theorem triggered_iff (c : SeqClass) : c.triggered = true ↔ c = .frost ∨ c = .protect := by
  cases c <;> simp [SeqClass.triggered]

/-- The steps that a step names (R58 check 2, R60 check 4). -/
theorem mem_successors (e : StepEntry) (j : Nat) : j ∈ e.successors ↔ e.next = .step j ∨ e.onTimeout = .goto j := by
  unfold StepEntry.successors
  cases e.next <;> cases e.onTimeout <;> simp [eq_comm]

theorem successors_length (e : StepEntry) : e.successors.length ≤ 2 := by
  unfold StepEntry.successors
  cases e.next <;> cases e.onTimeout <;> simp

theorem firstFailing_eq_none (n : Nat) (check : Nat → Bool) :
    firstFailing n check = none ↔ ∀ i, i < n → check i = true := by
  simp [firstFailing]

theorem firstFailing_eq_some (n : Nat) (check : Nat → Bool) (i : Nat) :
    firstFailing n check = some i ↔ i < n ∧ check i = false ∧ ∀ j, j < i → check j = true := by
  simp only [firstFailing, List.find?_range_eq_some, List.mem_range]
  constructor
  · rintro ⟨h1, h2, h3⟩
    exact ⟨h2, by simpa using h1, fun j hj => by simpa using h3 j hj⟩
  · rintro ⟨h1, h2, h3⟩
    exact ⟨by simp [h2], h1, fun j hj => by simp [h3 j hj]⟩

/-- What `reach` answers was reached before, or can be reached from the work list. -/
theorem reach_sound (t : Tables) : ∀ (n : Nat) (work seen : List Nat) (i : Nat), i ∈ reach t n work seen →
    i ∈ seen ∨ ∃ k ∈ work, ∃ m, t.reaches m k i := by
  intro n
  induction n with
  | zero => intro work seen i h; exact .inl h
  | succ n ih =>
    intro work seen i h
    cases work with
    | nil => exact .inl h
    | cons k rest =>
      simp only [reach] at h
      split at h
      · rcases ih _ _ _ h with h | ⟨j, hj, h⟩
        · exact .inl h
        · exact .inr ⟨j, by simp [hj], h⟩
      · rcases ih _ _ _ h with h | ⟨j, hj, m, h⟩
        · rcases List.mem_cons.1 h with rfl | h
          · exact .inr ⟨i, by simp, 0, rfl⟩
          · exact .inl h
        · rcases List.mem_append.1 hj with hj | hj
          · exact .inr ⟨k, by simp, m + 1, j, (mem_successors _ _).1 hj, h⟩
          · exact .inr ⟨j, by simp [hj], m, h⟩

/-- What was reached before stays reached. -/
theorem reach_seen (t : Tables) : ∀ (n : Nat) (work seen : List Nat) (i : Nat), i ∈ seen → i ∈ reach t n work seen := by
  intro n
  induction n with
  | zero => intro work seen i h; exact h
  | succ n ih =>
    intro work seen i h
    cases work with
    | nil => exact h
    | cons k rest =>
      simp only [reach]
      split
      · exact ih _ _ _ h
      · exact ih _ _ _ (by simp [h])

end Sys2Proof.Machine
end

