-- ==== Sys2Proof/Laws/Trace.lean ====
section
/-! SUPPORT. What the operations of the Trace Unit can do, and when a held value violates or proves: cited instead of
unfolding them. -/

namespace Sys2Proof.Machine

/-- Replacing the Trace Unit changes the state's Trace Unit and the notices due at the event's end, and nothing else. -/
theorem Work.setTrace_eq (w : Work) (t : TraceUnit) :
    w.setTrace t = { w with st := w.st.setTrace t, fins := (w.setTrace t).fins } := by
  simp only [Work.setTrace, Work.withSt, Work.fin]
  split <;> split <;> rfl

@[simp] theorem Work.setTrace_st (w : Work) (t : TraceUnit) : (w.setTrace t).st = w.st.setTrace t := by
  rw [Work.setTrace_eq]

/-- With no record open, an entry is no entry. -/
theorem Work.trace_none {w : Work} (h : w.st.trace.opened = none) (k : TraceKind) : w.trace k = w := by
  simp [Work.trace, h]

/-- An entry of an open record that has not ended is written, or counted in the gap. -/
theorem Work.trace_open {w : Work} {r : OpenRecord} (h : w.st.trace.opened = some r) (he : r.ended = none)
    (k : TraceKind) : w.trace k = w.setTrace (traceEntry w.st r k) := by
  simp [Work.trace, h, he]

/-- After a record has ended, an entry is no entry. -/
theorem Work.trace_ended {w : Work} {r : OpenRecord} {offset : Nat} (h : w.st.trace.opened = some r)
    (he : r.ended = some offset) (k : TraceKind) : w.trace k = w := by
  simp [Work.trace, h, he]

@[simp] theorem TraceUnit.leave_mem (t : TraceUnit) (half : Nat) : (t.leave half).mem = t.mem := by
  unfold TraceUnit.leave TraceUnit.setReady; split <;> rfl
@[simp] theorem TraceUnit.leave_opened (t : TraceUnit) (half : Nat) : (t.leave half).opened = t.opened := by
  unfold TraceUnit.leave TraceUnit.setReady; split <;> rfl
@[simp] theorem TraceUnit.leave_counter (t : TraceUnit) (half : Nat) : (t.leave half).counter = t.counter := by
  unfold TraceUnit.leave TraceUnit.setReady; split <;> rfl
@[simp] theorem TraceUnit.leave_gap (t : TraceUnit) (half : Nat) : (t.leave half).gap = t.gap := by
  unfold TraceUnit.leave TraceUnit.setReady; split <;> rfl
@[simp] theorem TraceUnit.leave_gapAt (t : TraceUnit) (half : Nat) : (t.leave half).gapAt = t.gapAt := by
  unfold TraceUnit.leave TraceUnit.setReady; split <;> rfl
theorem TraceUnit.leave_low (t : TraceUnit) :
    t.leave 0 = { t with pos := 256, ready0 := true, hold := t.ready1 } := rfl
theorem TraceUnit.leave_high (t : TraceUnit) :
    t.leave 1 = { t with pos := 0, ready1 := true, hold := t.ready0 } := rfl

/-- A held value violates a supervision entry: UNKNOWN under FAIL, or the opposite of the expected value (R68). -/
theorem violated_iff (e : Supervision) (h : Tri) :
    violated e h = true ↔
      h = .unknown ∧ e.fail = true ∨ h = .yes ∧ e.expected = false ∨ h = .no ∧ e.expected = true := by
  cases h <;> simp [violated]

/-- A held value proves: the proving value, never UNKNOWN (R65). -/
theorem proves_iff (value : Bool) (h : Tri) :
    proves value h = true ↔ h = .yes ∧ value = true ∨ h = .no ∧ value = false := by
  cases h <;> simp [proves]

end Sys2Proof.Machine
end

