-- ==== Sys2Proof/Laws/Units.lean ====
section
/-! SUPPORT. What the small operations of the units can do: the flue values that differ, a sample of the rise test, which
owners are refreshed, a raised notice, a store with nothing in flight, and the bytes of a field of twelve bits. -/

namespace Sys2Proof.Machine

/-- The kinds handed on are those whose value differs (R41). -/
theorem mem_flueChanges (old new : FlueRun) (k : FlueKind) : k ∈ flueChanges old new ↔ old.value k ≠ new.value k := by
  cases k <;> simp [flueChanges]

theorem flueChanges_eq_nil (old new : FlueRun) : flueChanges old new = [] ↔ ∀ k, old.value k = new.value k := by
  constructor
  · intro h k
    refine Decidable.byContradiction fun hk => ?_
    have := (mem_flueChanges old new k).2 hk
    simp [h] at this
  · intro h
    exact List.eq_nil_iff_forall_not_mem.2 fun k hk => (mem_flueChanges old new k).1 hk (h k)

/-- A sample of the rise test writes its state and its timer at most, by what rise, baseline and requirement are (R50). -/
theorem riseSample_agrees (sample : Option Int) (f g : FlueRun) (h1 : f.rise = g.rise) (h2 : f.baseline = g.baseline)
    (h3 : f.required = g.required) (h4 : f.riseTimer = g.riseTimer) :
    riseSample sample f
      = { f with rise := (riseSample sample g).rise, riseTimer := (riseSample sample g).riseTimer } := by
  simp only [riseSample, h1, h2, h3]
  obtain ⟨_, _, _, _, _, _, _, _, _, _⟩ := f
  simp only at h1 h2 h3 h4
  subst h1 h2 h3 h4
  split
  · split <;> rfl
  · rfl

/-- The owners whose values are refreshed are those above CONTROLLER (R122). -/
theorem refreshed_iff (o : Claimant) :
    o.refreshed = true ↔ o = .limit ∨ o = .lockout ∨ o = .sequence ∨ o = .frost := by cases o <;> simp [Claimant.refreshed]

/-- A raised notice stands with its flag set and its content newer than what is in hand (R135). -/
theorem notice_raiseNotice (s : State) (k : NoticeKind) (content : List Byte) (h : s.gate.notices.length = 7) :
    (s.raiseNotice k content).notice k = { flag := true, newer := true, content := content } := by
  have : codeOf NoticeKind.all k < s.gate.notices.length := by rw [h]; cases k <;> decide
  simp [State.raiseNotice, State.setGate, State.notice, List.getD, this]

/-- A reset finds a store with nothing in flight as it stands, whatever becomes of writes (R150, log 8). -/
theorem aborted_of_idle (x : Store) (staging : Tables) (fate : Nat) (h1 : x.write = none) (h2 : x.commit = .none)
    (h3 : x.again = false) : x.aborted staging fate = x := by
  obtain ⟨_, _, _, _, _, _⟩ := x
  simp only at h1 h2 h3
  subst h1 h2 h3
  simp only [Store.aborted, Store.lost]
  split
  · rfl
  · split <;> rfl

/-- Twelve bits in two bytes: 8 to 11 in the high one, 0 to 7 in the low one (R168). -/
theorem bitField_twelve (b0 b1 b2 b3 b4 b5 b6 b7 b8 b9 b10 b11 : Bool) :
    bitField [b0, b1, b2, b3, b4, b5, b6, b7, b8, b9, b10, b11]
      = [flagByte [b8, b9, b10, b11], flagByte [b0, b1, b2, b3, b4, b5, b6, b7]] := by
  have h (b : Bool) : bit b ≤ 1 := by cases b <;> decide
  have h0 := h b0; have h1 := h b1; have h2 := h b2; have h3 := h b3; have h4 := h b4; have h5 := h b5
  have h6 := h b6; have h7 := h b7; have h8 := h b8; have h9 := h b9; have h10 := h b10; have h11 := h b11
  simp only [bitField, flagByte, u16, List.foldr, List.cons.injEq, and_true]
  refine ⟨congrArg u8 (by omega), BitVec.eq_of_toNat_eq ?_⟩
  simp only [u8, BitVec.toNat_ofNat]
  omega

end Sys2Proof.Machine
end

