-- ==== Sys2Proof/Tests/Slice0.lean ====
section
/-! SUPPORT. The model's own tests: what well-formedness refuses, one step of each command on a small state with the
figures of the manual's examples, and for every obligation with hypotheses a concrete state and operands that meet them
(`witness_…`). -/

namespace Sys2Proof.Tests

open Sys2Proof.Machine

set_option maxRecDepth 100000
set_option Elab.async false

/-! ### The example installation (Tables 9 to 11, 14, 18, 21, 26, 29, 32, 33, 35) -/

def tempPoint (source channel : Nat) (lo hi : Int) (k stale : Nat) : PointEntry :=
  { source := source, channel := channel, kind := .temp, offset := -500, gain := 2000, plausLo := lo, plausHi := hi,
    k := k, staleLimit := stale, inUse := true }

def examplePoints : List PointEntry :=
  [tempPoint 10 0 (-400) 1100 2 10, tempPoint 10 1 (-400) 1100 0 10, tempPoint 10 2 (-400) 1450 0 10,
   tempPoint 10 3 (-450) 600 2 10, { tempPoint 11 0 (-400) 2400 1 10 with gain := 3000 },
   { tempPoint 11 1 (-900) 900 0 5 with kind := .draught, offset := -1000 }, tempPoint 11 2 (-400) 1450 0 10,
   tempPoint 11 3 (-400) 1450 0 10,
   { tempPoint 12 0 0 1000 1 3 with kind := .flame, offset := 0, gain := 1000 }, tempPoint 10 4 (-400) 1100 0 10,
   { tempPoint 0 2 0 1 0 3 with kind := .contact, offset := 0, gain := 0 }]

def cond (kind : CondKind) (hold : Nat) : CondEntry := { CondEntry.initial with kind := kind, hold := hold, inUse := true }

def exampleConds : List CondEntry :=
  [{ cond .above 3 with point := 8, threshold := 300, hyst := 100 },
   { cond .above 50 with point := 2, threshold := 650, hyst := 30 }, { cond .contact 10 with point := 10, level := 1 },
   { cond .roleConfirmed 5 with role := 3 }, { cond .roleConfirmed 0 with role := 8 }, cond .flueDraught 0,
   cond .flueBlocked 20, cond .flueSpill 100, cond .flueRise 0, { cond .both 0 with a := 4, b := 5 },
   { cond .both 0 with a := 2, b := 9 }]

def exampleFlue : FlueRecord :=
  { draughtPt := some 5, fluePt := some 4, spillPt := some 6, roomPt := some 7, dReq := 150, dBlock := 30, tCold := 50,
    tWarm := 500, rCold := 800, rWarm := 250, riseWindow := 120, sDelta := 80, kW := 20, aMax := 600 }

/-- A step with no supervision, proof, call or flag; fuel 1, fuel 2, ignition, motor and preheat ON as given, fan and
damper ON, the other roles FREE. -/
def plainStep (fuel1 fuel2 ignite motor preheat : Bool) (least most : Nat) (next : NextStep) (code : Nat)
    (cls : StepClass) : StepEntry :=
  let out (b : Bool) : Output := { mode := if b then .on else .off, value := 0 }
  let free : Output := { mode := .free, value := 0 }
  { StepEntry.initial with
    outputs := [out fuel1, out fuel2, out ignite, out motor, out preheat, free, free, free, out true, out true, free, free]
    proving := none, minDwell := least, maxDwell := most, call := none, next := next
    onTimeout := if most = 0 then .none else .fault, faultCode := code, faultClass := cls, inUse := true }

def plainSteps : List (Nat × StepEntry) :=
  [(0, plainStep false false false false true 0 3000 (.step 1) 11 .recycle),
   (1, { plainStep false false false true true 50 600 (.step 2) 12 .recycle with warmup := true }),
   (2, plainStep false false false true true 150 300 (.step 3) 13 .lockout),
   (3, plainStep false false true true true 20 0 (.step 4) 15 .lockout),
   (4, plainStep true false true true true 0 50 (.step 5) 14 .recycle),
   (5, plainStep true false true true true 30 0 (.step 6) 16 .recycle),
   (6, { plainStep true true false true true 0 0 .hold 17 .recycle with armRise := true, success := true }),
   (10, plainStep false false false true false 300 0 .finish 18 .lockout),
   (20, plainStep false false false true true 300 0 .finish 19 .lockout),
   (30, plainStep false false false true true 0 3000 .finish 22 .recycle),
   (40, plainStep false false false true false 600 0 .finish 21 .lockout),
   (50, plainStep false false false true false 600 0 .finish 20 .lockout)]

/-- What Table 26 proves and supervises, as much of it as the tests use: step 0 is proved by C1 and supervises the door,
step 4 is proved by C0, step 6 supervises flame and rise. -/
def provedSteps : List (Nat × StepEntry) :=
  plainSteps.map fun x =>
    if x.1 = 0 then (0, { x.2 with proving := some 1, provingValue := true
                                   supervision := [{ cond := 2, expected := true, fail := true }] })
    else if x.1 = 4 then (4, { x.2 with proving := some 0, provingValue := true })
    else if x.1 = 6 then (6, { x.2 with supervision := [{ cond := 0, expected := true, fail := true },
                                                        { cond := 8, expected := true, fail := false }] })
    else x

def sequence (entry : Nat) (cls : SeqClass) (priority : Nat) : SeqEntry :=
  { SeqEntry.initial with
    entryStep := entry, cls := cls, priority := priority, stopLink := none, recoveryLink := none, recycleLimit := 3,
    trigger := none, inUse := true }

def exampleSeqs (trigger : Option Nat) : List SeqEntry :=
  [{ sequence 0 .heat 2 with stopLink := some 1, recoveryLink := some 2, trace := true, tracePoints := [4, 5, 8] },
   sequence 10 .stop 3, sequence 20 .recovery 3,
   { sequence 30 .frost 1 with recoveryLink := some 2, resumeMode := .continueStep },
   { sequence 40 .protect 3 with trigger := trigger }, sequence 50 .lockoutPurge 3,
   { sequence 10 .service 1 with stopLink := some 1 }]

def on : Output := { mode := .on, value := 0 }

def exampleCircuits : List CircuitEntry :=
  [{ point := 1, tF := 50, l1 := 3600, l2 := 36000, dFb := 30, margin := 50,
     tierA := some { role := 6, output := on }, tierB := none, tier2 := some 3, inUse := true },
   { point := 3, tF := 0, l1 := 600, l2 := 600, dFb := 20, margin := 50,
     tierA := some { role := 5, output := on }, tierB := none, tier2 := none, inUse := true },
   { point := 9, tF := 50, l1 := 1800, l2 := 12400, dFb := 10, margin := 50,
     tierA := some { role := 10, output := on }, tierB := none, tier2 := some 3, inUse := true }]

def lineRole (l : Nat) (allowed : Bool) : RoleEntry :=
  { RoleEntry.initial with target := .line l, ctlAllowed := allowed, ctlMax := if allowed then 1000 else 0 }

def fieldRole (kind : RoleKind) (node channel tolerance most : Nat) : RoleEntry :=
  { kind := kind, target := .field node channel, tolerance := tolerance, confirmWindow := 15, ctlAllowed := true,
    ctlMin := 0, ctlMax := most }

def exampleRoles : List RoleEntry :=
  (List.range 8).map (fun l => lineRole l (decide (5 ≤ l)))
    ++ [fieldRole .level 20 0 50 600, fieldRole .switched 20 1 0 1000, fieldRole .switched 21 0 0 1000,
        RoleEntry.initial]

def place {α : Type} (l : List α) (xs : List (Nat × α)) : List α := xs.foldl (fun l x => l.set x.1 x.2) l

def fromZero {α : Type} (l xs : List α) : List α := xs ++ l.drop xs.length

def tablesOf (conds : List CondEntry) (steps : List (Nat × StepEntry)) (trigger : Option Nat) : Tables :=
  let t := Tables.initial
  { points := fromZero t.points examplePoints, conds := fromZero t.conds conds, flue := exampleFlue
    steps := place t.steps steps, seqs := fromZero t.seqs (exampleSeqs trigger)
    circuits := fromZero t.circuits exampleCircuits, roles := exampleRoles, device := { t.device with lockoutSeq := 5 } }

/-- Steps proved and supervised, and a sequence triggered by C7. -/
def full : Tables := tablesOf exampleConds provedSteps (some 7)
/-- Conditions with no consumer. -/
def watched : Tables := tablesOf exampleConds plainSteps none
/-- No conditions. -/
def plain : Tables := tablesOf [] plainSteps none

theorem test_example_tables_pass_the_cross_checks :
    crossCheck full = none ∧ crossCheck watched = none ∧ crossCheck plain = none := by decide +kernel

/-! ### States -/

def copyOf (generation : Nat) : Copy := { data := LockoutData.initial, generation := generation }

def storeOf (t : Tables) : Store :=
  { image := some t, copy0 := some (copyOf 0), copy1 := some (copyOf 1), write := none, again := false, commit := .none }

/-- The part under committed tables, idle, the controller present, the field roles heard, nothing pending. -/
def liveOf (t : Tables) : State :=
  let s := State.reset.activated t
  { s with
    store := storeOf t, roles := s.roles.map fun r => { r with heard := some 150, refresh := some 100 }
    gate := { s.gate with present := true, absence := some 300
                          slots := s.gate.slots.map fun x => x.map fun y => { y with pending := false, newer := false } } }

/-- The next state, or the state itself when a command stops. -/
def after (c : Instr) (s : State) : State :=
  match exec c s with
  | .next t => t
  | _ => s

/-- Whether an outcome is a next state of which `p` holds. -/
def ends (p : State → Bool) : Host.Outcome State Fault Refusal → Bool
  | .next t => p t
  | _ => false

/-- Several commands, one after another. -/
def afterAll (cs : List Instr) (s : State) : State := cs.foldl (fun s c => after c s) s

def live : State := liveOf plain
/-- A request from the controller, and the quiet interval after it. -/
def asked (c : Instr) (s : State) : State := afterAll [c, .quietInterval .control] s
/-- S0 runs its entry step. -/
def heating : State := asked (.demandOn 48) live
/-- S1 runs in place of S0, without demand. -/
def stopping : State := asked (.demandOff 48) heating
/-- The SERVICE sequence S6 runs. -/
def service : State := asked (.run 48 6) live
/-- S0's running step. -/
def entryRun : Running :=
  { step := 0, elapsed := 0, minDwell := 0, maxDwell := 3000, allowance := none, markTaken := false, hold := false }
/-- The running step's dwell at its longer bound. -/
def dwelt (s : State) : State := s.setRunning (s.seq.running.map fun x => { x with elapsed := max x.minDwell x.maxDwell })
/-- The running step replaced by step `k` with no dwell elapsed. -/
def runningAt (k : Nat) (s : State) : State := s.setRunning (some { entryRun with step := k, maxDwell := 300 })
/-- A step of the active tables replaced. -/
def withStep (k : Nat) (e : StepEntry) (s : State) : State :=
  { s with tables := { s.tables with steps := s.tables.steps.set k e } }
/-- Locked out while S0 runs step 2; the purge S5 runs. -/
def purging : State := after .maxDwellExpiry (dwelt (runningAt 2 heating))
/-- Locked out, the purge ended, no demand. -/
def lockedIdle : State := after .minDwellMark (dwelt (asked (.demandOff 48) purging))
def limitOpen : State := after .limitOpening live
def fallback : State := after .powerOnImageCheck State.reset
def unpowered : State := after .powerLoss live

def generalFrame (src dst : Byte) : Frame := { src := src, dst := dst, kind := 0, payload := [1, 2] }

/-- The frame in hand of a port replaced. -/
def holding (p : Port) (f : Frame) (t : HandTag) (sending : Bool) (s : State) : State :=
  s.setPort p { s.port p with hand := some { frame := f, tag := t }, sending := sending }

/-! ### Well-formedness -/

theorem test_wellFormed_refuses_an_address_of_four : (Instr.deviceReset 4).wellFormed = false := by decide
theorem test_wellFormed_refuses_a_reception_of_31_bytes :
    (Instr.frameReceiveDiscard .control (List.replicate 31 0) .complete).wellFormed = false := by decide
theorem test_wellFormed_refuses_source_zero :
    (Instr.controlFrame (generalFrame 0 1)).wellFormed = false ∧ (Instr.driveInterception 0 20 0 []).wellFormed = false ∧
      (Instr.linkreset 0 0).wellFormed = false ∧ (Instr.fieldFrame (generalFrame 0 1)).wellFormed = false ∧
      (Instr.sample 0 0 0 []).wellFormed = false ∧ (Instr.state 0 0 0 []).wellFormed = false ∧
      (Instr.load 0 0 0 0 []).wellFormed = false ∧ (Instr.read 0 0 0 0 0).wellFormed = false ∧
      (Instr.discard 0).wellFormed = false ∧ (Instr.commit 0).wellFormed = false ∧
      (Instr.demandOn 0).wellFormed = false ∧ (Instr.demandOff 0).wellFormed = false ∧
      (Instr.run 0 0).wellFormed = false ∧ (Instr.stop 0).wellFormed = false ∧
      (Instr.setRole 0 0 0).wellFormed = false ∧ (Instr.unlock 0).wellFormed = false ∧
      (Instr.status 0 0).wellFormed = false ∧ (Instr.traceRead 0 0 1).wellFormed = false ∧
      (Instr.traceRelease 0 0).wellFormed = false := by decide
theorem test_wellFormed_refuses_payloads_of_25_bytes :
    (Instr.controlFrame { generalFrame 1 1 with payload := List.replicate 25 0 }).wellFormed = false ∧
      (Instr.fieldFrame { generalFrame 1 1 with payload := List.replicate 25 0 }).wellFormed = false ∧
      (Instr.driveInterception 1 20 0 (List.replicate 25 0)).wellFormed = false ∧
      (Instr.sample 1 0 0 (List.replicate 25 0)).wellFormed = false ∧
      (Instr.state 1 0 0 (List.replicate 25 0)).wellFormed = false ∧
      (Instr.load 1 0 0 0 (List.replicate 22 0)).wellFormed = false := by decide
theorem test_wellFormed_refuses_tapped_kinds_as_field_frames :
    (Instr.fieldFrame { generalFrame 1 1 with kind := 16 }).wellFormed = false ∧
      (Instr.fieldFrame { generalFrame 1 1 with kind := 32 }).wellFormed = false := by decide
theorem test_wellFormed_refuses_indexes_out_of_range :
    (Instr.holdExpiry 32).wellFormed = false ∧ (Instr.refreshExpiry 12).wellFormed = false ∧
      (Instr.confirmExpiry 12).wellFormed = false ∧ (Instr.heardTimerExpiry 12).wellFormed = false ∧
      (Instr.senseChange 8 true).wellFormed = false ∧ (Instr.settleExpiry 8).wellFormed = false := by decide

/-! ### Formulas, with the manual's figures -/

theorem test_scaling_example :
    scaleCode (tempPoint 10 0 (-400) 1100 2 10) 1800 = 379 ∧ scaleCode (tempPoint 10 0 (-400) 1100 2 10) 0 = -500 ∧
      scaleCode (tempPoint 10 0 (-400) 1100 2 10) 4095 = 1500 := by decide
theorem test_filter_examples :
    filterUpdate 2 100 103 = 100 ∧ filterUpdate 2 100 120 = 105 ∧ filterUpdate 2 100 97 = 100 ∧
      filterUpdate 2 100 80 = 95 ∧ filterUpdate 4 100 115 = 100 ∧ filterUpdate 4 100 116 = 101 := by decide
theorem test_table_22_warmup_allowances :
    [some 612, some 50, some 45, some (-184), some (-250), some (-300), none].map (warmupAllowance exampleFlue)
      = [0, 0, 10, 468, 600, 600, 600] := by decide
theorem test_table_23_required_rises :
    [-184, 50, 120, 275, 499, 500, 612].map (requiredRise exampleFlue) = [800, 800, 715, 525, 252, 250, 250] := by decide
theorem test_draught_window_example :
    ([-40, -25, 5, 20, 60, 110, 150, 170, 185, 190, 200, 195, 205, 210].foldl
      (fun a v => let f := draughtInput exampleFlue true (some v) a.1
                  (f, a.2 ++ [(f.blocked, f.draught)])) (FlueRun.reset, [])).2
      = List.replicate 3 (.unknown, .unknown) ++ [(.yes, .unknown)] ++ List.replicate 3 (.no, .unknown)
        ++ List.replicate 6 (.no, .no) ++ [(.no, .yes)] := by decide +kernel
theorem test_crc_of_a_frame_is_received_and_a_changed_byte_is_not :
    receiveBytes (frameBytes (generalFrame 48 20)) = some (generalFrame 48 20) ∧
      receiveBytes ((frameBytes (generalFrame 48 20)).set 4 9) = none := by decide +kernel

/-! ### One step of each command -/

theorem test_deviceReset : ends (fun t => t.phase = .checking && t.mgmtAddr = 58 && t.tables = Tables.initial
    && t.fault.data = LockoutData.initial) (exec (.deviceReset 2) unpowered) = true := by decide +kernel
theorem test_powerOnImageCheck_of_blank_storage : ends (fun t => t.phase = .fallback
    && (t.line 5).commanded && !(t.line 4).commanded && t.fault.record.map (·.code) = some 69)
    (exec .powerOnImageCheck State.reset) = true := by decide +kernel
theorem test_powerOnImageCheck_of_a_good_image : ends (fun t => t.phase = .normal && t.tables = plain && t.staging = plain)
    (exec .powerOnImageCheck { State.reset with store := storeOf plain }) = true := by decide +kernel
theorem test_frameReceiveDiscard : ends (fun t => t.ctlPort.hearing = .waiting)
    (exec (.frameReceiveDiscard .control [1, 2, 3, 0, 0, 0] .complete) live) = true := by decide +kernel
theorem test_a_frame_without_a_quiet_interval_before_it_is_not_received :
    ends (fun t => t.seq.chain = []) (exec (.run 48 6) (after (.controlFrame (generalFrame 50 20)) live)) = true ∧
      ends (fun t => t.seq.chain = [6]) (exec (.run 48 6) (asked (.controlFrame (generalFrame 50 20)) live)) = true := by
  decide +kernel
theorem test_transmitStart : ends (fun t => t.fieldPort.sending)
    (exec (.transmitStart .field) (holding .field (generalFrame 48 20) .forwarded false live)) = true := by decide +kernel
theorem test_arbitrationLost : ends (fun t => !t.fieldPort.sending && t.fieldPort.hand.isSome && t.receives .field)
    (exec (.arbitrationLost .field 47) (holding .field (generalFrame 48 20) .forwarded true live)) = true := by
  decide +kernel
theorem test_collision : ends (fun t => !t.ctlPort.sending && t.ctlPort.hand.isSome)
    (exec (.collision .control) (holding .control (generalFrame 20 48) .forwarded true live)) = true := by decide +kernel
theorem test_frameSent : ends (fun t => t.fieldPort.hand.isNone && t.fieldPort.lastSent = frameBytes (generalFrame 48 20))
    (exec (.frameSent .field) (holding .field (generalFrame 48 20) .forwarded true live)) = true := by decide +kernel
theorem test_controlFrame : ends (fun t => t.fieldPort.hand = some { frame := generalFrame 50 20, tag := .forwarded })
    (exec (.controlFrame (generalFrame 50 20)) live) = true := by decide +kernel
theorem test_driveInterception_clamps_and_drops : ends (fun t =>
    t.fieldPort.hand.map (fun h => (h.frame.src, h.frame.dst, h.frame.payload)) = some (48, 20, [1, 3, 232, 0, 2, 88])
      && (t.slot 9).bind Slot.last = some 1000 && (t.slot 8).bind Slot.last = some 600 && t.gate.driveCount = 1)
    (exec (.driveInterception 48 20 0 [1, 3, 232, 0, 3, 32, 4, 0, 250]) live) = true := by decide +kernel
theorem test_driveInterception_held_by_the_sequence : ends (fun t => t.gate.down = [] && t.gate.driveCount = 3
    && (t.role 9).requested = 1000 && (t.role 8).requested = 600 && (t.role 8).owner = .sequence)
    (exec (.driveInterception 48 20 0 [1, 3, 232, 0, 3, 32, 4, 0, 250]) heating) = true := by decide +kernel
theorem test_linkreset : ends (fun t => t.gate.up = [] && t.fieldPort.hand.map (·.tag) = some (.substitution 8))
    (exec (.linkreset 48 0) { live with gate := { live.gate with up := [generalFrame 20 48] } }) = true := by
  decide +kernel
theorem test_fieldFrame : ends (fun t => t.ctlPort.hand = some { frame := generalFrame 20 63, tag := .forwarded })
    (exec (.fieldFrame (generalFrame 20 63)) live) = true := by decide +kernel
theorem test_sample_with_several_readings : ends (fun t => (t.point 0).filtered = some 375
    && (t.point 3).filtered = some 574 && (t.point 3).quality = .good)
    (exec (.sample 10 1 0 [0, 7, 8, 3, 8, 152, 7, 1, 244, 0, 7, 18])
      (live.setPoint 0 { raw := some 0, value := some 370, filtered := some 370, quality := .good, age := 3 })) = true := by
  decide +kernel
theorem test_sample_implausible : ends (fun t => t.point 0
      = { raw := some 4095, value := some 384, filtered := some 381, quality := .implausible, age := 1 })
    (exec (.sample 10 1 0 [0, 15, 255])
      (live.setPoint 0 { raw := some 1810, value := some 384, filtered := some 381, quality := .good, age := 1 })) = true := by
  decide +kernel
theorem test_state : ends (fun t => (t.role 8).actual = some 600 && (t.role 8).since && (t.role 8).heard = some 150)
    (exec (.state 20 1 0 [0, 2, 88]) live) = true := by decide +kernel
theorem test_inputLevelChange : ends (fun t => t.point 10
      = { raw := some 4095, value := some 1, filtered := some 1, quality := .good, age := 0 })
    (exec (.inputLevelChange .in2 true) live) = true := by decide +kernel
theorem test_pointSecondMark_turns_stale : ends (fun t => (t.point 0).quality = .stale && (t.point 0).age = 11
    && (t.point 10).age = 1)
    (exec .pointSecondMark
      (live.setPoint 0 { raw := some 1820, value := some 389, filtered := some 389, quality := .good, age := 10 })) = true := by
  decide +kernel
theorem test_holdExpiry_proves_the_entry_step : ends (fun t => t.held 1 = .yes)
    (exec (.holdExpiry 1) ((liveOf full).setCond 1 { raw := .yes, held := .no, timer := some 50 })) = true := by decide +kernel
theorem test_holdExpiry_of_a_timer_that_still_runs : ends (fun t => t.held 1 = .no)
    (exec (.holdExpiry 1) ((liveOf full).setCond 1 { raw := .yes, held := .no, timer := some 49 })) = true := by decide +kernel
theorem test_riseWindowExpiry : ends (fun t => t.flue.rise = .failed && t.held 8 = .no)
    (exec .riseWindowExpiry ((liveOf full).setFlue { FlueRun.reset with rise := .armed, riseTimer := some 0 })) = true := by
  decide +kernel
theorem test_minDwellMark_enters_the_next_step_with_its_allowance : ends (fun t => t.seq.running = some
      { step := 1, elapsed := 0, minDwell := 518, maxDwell := 1068, allowance := some 468, markTaken := false, hold := false })
    (exec .minDwellMark
      (heating.setPoint 4 { raw := some 0, value := some (-184), filtered := some (-184), quality := .good, age := 0 })) = true := by
  decide +kernel
theorem test_maxDwellExpiry_recycles : ends (fun t => t.seq.chain = [2] && (t.seqRun 0).recycle = 1
    && t.fault.record.map (fun r => (r.code, r.outcome)) = some (14, .recycled))
    (exec .maxDwellExpiry (dwelt (runningAt 4 heating))) = true := by decide +kernel
theorem test_maxDwellExpiry_locks_out_when_due_and_not_before :
    ends (fun t => t.locked && t.seq.chain = [5] && t.fault.data.number = 1 && (t.role 7).applied = 1000)
        (exec .maxDwellExpiry (dwelt (runningAt 2 heating))) = true ∧
      ends (fun t => t.seq = (runningAt 2 heating).seq && !t.locked) (exec .maxDwellExpiry (runningAt 2 heating)) = true := by
  decide +kernel
theorem test_frostSecondMark_fallback_deficits : ends (fun t => (t.circuit 0).debt = 30 && (t.circuit 1).debt = 20
    && (t.circuit 2).debt = 10) (exec .frostSecondMark live) = true := by decide +kernel
theorem test_frostSecondMark_requests_and_fires : ends (fun t => t.seq.chain = [3] && (t.circuit 0).stage = .firing
    && (t.circuit 0).debt = 36006)
    (exec .frostSecondMark
      ((live.setCircuit 0 { debt := 35994, stage := .circulate, blocked := false, last := none }).setPoint 1
        { raw := some 0, value := some 38, filtered := some 38, quality := .good, age := 0 })) = true := by decide +kernel
theorem test_refreshExpiry : ends (fun t => (t.slot 8).map (·.pending) = some true && (t.role 8).refresh = some 100)
    (exec (.refreshExpiry 8) (live.setRole 8 { live.role 8 with refresh := some 0 })) = true := by decide +kernel
theorem test_confirmExpiry : ends (fun t => (t.role 8).confirm = none)
    (exec (.confirmExpiry 8) (live.setRole 8 { live.role 8 with confirm := some 0 })) = true := by decide +kernel
theorem test_heardTimerExpiry : ends (fun t => (t.role 8).heard = none)
    (exec (.heardTimerExpiry 8) (live.setRole 8 { live.role 8 with heard := some 0 })) = true := by decide +kernel
theorem test_senseChange_raises_line_mismatch : ends (fun t => (t.line 7).mismatch
    && t.fault.record.map (fun r => (r.code, r.line, r.outcome)) = some (65, some 7, .noted))
    (exec (.senseChange 7 true) (live.setLine 7 LineRun.reset)) = true := by decide +kernel
theorem test_settleExpiry : ends (fun t => (t.line 0).settle.isNone && !(t.line 0).mismatch)
    (exec (.settleExpiry 0) (live.setLine 0 { LineRun.reset with settle := some 0 })) = true := by decide +kernel
theorem test_limitOpening_while_firing_locks_out : ends (fun t => t.locked && (t.role 0).owner = .limit)
    (exec .limitOpening (afterAll [.minDwellMark] (runningAt 3 heating))) = true := by decide +kernel
theorem test_limitClosing : ends (fun t => (t.role 0).limit = none && t.pins.limitClosed) (exec .limitClosing limitOpen) = true := by
  decide +kernel
theorem test_unlockEdge_refused_while_purging : ends (fun t => t.locked && (t.notice .unlock).flag
    && ((t.notice .unlock).content).head? = some (u8 reasonPurging)) (exec .unlockEdge purging) = true := by decide +kernel
theorem test_unlockEdge_accepted : ends (fun t => !t.locked && t.fault.data.allowance = 2 && t.fault.regain = some 12000)
    (exec .unlockEdge lockedIdle) = true := by decide +kernel
theorem test_absenceTimerExpiry : ends (fun t => t.seq.chain = [1] && !t.gate.present && !t.seq.demand)
    (exec .absenceTimerExpiry (heating.setGate { heating.gate with absence := some 0 })) = true := by decide +kernel
theorem test_regainExpiry : ends (fun t => t.fault.data.allowance = 3 && t.fault.regain = none && t.store.write.isSome)
    (exec .regainExpiry (live.setFault { live.fault with
      data := { LockoutData.initial with allowance := 2 }, regain := some 0 })) = true := by decide +kernel
theorem test_persistenceWriteComplete_of_a_first_write : ends (fun t => t.store.copy0 = some (copyOf 0)
    && t.store.write = some { target := 1, copy := copyOf 1 }) (exec .persistenceWriteComplete State.reset) = true := by
  decide +kernel
theorem test_commitCompletion : ends (fun t => t.tables = watched && t.phase = .normal && t.store.image = some watched)
    (exec .commitCompletion { live with staging := watched, store := { live.store with commit := .writing } }) = true := by
  decide +kernel
theorem test_load_of_a_points_last_part : ends (fun t => t.staging.point 23 = examplePoints.getD 5 PointEntry.initial
    && t.assembly = none && t.ctlPort.hand.map (fun h => h.frame.kind) = some 80)
    (exec (.load 48 0 23 18 [252, 124, 3, 132, 0, 5])
      { live with assembly := some (Assembly.mk .point 23 1 [11, 1, 1, 252, 24, 7, 208, 1]) }) = true := by decide +kernel
theorem test_load_of_bits_without_a_name : ends (fun t => t.staging = plain
    && t.ctlPort.hand.map (fun h => h.frame.kind) = some 84)
    (exec (.load 48 5 5 1 ((entryBytes plain .circuit 5).set 15 4)) live) = true := by decide +kernel
theorem test_load_bad_request : ends (fun t => t.staging = plain && t.ctlPort.hand.map (fun h => h.frame.kind) = some 84)
    (exec (.load 48 7 1 1 (entryBytes plain .device 0)) live) = true := by decide +kernel
theorem test_read : ends (fun t => t.ctlPort.hand.map (fun h => h.frame.payload) = some (entryBytes plain .device 0))
    (exec (.read 48 1 7 0 0) live) = true := by decide +kernel
theorem test_discard : ends (fun t => t.staging = plain) (exec (.discard 48) { live with staging := full }) = true := by
  decide +kernel
theorem test_commit : ends (fun t => t.store.commit = .writing) (exec (.commit 48) live) = true := by decide +kernel
theorem test_commit_names_the_failing_entry : ends (fun t => t.store.commit = .none
    && t.ctlPort.hand.map (fun h => h.frame.payload) = some [u8 reasonCheckFailed, 6, 0])
    (exec (.commit 48) { live with staging := { plain with roles := plain.roles.set 0 RoleEntry.initial } }) = true := by
  decide +kernel
theorem test_demandOn : ends (fun t => t.seq.chain = [0] && t.seq.running = some entryRun && t.trace.pos = 2)
    (exec (.demandOn 48) live) = true := by decide +kernel
theorem test_demandOn_faults_when_the_door_is_unknown : ends (fun t => t.seq.chain = [2]
    && t.fault.record.map (·.code) = some 11) (exec (.demandOn 48) (liveOf full)) = true := by decide +kernel
theorem test_demandOff : ends (fun t => t.seq.chain = [1] && !t.seq.demand) (exec (.demandOff 48) heating) = true := by
  decide +kernel
theorem test_run : ends (fun t => t.seq.chain = [6]) (exec (.run 48 6) live) = true := by decide +kernel
theorem test_stop : ends (fun t => t.seq.chain = [1] && t.seq.demand) (exec (.stop 48) heating) = true := by decide +kernel
theorem test_setRole_applied : ends (fun t => (t.role 8).applied = 600
    && t.ctlPort.hand.map (fun h => h.frame.kind) = some 85) (exec (.setRole 48 8 800) live) = true := by decide +kernel
theorem test_setRole_places_an_unchanged_value : ends (fun t => (t.slot 8).map (·.last) = some (some 0)
    && t.fieldPort.hand.map (·.tag) = some (.substitution 8)) (exec (.setRole 48 8 0) live) = true := by decide +kernel
theorem test_setRole_held : ends (fun t => (t.role 8).applied = 1000 && (t.role 8).requested = 600)
    (exec (.setRole 48 8 800) heating) = true := by decide +kernel
theorem test_unlock : ends (fun t => !t.locked && t.fault.data.allowance = 2) (exec (.unlock 48) lockedIdle) = true := by
  decide +kernel
theorem test_status : ends (fun t => t.ctlPort.hand.map (fun h => h.frame.payload.take 4) = some [1, 0, 14, 1])
    (exec (.status 48 0) { heating with ctlPort := PortState.idle }) = true := by decide +kernel
theorem test_traceRead : ends (fun t => t.ctlPort.hand.map (fun h => h.frame.payload.length) = some 24)
    (exec (.traceRead 48 508 4) live) = true := by decide +kernel
theorem test_traceRelease_writes_the_gap : ends (fun t => t.trace.pos = 257 && !t.trace.hold && !t.trace.ready1
    && (t.trace.mem.getD 256 TraceEntry.empty).kind = .gap 5)
    (exec (.traceRelease 48 1) (live.setTrace { TraceUnit.reset with
      pos := 256, ready0 := true, ready1 := true, hold := true, gap := 5, counter := 9,
      opened := some { number := 8, seq := 0, start := 0, count := 5, ended := none } })) = true := by decide +kernel
theorem test_quietInterval : ends (fun t => t.ctlPort.hearing = .ready)
    (exec (.quietInterval .control) (live.hear .control .waiting)) = true := by decide +kernel
theorem test_unlockInputLeavesActiveLevel : ends (fun t => t.pins.unlockHigh)
    (exec .unlockInputLeavesActiveLevel (live.setUnlock true)) = true := by decide +kernel
theorem test_powerLoss_during_a_write : ends (fun t => t.phase = .off && t.store.copy0.isNone
    && t.store.copy1 = some (copyOf 1))
    (exec .powerLoss { live with store := { storeOf plain with write := some { target := 0, copy := copyOf 2 } } }) = true := by
  decide +kernel
theorem test_no_word_spells_a_command : decodeTableWord 16 0 = none ∧ live.withFetchWord 16 0 = live := by decide +kernel

/-! ### Witnesses: states and operands that meet the hypotheses of the obligations -/

theorem of_some {α : Type} {o : Option α} {a : α} {p : α → Prop} (h : o = some a) (hp : p a) : ∀ t, o = some t → p t := by
  intro t ht
  rw [h] at ht
  exact Option.some.inj ht ▸ hp

theorem unheeded_of_idle {s : State} (hr : s.seq.running = none)
    (ht : ∀ n, n < 12 → (s.tables.seq n).inUse = true → (s.tables.seq n).trigger = none)
    (hl : s.seq.triggers.length = 12) : s.unheeded := by
  refine ⟨?_, ht, hl⟩
  intro x hx
  rw [hr] at hx
  cases hx

theorem unheeded_of_running {s : State} {x : Running} (hr : s.seq.running = some x)
    (hx : (s.tables.step x.step).supervision = [] ∧ (s.tables.step x.step).proving = none)
    (ht : ∀ n, n < 12 → (s.tables.seq n).inUse = true → (s.tables.seq n).trigger = none)
    (hl : s.seq.triggers.length = 12) : s.unheeded :=
  ⟨of_some hr hx, ht, hl⟩

theorem lines_below_eight {t : Tables}
    (h : ∀ r, r < 12 → (match (t.role r).target with | .line l => decide (l < 8) | _ => true) = true) :
    ∀ r l, r < 12 → (t.role r).target = .line l → l < 8 := by
  intro r l hr hl
  have := h r hr
  rw [hl] at this
  exact of_decide_eq_true this

theorem slots_clear {s : State} {n : Nat}
    (h : ∀ q, q < n → (match s.slot q with | some y => !y.pending || y.last.isNone | none => true) = true) :
    ∀ q y, q < n → s.slot q = some y → y.pending = false ∨ y.last = none := by
  intro q y hq hy
  have := h q hq
  rw [hy] at this
  simpa using this

theorem next_of_ends {p : State → Bool} {o : Host.Outcome State Fault Refusal} (h : ends p o = true) :
    ∃ t, o = .next t := by
  cases o with
  | next t => exact ⟨t, rfl⟩
  | fault r => cases h
  | refused r => cases h

theorem live_unheeded : live.unheeded :=
  unheeded_of_idle (by decide +kernel) (by decide +kernel) (by decide +kernel)
theorem heating_unheeded : heating.unheeded :=
  unheeded_of_running (x := entryRun) (by decide +kernel) (by decide +kernel) (by decide +kernel) (by decide +kernel)

/-! #### The interface and the invariants -/

theorem witness_StepRunsFront : ({ live with pending := [.stop 48] } : State).pending = .stop 48 :: [] := by decide
theorem witness_IdleStepCountsTime :
    live.pending = [] ∧ live.phase ≠ .off ∧ unpowered.pending = [] ∧ unpowered.phase = .off := by decide +kernel
theorem witness_ExecKeepsQueue : ∃ t, exec (.stop 48) heating = .next t :=
  next_of_ends (p := fun _ => true) (by decide +kernel)

/-- For every invariant that a step keeps: a state in which it holds, and a command that the next step takes. -/
theorem witness_StepKeeps_invariants :
    heating.sized ∧ heating.queuesBounded ∧ heating.filteredInWindow ∧ heating.chainLaw ∧ heating.frostLaw ∧
      heating.appliedLaw ∧ heating.traceLaw := by decide +kernel
theorem witness_StepKeeps_claims : heating.slotsLaw ∧ heating.linesLaw :=
  ⟨fun _ => by decide +kernel, fun _ => by decide +kernel⟩
theorem witness_StepKeeps_stored_invariants :
    heating.contactWindows ∧ heating.lockoutLaw ∧ heating.tablesChecked := by
  refine ⟨⟨by decide +kernel, by decide +kernel, of_some (a := plain) (by decide +kernel) (by decide +kernel)⟩,
    ⟨by decide +kernel, of_some (a := copyOf 0) (by decide +kernel) (by decide +kernel),
      of_some (a := copyOf 1) (by decide +kernel) (by decide +kernel), ?_⟩,
    ⟨by decide +kernel, of_some (a := plain) (by decide +kernel) (by decide +kernel), by decide +kernel, by decide +kernel⟩⟩
  intro w hw
  have h : heating.store.write = none := by decide +kernel
  rw [h] at hw
  cases hw
theorem witness_StepKeeps_next : ∃ t, step { heating with pending := [.minDwellMark] } = .next t :=
  next_of_ends (p := fun t => t.seq.running.map (·.step) = some 1) (by decide +kernel)

/-! #### Ports -/

theorem witness_SendersBeginAndStop :
    (let s := holding .control (generalFrame 20 48) .forwarded false live
     (s.port .control).hand.isSome = true ∧ (s.port .control).sending = false ∧ (s.port .control).hearing = .ready) ∧
    (live.port .field).hand = none ∧ (live.port .field).sending = false ∧
    (let s := holding .field (generalFrame 48 20) .forwarded true live
     (s.port .field).sending = true ∧ (s.port .field).hand = some { frame := generalFrame 48 20, tag := .forwarded } ∧
       (47 : Byte).toNat < (generalFrame 48 20).src.toNat) := by decide +kernel
theorem witness_FrameSentClears :
    (∀ t ∈ [HandTag.forwarded, .reply, .substitution 8, .notice .fault, .notice .drive],
      let s := holding .control (generalFrame 20 48) t true live
      (s.port .control).sending = true ∧ (s.port .control).hand = some { frame := generalFrame 20 48, tag := t }) ∧
    live.slot 8 = some { node := 20, channel := 0, last := some 0, pending := false, newer := false } := by decide +kernel
theorem witness_FrameSentClears_nothing :
    (live.port .control).sending = false ∧ (live.port .field).hand = none ∧ live.slot 0 = none ∧
      ((holding .field (generalFrame 1 20) (.substitution 0) true live).port .field).hand
        = some { frame := generalFrame 1 20, tag := .substitution 0 } := by decide +kernel
theorem witness_DiscardWaitsForQuiet :
    live.receives .field = true ∧ receiveBytes [] = none ∧ (live.hear .field .waiting).receives .field = false ∧
      (live.hear .control .waiting).receives .control = false ∧ unpowered.receives .control = false ∧
      live.powered = true ∧ (live.port .control).sending = false ∧
      ((holding .control (generalFrame 20 48) .reply true live).port .control).sending = true := by decide +kernel
theorem witness_DiscardWaitsForQuiet_taken :
    live.receives .control = true ∧ live.receives .field = true ∧ State.reset.receives .control = true ∧
      frameKind (generalFrame 48 20).kind ≠ .linkreset ∧ (generalFrame 48 20).dst ≠ 0 ∧
      ends (fun t => t.ctlPort.hearing = .waiting) (exec (.controlFrame (generalFrame 48 20)) live) = true ∧
      ends (fun t => t.fieldPort.hearing = .waiting) (exec (.sample 10 0 0 []) live) = true := by decide +kernel
theorem witness_FrameBytesRoundTrip :
    (1 : Byte) ≠ 0 ∧ (List.replicate 24 (7 : Byte)).length ≤ 24 ∧
      receiveBytes (frameBytes { src := 255, dst := 0, kind := 16, payload := List.replicate 24 7 })
        = some { src := 255, dst := 0, kind := 16, payload := List.replicate 24 7 } ∧
      receiveBytes (frameBytes { src := 1, dst := 255, kind := 0, payload := [] })
        = some { src := 1, dst := 255, kind := 0, payload := [] } := by decide +kernel

/-- The slot of role `r` pending with a value. -/
def slotPending (r : Nat) : State :=
  live.setSlot r (some { node := 20, channel := 0, last := some 600, pending := true, newer := true })

theorem witness_ArbitersChoose_slot :
    (∀ r ∈ [0, 11], (slotPending r).fieldPort.hand = none ∧ r < 12 ∧
      (slotPending r).slot r = some { node := 20, channel := 0, last := some 600, pending := true, newer := true }) ∧
    (∀ q y, q < 11 → (slotPending 11).slot q = some y → y.pending = false ∨ y.last = none) :=
  ⟨by decide +kernel, slots_clear (by decide +kernel)⟩
theorem witness_ArbitersChoose_queues :
    (∀ q y, q < 12 → live.slot q = some y → y.pending = false ∨ y.last = none) ∧ live.fieldPort.hand = none ∧
      live.gate.down = [] ∧ live.ctlPort.hand = none ∧ live.gate.reply = [] ∧ live.gate.up = [] ∧
      (live.notice .lockout).flag = false ∧ (live.notice .fault).flag = false ∧
      ((live.raiseNotice .lockout []).notice .lockout).flag = true ∧
      ((live.raiseNotice .fault []).notice .fault).flag = true ∧
      ((live.raiseNotice .fault []).notice .lockout).flag = false ∧
      (live.reply 48 .busy).gate.reply.length = 1 ∧ (live.forwardUp (generalFrame 20 48)).gate.up.length = 1 ∧
      (live.forwardDown (generalFrame 48 20)).gate.down.length = 1 ∧ heating.fieldPort.hand.isSome = true ∧
      heating.ctlPort.hand.isSome = true := by
  refine ⟨slots_clear (by decide +kernel), by decide +kernel⟩

theorem witness_ArbitersChoose_contents :
    live.gate.notices.length = 7 ∧ heating.seq.chain.length ≤ 4 ∧
      ([0, 1, 2, 3] : List Nat).length ≤ 4 ∧ heating.gate.notices.length = 7 := by decide +kernel

/-! #### The gate -/

theorem witness_ControlFrameForwardedDown :
    live.serving = true ∧ live.receives .control = true ∧ (1 : Byte) ≠ 0 ∧
      (List.replicate 24 (0 : Byte)).length ≤ 24 ∧ frameKind 0 = .general ∧ frameKind 255 = .general ∧
      frameKind 16 = .sample ∧ frameKind 32 = .state ∧ frameKind 80 = .reply ∧ frameKind 96 = .notice ∧
      (∀ d ∈ [(0 : Byte), 2, 47], d.toNat = 0 ∨ 2 ≤ d.toNat ∧ d.toNat ≤ 47) ∧
      (∀ d ∈ [(1 : Byte), 48, 255], d.toNat = 1 ∨ 48 ≤ d.toNat) := by decide +kernel
theorem witness_FieldFrameForwardedUp :
    fallback.serving = true ∧ fallback.receives .field = true ∧ frameKind 48 = .drive ∧ frameKind 64 = .manage ∧
      frameKind 112 = .linkreset ∧
      (∀ d ∈ [(0 : Byte), 48, 63], d.toNat = 0 ∨ 48 ≤ d.toNat ∧ d.toNat ≤ 63) ∧
      (∀ d ∈ [(1 : Byte), 47, 64, 255], 1 ≤ d.toNat ∧ d.toNat ≤ 47 ∨ 64 ≤ d.toNat) := by decide +kernel
theorem witness_LinkResetTaken : live.serving = true ∧ live.receives .control = true ∧ (255 : Byte) ≠ 0 := by
  decide +kernel
theorem witness_DriveSettingForwarded :
    (live.phase = .normal ∧ live.receives .control = true ∧ live.fromController 48 = true ∧ (48 : Byte) ≠ 0 ∧
      (2 ≤ (20 : Byte).toNat ∧ (20 : Byte).toNat ≤ 47) ∧ live.tables.roleOfField (20 : Byte).toNat (0 : Byte).toNat = some 8 ∧
      (live.tables.role 8).ctlAllowed = true ∧ (live.role 8).limit = none ∧ (live.role 8).lockout = none ∧
      (live.role 8).sequence = none ∧ (live.role 8).frost = none ∧ live.gate.down.length < 8 ∧ live.sized) ∧
    live.unheeded := ⟨by decide +kernel, live_unheeded⟩

/-- A setting that changes role 8, and one that leaves it at 0. -/
theorem witness_DriveSettingForwarded_changes :
    (live.role 8).applied = clampRequest (live.tables.role 8) (min (n16 0 0) 1000) ∧
      (live.role 8).applied ≠ clampRequest (live.tables.role 8) (min (n16 2 88) 1000) := by decide +kernel

/-- The forward-down queue at its 8 frames. -/
def downFull : State := { live with gate := { live.gate with down := List.replicate 8 (generalFrame 48 20) } }
/-- A field role that the controller may not command, and a device that passes unrouted settings on. -/
def forbidding : State :=
  { live with tables := { plain with roles := plain.roles.set 8 { plain.role 8 with ctlAllowed := false } } }
def passing : State := { live with tables := { plain with device := { plain.device with passUnrouted := true } } }
/-- A reply queue at its 4 frames, and a store write in flight. -/
def repliesFull : State := { live with gate := { live.gate with reply := List.replicate 4 (generalFrame 56 48) } }
def storing : State := { live with store := { live.store with commit := .waiting } }

theorem witness_DriveSettingForwarded_dropped :
    (downFull.serving = true ∧ downFull.receives .control = true ∧ downFull.fromController 48 = true ∧ downFull.sized ∧
      8 ≤ downFull.gate.down.length ∧ downFull.slot 8 = live.slot 8) ∧
    (forbidding.phase = .normal ∧ forbidding.receives .control = true ∧ forbidding.fromController 48 = true ∧
      forbidding.tables.roleOfField 20 0 = some 8 ∧ (forbidding.tables.role 8).ctlAllowed = false) ∧
    (heating.phase = .normal ∧ heating.receives .control = true ∧ heating.fromController 48 = true ∧
      heating.tables.roleOfField 20 0 = some 8 ∧ (heating.tables.role 8).ctlAllowed = true ∧
      (heating.role 8).sequence.isSome = true ∧ heating.sized ∧ heating.appliedLaw) ∧
    (fallback.serving = true ∧ fallback.receives .control = true ∧ fallback.fromController 48 = true ∧
      fallback.phase = .fallback) ∧
    (live.tables.roleOfField 20 2 = none ∧ live.tables.device.passUnrouted = false ∧
      passing.receives .control = true ∧ passing.phase = .normal ∧ passing.tables.roleOfField 20 2 = none ∧
      passing.tables.device.passUnrouted = true) := by decide +kernel
theorem witness_DriveSettingForwarded_queue :
    let kept : List Kept := [{ channel := 0, level := 600, role := some 8 }, { channel := 7, level := 9, role := none }]
    kept ≠ [] ∧ live.sized ∧ live.gate.down.length < 8 ∧ downFull.sized ∧ 8 ≤ downFull.gate.down.length ∧ 8 < 12 ∧
      (downFull.tables.role 8).target = .field 20 0 ∧ (downFull.tables.role 9).target = .field 20 1 := by decide +kernel
theorem witness_DriveSettingForwarded_several :
    live.serving = true ∧ heating.serving = true ∧
      (∀ n ∈ [1, 2, 3, 4], groupsOk 4 (List.replicate (3 * n) 0) = true ∧ (groups (List.replicate (3 * n) 0)).length = n) ∧
      ((groups [0, 2, 88, 1, 3, 232]).foldl (driveSetting 20) (Work.idle (live.heardFrom 48), [])).1.emitted
        = [.condWalk (.role 8), .condWalk (.role 9)] ∧
      (groups [0, 2, 88, 1, 3, 232]).map (fun g => live.tables.roleOfField 20 g.1) = [some 8, some 9] ∧
      ({ live.role 8 with ctlFilled := true, requested := 600 } : RoleRun).claim.1 = .controller ∧
      ({ heating.role 8 with ctlFilled := true, requested := 600 } : RoleRun).claim.1 ≠ .controller := by decide +kernel
theorem witness_FramesTurnedAway :
    live.serving = true ∧ live.receives .control = true ∧ (50 : Byte) ≠ 0 ∧ live.mgmtAddr < 256 ∧
      (2 ≤ (2 : Byte).toNat ∧ (47 : Byte).toNat ≤ 47) ∧ live.fromController 50 = false ∧ live.fromController 48 = true ∧
      groupsOk 4 [] = false ∧ groupsOk 4 (List.replicate 15 0) = false ∧ (1 : Byte).toNat ≤ 1 ∧
      48 ≤ (48 : Byte).toNat ∧ live.gate.reply.length < 4 ∧
      (storing.serving = true ∧ storing.receives .control = true ∧ storing.mgmtAddr < 256 ∧
        storing.gate.reply.length < 4 ∧ storing.fromController 48 = true ∧ storing.committing = true ∧
        (readLoad 7 0 1 (entryBytes plain .device 0)).isSome = true ∧ (entryBytes plain .device 0).length ≤ 21 ∧
        (11 : Byte).toNat < 12) ∧
      (repliesFull.serving = true ∧ repliesFull.receives .control = true ∧ repliesFull.mgmtAddr < 256 ∧
        4 ≤ repliesFull.gate.reply.length) := by decide +kernel
/-- Malformed requests, at both sides of each bound: the table kinds' parts, the indexes, the entries of the trace. -/
theorem witness_FramesTurnedAway_bad_requests :
    live.gate.reply.length < 4 ∧ live.fromController 48 = true ∧ storing.gate.reply.length < 4 ∧
      (0 : BitVec 4).toNat = 0 ∧ 14 ≤ (14 : BitVec 4).toNat ∧ (1 : BitVec 4).toNat = 1 ∧
      ([0, 0] : List Byte).length < 3 ∧ ([] : List Byte).length ≠ 4 ∧ ([0, 0] : List Byte).length ≠ 1 ∧ 8 ≤ (8 : Byte).toNat ∧
      TableKind.all[(0 : Byte).toNat]? = some .point ∧ (17 : Byte).toNat % 16 ≠ TableKind.point.partLengths.length ∧
      TableKind.point.partLengths.length ≤ (34 : Byte).toNat / 16 ∧
      TableKind.point.partLengths.getD ((18 : Byte).toNat / 16) 0 ≠ ([] : List Byte).length ∧
      2 ≤ (2 : Byte).toNat ∧ TableKind.point.size ≤ (24 : Byte).toNat ∧
      TableKind.point.partLengths.length ≤ (2 : Byte).toNat ∧
      TableKind.point.partLengths.length + TableKind.point.runtimeParts ≤ (3 : Byte).toNat ∧ 12 ≤ (12 : Byte).toNat ∧
      13 ≤ (13 : Byte).toNat ∧ (0 : Byte).toNat = 0 ∧ 4 < (5 : Byte).toNat ∧
      512 < (509 : Word).toNat + (4 : Byte).toNat := by decide +kernel
theorem test_bad_requests_of_every_form :
    ∀ c ∈ [Instr.controlFrame { src := 48, dst := u8 live.mgmtAddr, kind := 64, payload := [] }, .load 48 8 0 1 [],
        .load 48 0 0 34 [], .read 48 1 0 24 0, .run 48 12, .setRole 48 12 0, .status 48 13, .traceRead 48 509 4,
        .traceRelease 48 2],
      ends (fun t => t.ctlPort.hand.map (fun h => h.frame.kind) = some 84 && t.store = storing.store)
        (exec c storing) = true := by decide +kernel

/-! #### Points, conditions, flue -/

theorem witness_SampleTakesReadings :
    (live.phase = .normal ∧ live.receives .field = true ∧ (10 : Byte) ≠ 0 ∧ groupsOk 8 [0, 7, 8] = true ∧
      groupsOk 8 (List.replicate 24 0) = true ∧ groupsOk 8 [] = false ∧ groupsOk 8 [0, 7] = false ∧ live.sized ∧
      live.trace.opened = none) ∧ live.unheeded := ⟨by decide +kernel, live_unheeded⟩
/-- S0 runs its traced record, and the field port receives; one whose record has ended in HOLD. -/
def recording : State := heating.hear .field .ready
def recordEnded : State :=
  recording.setTrace { recording.trace with opened := recording.trace.opened.map fun r => { r with ended := some 7 } }

theorem witness_SampleTakesReadings_trace :
    (recording.serving = true ∧ recording.receives .field = true ∧ recording.phase = .normal ∧ recording.sized ∧
      groupsOk 8 [0, 7, 8] = true ∧ matchPoint plain (11 : Byte).toNat (0 : Byte).toNat = some 4 ∧
      matchPoint plain (10 : Byte).toNat (0 : Byte).toNat = some 0 ∧
      readingPlausible (plain.point 4) (limitCode (n16 7 8)) = true ∧
      (afterReading (plain.point 4) (recording.point 4) (limitCode (n16 7 8))).filtered = some 818 ∧
      readingPlausible (plain.point 4) (limitCode (n16 15 255)) = false ∧
      recording.trace.opened = some { number := 0, seq := 0, start := 0, count := 2, ended := none } ∧
      4 ∈ (plain.seq 0).tracePoints ∧ 0 ∉ (plain.seq 0).tracePoints ∧
      recordEnded.trace.opened = some { number := 0, seq := 0, start := 0, count := 2, ended := some 7 } ∧
      ends (fun t => t.trace.pos = 3 && t.trace.mem.getD 2 TraceEntry.empty
          = { kind := .sample 4 818, record := 0, offset := 0 }) (exec (.sample 11 0 0 [0, 7, 8]) recording) = true) ∧
      recording.unheeded ∧ recordEnded.unheeded :=
  ⟨by decide +kernel,
    unheeded_of_running (x := entryRun) (by decide +kernel) (by decide +kernel) (by decide +kernel) (by decide +kernel),
    unheeded_of_running (x := entryRun) (by decide +kernel) (by decide +kernel) (by decide +kernel) (by decide +kernel)⟩
theorem witness_SampleTakesReadings_fallback :
    fallback.serving = true ∧ fallback.receives .field = true ∧ fallback.phase = .fallback ∧
      ends (fun t => t.ctlPort.hand.isSome && t.points = fallback.points)
        (exec (.sample 10 48 0 [0, 7, 8]) { fallback with ctlPort := PortState.idle, gate := Gate.reset }) = true := by
  decide +kernel
/-- A reading row by row: a contact on both sides of 2048, codes at both ends of the saturation, values at both edges of the
window, a GOOD point and one that is not. -/
theorem witness_SampleTakesReadings_rows :
    (examplePoints.getD 10 PointEntry.initial).kind = .contact ∧
      (let e := tempPoint 10 0 (-500) 1500 2 10
       e.kind ≠ .contact ∧ e.offset + (((4095 * e.gain + 2048) / 4096 : Nat) : Int) = 1500 ∧ e.plausHi = 1500 ∧
         e.offset + (((0 * e.gain + 2048) / 4096 : Nat) : Int) = -500 ∧ e.plausLo = -500) ∧
      (let r : PointRun := { raw := some 0, value := some 0, filtered := some 0, quality := .good, age := 0 }
       r.quality = .good ∧ r.filtered = some 0) ∧
      PointRun.empty.quality ≠ .good ∧ (1499 : Int) < 1500 ∧ (-500 : Int) < -499 := by decide +kernel
theorem witness_StateFrameTakesSettings :
    (groupsOk 4 [0, 2, 88] = true ∧ groupsOk 4 (List.replicate 12 0) = true ∧ groupsOk 4 (List.replicate 15 0) = false) ∧
      live.phase = .normal ∧ live.sized ∧ live.unheeded :=
  ⟨by decide +kernel, by decide +kernel, by decide +kernel, live_unheeded⟩
theorem witness_StateFrameTakesSettings_fallback :
    fallback.serving = true ∧ fallback.receives .field = true ∧ fallback.phase = .fallback ∧
      ends (fun t => t.ctlPort.hand.isSome && t.roles = fallback.roles)
        (exec (.state 20 48 0 [0, 2, 88]) { fallback with ctlPort := PortState.idle, gate := Gate.reset }) = true := by
  decide +kernel
theorem witness_InputChangeSampled :
    (live.inputHigh .in2 = false ∧ live.inputHigh .in3 = !true ∧ fallback.inputHigh .in2 = !true ∧
      fallback.phase ≠ .normal ∧ live.phase = .normal ∧ live.sized) ∧ live.unheeded :=
  ⟨by decide +kernel, live_unheeded⟩
theorem witness_PointMarkAgesPoints :
    (live.phase = .normal ∧ live.sized ∧ State.reset.phase = .checking ∧ fallback.phase = .fallback) ∧ live.unheeded :=
  ⟨by decide +kernel, live_unheeded⟩

theorem witness_PointMarkAgesPoints_rows :
    PointRun.empty.quality = .none ∧
      ∀ a ∈ [9, 10, 254, 255, 300], ({ PointRun.empty with quality := .good, age := a } : PointRun).quality ≠ .none := by
  decide

/-- A GOOD point with a filtered value. -/
def goodAt (v : Int) : PointRun := { raw := some 0, value := some v, filtered := some v, quality := .good, age := 0 }

/-- ABOVE and BELOW at 300 with a band of 100, and a value on each side of every boundary; CONTACT, BOTH and EITHER on
every row. -/
theorem witness_RawValuesOfConditions :
    (∀ e ∈ [{ cond .above 0 with point := 0, threshold := 300, hyst := 100 },
            { cond .below 0 with point := 0, threshold := 300, hyst := 100 },
            { cond .contact 0 with point := 0, level := 1 }],
      (live.point e.point).quality ≠ .good ∧
      ∀ v ∈ [(0 : Int), 1, 199, 200, 299, 300, 301, 400, 401],
        ((live.setPoint 0 (goodAt v)).point e.point).quality = .good ∧
        ((live.setPoint 0 (goodAt v)).point e.point).filtered = some v) ∧
    (∀ x ∈ [Tri.yes, .no, .unknown], ∀ y ∈ [Tri.yes, .no, .unknown],
      let s := (live.setCond 0 { CondRun.reset with held := x }).setCond 31 { CondRun.reset with held := y }
      s.held 0 = x ∧ s.held 31 = y) := by decide +kernel
/-- The rows of R31's table, and what each input marks. -/
theorem witness_RawValuesOfConditions_rows :
    (Tri.no ≠ .yes ∧ Tri.unknown ≠ .yes ∧ CondRun.reset.raw ≠ .yes ∧
      ({ raw := .yes, held := .no, timer := some 3 } : CondRun).raw = .yes) ∧
    (∀ x ∈ [(CondInput.point 8, 0), (.role 3, 3), (.role 8, 4), (.flue [.draught], 5), (.flue [.blocked], 6),
        (.flue [.spill], 7), (.flue [.rise], 8), (.all, 10)], marks x.1 (full.cond x.2) = true) ∧
    marks (.point 8) (full.cond 1) = false ∧ marks (.hold 0) (full.cond 0) = false := by decide +kernel

/-- Role 8 confirmed, C2 and C5 TRUE: C4 follows the role, C9 follows C4 and C5, C10 follows C2 and C9. -/
def confirmed : State :=
  let s := liveOf watched
  ((s.setRole 8 { s.role 8 with actual := some 0, since := true }).setCond 5 { raw := .yes, held := .yes, timer := none }).setCond
    2 { raw := .yes, held := .yes, timer := none }

theorem witness_RawValuesOfConditions_walk :
    confirmed.conds.length = 32 ∧ (∀ c, c < 32 → condCheck watched c = true) ∧ confirmed.tables = watched ∧
      (walk (.role 8) confirmed []).2 = [4, 9, 10] ∧
      (∀ c ∈ [4, 9, 10], ((walk (.role 8) confirmed []).1.cond c).held = .yes ∧ (confirmed.cond c).held = .unknown) ∧
      (walk (.hold 5) confirmed [5]).2 = [5] ∧ (walk (.hold 0) confirmed []).1 = confirmed := by decide +kernel
/-- ROLE_CONFIRMED at both edges of the tolerance of 50, with the confirm timer running and stopped, on a line that settles
and on settled ones, and on a role without a target; the flue in each state of its rise test. -/
theorem witness_RawValuesOfConditions_roles :
    (∀ x ∈ [(550, Tri.yes), (549, .no), (650, .yes), (651, .no)],
      let s := confirmed.setRole 8 { RoleRun.reset with applied := 600, actual := some x.1, since := true }
      (watched.cond 4).kind = .roleConfirmed ∧ (s.tables.role 8).target = .field 20 0 ∧ (s.role 8).since = true ∧
        (s.role 8).actual = some x.1 ∧ rawValue s (watched.cond 4) .unknown = x.2) ∧
    (∀ x ∈ [(some 0, Tri.unknown), (none, .no)],
      let s := confirmed.setRole 8 { RoleRun.reset with confirm := x.1 }
      (s.role 8).since = false ∧ (s.role 8).confirm = x.1 ∧ rawValue s (watched.cond 4) .yes = x.2) ∧
    (∀ x ∈ [(some 2, false, Tri.unknown), (none, false, .yes), (none, true, .no)],
      let s := (confirmed.setLine 3 { LineRun.reset with settle := x.1 }).setSense 3 x.2.1
      (s.tables.role 3).target = .line 3 ∧ (s.line 3).settle = x.1 ∧ rawValue s (watched.cond 3) .unknown = x.2.2) ∧
    (confirmed.tables.role 11).target = .none ∧
    (∀ r ∈ [RiseState.idle, .armed, .passed, .failed],
      ((confirmed.setFlue { FlueRun.reset with rise := r }).flue.rise = r)) ∧
    (watched.cond 5).kind = .flueDraught ∧ (watched.cond 6).kind = .flueBlocked ∧ (watched.cond 7).kind = .flueSpill ∧
    (watched.cond 8).kind = .flueRise := by decide +kernel

/-- The part with the conditions of the example and no consumer, in each free order: role 8 confirmed, the field port
receiving, seven readings in the draught window. -/
def watching (o : HandoffOrder) : State :=
  let s := confirmed
  { s.setFlue { FlueRun.reset with window := List.replicate 7 150 } with order := o }

theorem watching_unheeded (o : HandoffOrder) : (watching o).unheeded := by
  cases o <;> exact unheeded_of_idle (by decide +kernel) (by decide +kernel) (by decide +kernel)

/-- A reading of the draught point fills the window, and FLUE_DRAUGHT and the combinations above it follow, whichever unit
takes it first. -/
theorem test_reading_is_handed_on :
    ∀ o ∈ [HandoffOrder.conditionFlueTrace, .traceFlueCondition],
      ends (fun t => t.conds == ([(1, 2047)].foldl (State.tookReading 11) (watching o)).conds &&
          t.flue == ([(1, 2047)].foldl (State.tookReading 11) (watching o)).flue &&
          t.flue.draught == .no && (t.cond 5).held == .no && (watching o).flue.draught == .unknown)
        (exec (.sample 11 48 0 [1, 7, 255]) (watching o)) = true := by decide +kernel
theorem test_setting_is_handed_on :
    ends (fun t => t.conds == ([(0, 60)].foldl (State.tookSetting 20) confirmed).conds && (t.cond 4).held == .no)
      (exec (.state 20 48 0 [0, 0, 60]) confirmed) = true := by decide +kernel
theorem test_input_sample_is_handed_on :
    ends (fun t => t.conds == ((inputReadings (confirmed.setInput .in2 true)).foldl (State.tookReading 0)
          (confirmed.setInput .in2 true)).conds && (t.cond 2).raw == .yes)
      (exec (.inputLevelChange .in2 true) confirmed) = true := by decide +kernel
/-- The draught point turns STALE at the mark, and the window is emptied. -/
theorem test_stale_point_is_handed_on :
    let s := (watching .conditionFlueTrace).setPoint 5 { goodAt 150 with age := 5 }
    ends (fun t => t.conds == s.tookMark.conds && t.flue == s.tookMark.flue && t.flue.window == [] &&
        (t.point 5).quality == .stale)
      (exec .pointSecondMark s) = true := by decide +kernel

/-- Condition `c` in use with a hold of 10, its timer at its end. -/
def timed (c : Nat) : State :=
  let e : CondEntry := { cond .contact 10 with point := 10, level := 1 }
  { live with
    tables := { plain with conds := plain.conds.set c e }
    conds := live.conds.set c { raw := .yes, held := .no, timer := some 10 } }

theorem timed_unheeded : (timed 0).unheeded ∧ (timed 31).unheeded :=
  ⟨unheeded_of_idle (by decide +kernel) (by decide +kernel) (by decide +kernel),
    unheeded_of_idle (by decide +kernel) (by decide +kernel) (by decide +kernel)⟩
theorem witness_HoldExpiryBelieves :
    (∀ c ∈ [0, 31], c < 32 ∧ ((timed c).cond c).timer = some 10 ∧ ((timed c).tables.cond c).hold ≤ 10 ∧
      9 < ((timed c).tables.cond c).hold ∧ ((timed c).tables.cond c).inUse = true ∧
      (timed c).phase = .normal ∧ (timed c).sized ∧ (∀ i, i < 32 → condCheck (timed c).tables i = true)) ∧
    (live.cond 31).timer = none := by decide +kernel
/-- C`c` the one condition in use, comparing a point, its timer at its end, in the state `s`. -/
def timedIn (c : Nat) (s : State) : State :=
  { s with
    tables := { s.tables with
      conds := s.tables.conds.set c { cond .contact 10 with point := 10, level := 1 } }
    conds := s.conds.set c { raw := .yes, held := .no, timer := some 10 } }
/-- S0 runs a step that C31 violates; one that C0 proves, with its minimum dwell over; S4 is triggered by C7. -/
def violating : State :=
  timedIn 31 (withStep 0 { heating.tables.step 0 with
    supervision := [{ cond := 31, expected := false, fail := false }] } heating)
def proving : State :=
  timedIn 0 (withStep 0 { heating.tables.step 0 with proving := some 0, provingValue := true }
    (heating.setRunning (some { entryRun with markTaken := true })))
def triggering (priority : Nat) : State :=
  timedIn 7 { heating with tables := { plain with
    seqs := plain.seqs.set 4 { sequence 40 .protect priority with trigger := some 7 } } }

theorem witness_HoldExpiryBelieves_watched :
    ∀ x ∈ [(violating, 31), (proving, 0), (triggering 1, 7), (triggering 3, 7)], x.2 < 32 ∧
      (x.1.cond x.2).timer = some 10 ∧ (x.1.tables.cond x.2).hold ≤ 10 ∧ (x.1.cond x.2).held ≠ .yes ∧
      (x.1.tables.cond x.2).inUse = true ∧ (x.1.tables.cond x.2).kind = .contact ∧
      (∀ d, d < 32 → d ≠ x.2 → (x.1.tables.cond d).inUse = false) ∧ x.1.phase = .normal ∧ x.1.sized ∧
      x.1.locked = false := by decide +kernel
theorem witness_HoldExpiryBelieves_violated :
    let s := violating
    (∀ n, n < 12 → (s.tables.seq n).inUse = true → (s.tables.seq n).trigger ≠ some 31) ∧ s.seq.running = some entryRun ∧ s.seq.chain = 0 :: [] ∧
      (s.tables.step 0).supervision = [{ cond := 31, expected := false, fail := false }] ∧
      (s.tables.step 0).faultClass = .recycle ∧ (s.seqRun 0).recycle + 1 < (s.tables.seq 0).recycleLimit ∧
      (s.tables.seq 0).recoveryLink = some 2 ∧ s.switchCheck 2 .recycle = none ∧
      (s.believes 31).seqEntersQuietly 2 ∧
      ends (fun t => t.seq.chain = [2] && t.fault.record.map (·.code) = some 11) (exec (.holdExpiry 31) s) = true := by
  decide +kernel
theorem witness_HoldExpiryBelieves_proved :
    let s := proving
    (∀ n, n < 12 → (s.tables.seq n).inUse = true → (s.tables.seq n).trigger ≠ some 0) ∧
      s.seq.running = some { entryRun with markTaken := true } ∧ s.top = some 0 ∧
      (s.tables.step 0).proving = some 0 ∧ (s.tables.step 0).provingValue = true ∧
      (s.tables.step 0).supervision = [] ∧ (s.tables.step 0).next = .step 1 ∧ (s.believes 0).entersQuietly 1 ∧
      ends (fun t => t.seq.running.map (·.step) = some 1) (exec (.holdExpiry 0) s) = true := by decide +kernel
theorem witness_HoldExpiryBelieves_triggered :
    (∀ p ∈ [1, 3],
      let s := triggering p
      (s.tables.seq 4).inUse = true ∧ (s.tables.seq 4).trigger = some 7 ∧ 4 ∉ s.seq.chain ∧
        (∀ k, k < 12 → k ≠ 4 → (s.tables.seq k).inUse = true → (s.tables.seq k).trigger ≠ some 7) ∧ s.seq.running = some entryRun ∧
        (s.tables.step 0).proving = none ∧ (s.tables.step 0).supervision = [] ∧ s.seq.chain = 0 :: [] ∧
        s.seq.triggers = List.replicate 12 Trigger.clear) ∧
    (triggering 1).switchCheck 4 .trigger = some .priority ∧ (triggering 3).switchCheck 4 .trigger = none ∧
    ((triggering 3).believes 7).seqEntersQuietly 4 ∧
    ends (fun t => (t.trigger 4).own && t.seq.chain = [0]) (exec (.holdExpiry 7) (triggering 1)) = true ∧
    ends (fun t => t.seq.chain = [4, 0]) (exec (.holdExpiry 7) (triggering 3)) = true := by decide +kernel
/-- Each row of a hand-off set: no top, a violated supervision, a proof, neither; a trigger added, kept, removed. -/
theorem witness_HoldExpiryBelieves_sets :
    live.seq.running = none ∧ violating.seq.running = some entryRun ∧ violating.top = some 0 ∧
      [((31 : Nat), Tri.yes)].lookup 31 = some .yes ∧ [((31 : Nat), Tri.no)].lookup 31 = some .no ∧
      [((31 : Nat), Tri.unknown)].lookup 31 = some .unknown ∧ [((31 : Nat), Tri.no)].lookup 7 = none ∧
      proving.top = some 0 ∧ (triggering 3).seq.triggers.length = 12 ∧
      ((triggering 3).tables.seq 4).inUse = true ∧ ((triggering 3).tables.seq 4).trigger = some 7 ∧
      4 ∉ (triggering 3).seq.chain ∧ ((triggering 3).tables.seq 11).inUse = false ∧
      ((triggering 3).tables.seq 0).trigger = none ∧
      4 ∈ ((triggering 3).setSeq { (triggering 3).seq with chain := [4] }).seq.chain := by decide +kernel

/-- The Flue Unit with a window of seven values or fewer. -/
def windowOf (w : List Int) : FlueRun := { FlueRun.reset with window := w }

theorem witness_DraughtAndBlockedValues :
    (draughtInput exampleFlue true (some 150) (windowOf (List.replicate 7 150))).window = List.replicate 8 150 ∧
      (∀ v ∈ List.replicate 8 (150 : Int), (exampleFlue.dReq : Int) ≤ v) ∧
      (draughtInput exampleFlue true (some 149) (windowOf (List.replicate 8 150))).window
        = List.replicate 7 150 ++ [149] ∧
      (∃ v ∈ List.replicate 7 (150 : Int) ++ [149], v < (exampleFlue.dReq : Int)) ∧
      (draughtInput exampleFlue true (some 29) (windowOf (List.replicate 3 29))).window = List.replicate 4 29 ∧
      (∀ v ∈ (List.replicate 4 (29 : Int)).drop 0, v < (exampleFlue.dBlock : Int)) ∧
      (draughtInput exampleFlue true (some 30) (windowOf (List.replicate 3 29))).window = List.replicate 3 29 ++ [30] ∧
      (draughtInput exampleFlue false none (windowOf (List.replicate 3 29))).window = [] ∧
      exampleFlue.dBlock < exampleFlue.dReq := by decide +kernel

/-- An ARMED rise test from a baseline of 50 with a required rise of 800. -/
def armedTest : FlueRun :=
  { FlueRun.reset with rise := .armed, baseline := some 50, required := some 800, riseTimer := some 5 }

theorem witness_DraughtAndBlockedValues_spill_and_rise :
    exampleFlue.sDelta ≤ 200 - 120 ∧ 199 - 120 < exampleFlue.sDelta ∧ FlueRun.reset.rise ≠ .armed ∧
      armedTest.rise = .armed ∧ armedTest.baseline = some 50 ∧ armedTest.required = some 800 ∧
      ((800 : Nat) : Int) ≤ 850 - 50 ∧ 849 - 50 < ((800 : Nat) : Int) := by decide +kernel
/-- Each named point drives its own value, and an unnamed one none; a reading that changes a value and one that does not. -/
theorem witness_DraughtAndBlockedValues_points :
    exampleFlue.draughtPt = some 5 ∧ exampleFlue.fluePt = some 4 ∧ exampleFlue.spillPt = some 6 ∧
      exampleFlue.roomPt = some 7 ∧ (live.setFlue armedTest).phase = .normal ∧ fallback.phase ≠ .normal ∧
      (flueAfter (live.setFlue armedTest) 4 (some 850)).rise = .passed ∧
      flueAfter (live.setFlue armedTest) 4 (some 849) = armedTest ∧
      flueAfter (live.setFlue armedTest) 0 (some 850) = armedTest ∧
      (flueAfter (((live.setFlue armedTest).setPoint 6 (goodAt 200)).setPoint 7 (goodAt 120)) 7 (some 120)).spill = .yes ∧
      (flueAfter ((live.setFlue armedTest).setPoint 5 (goodAt 29)) 5 (some 29)).window = [29] := by decide +kernel
theorem witness_RiseWindowExpiryFails :
    (live.setFlue { FlueRun.reset with rise := .armed, riseTimer := some 0 }).flue.riseTimer = some 0 ∧
      (live.setFlue { FlueRun.reset with rise := .armed, riseTimer := some 0 }).flue.rise = .armed ∧
      live.phase = .normal ∧ live.flue.rise ≠ .armed ∧ armedTest.riseTimer ≠ some 0 := by decide +kernel
theorem witness_RiseWindowExpiryFails_unheeded :
    (live.setFlue { FlueRun.reset with rise := .armed, riseTimer := some 0 }).unheeded :=
  unheeded_of_idle (by decide +kernel) (by decide +kernel) (by decide +kernel)

/-! #### Steps, sequences, the chain -/

/-- The entry step of S0 goes to HOLD, or waits for a proof, or names a step at its maximum. -/
def holdsAfter : State := withStep 0 { heating.tables.step 0 with next := .hold } heating
def unproved : State := withStep 0 { heating.tables.step 0 with proving := some 1 } heating
def jumps : State := dwelt (withStep 0 { heating.tables.step 0 with onTimeout := .goto 5 } heating)
/-- Step 1 calls the PROTECT sequence S4. -/
def calling : State := withStep 1 { heating.tables.step 1 with call := some 4 } heating
/-- S4 at the end of its step over S`l`, which was suspended at step `k`; demand as given. -/
def nested (l k elapsed : Nat) (demand : Bool) : State :=
  let s := dwelt (runningAt 40 heating)
  s.setSeq { s.seq with
    chain := [4, l], demand := demand
    runs := s.seq.runs.set l { s.seqRun l with saved := some { step := k, elapsed := elapsed, allowance := none } } }
/-- The running step's record at its longer bound. -/
def dueRun : Running := { entryRun with elapsed := 3000 }

theorem witness_MinDwellMarkAdvances :
    live.seq.running = none ∧ heating.seq.running = some entryRun ∧ entryRun.markTaken = false ∧
      entryRun.minDwell ≤ entryRun.elapsed ∧
      (heating.setRunning (some { entryRun with markTaken := true })).seq.running
        = some { entryRun with markTaken := true } ∧
      (heating.setRunning (some { entryRun with minDwell := 1 })).seq.running = some { entryRun with minDwell := 1 } ∧
      ({ entryRun with minDwell := 1 } : Running).elapsed < 1 ∧
      unproved.seq.running = some entryRun ∧ unproved.proved 0 = false ∧
      holdsAfter.seq.running = some entryRun ∧ holdsAfter.proved 0 = true ∧ (holdsAfter.tables.step 0).next = .hold ∧
      heating.proved 0 = true ∧ (heating.tables.step 0).next = .step 1 ∧ heating.top = some 0 ∧ heating.phase = .normal ∧
      heating.sized ∧ heating.unwatched ∧ heating.entersQuietly 1 := by decide +kernel
theorem witness_MinDwellMarkAdvances_call :
    calling.seq.running = some entryRun ∧ calling.proved 0 = true ∧ (calling.tables.step 0).next = .step 1 ∧
      calling.seq.chain = [0] ∧ calling.supervisionFails 1 = false ∧ (calling.tables.step 1).call = some 4 ∧
      calling.switchCheck 4 .stepCall = none ∧ calling.phase = .normal ∧ calling.sized ∧ calling.unwatched ∧
      calling.seqEntersQuietly 4 := by decide +kernel
theorem witness_MinDwellMarkAdvances_lone_end :
    let s := dwelt stopping
    s.seq.running = some { entryRun with step := 10, minDwell := 300, maxDwell := 0, elapsed := 300 } ∧
      s.proved 10 = true ∧ (s.tables.step 10).next = .finish ∧ s.seq.chain = [1] ∧ s.noTriggers = true ∧
      s.seq.demand = false ∧ s.phase = .normal ∧ s.sized ∧ s.unwatched := by decide +kernel
theorem witness_MinDwellMarkAdvances_nested_end :
    (∀ s ∈ [nested 0 2 7 true, nested 3 20 7 true, nested 0 2 7 false],
      s.seq.running = some { entryRun with step := 40, maxDwell := 300, elapsed := 300 } ∧ s.proved 40 = true ∧
        (s.tables.step 40).next = .finish ∧ s.noTriggers = true ∧ s.phase = .normal ∧ s.sized ∧ s.unwatched) ∧
    (let s := nested 0 2 7 true
     s.seq.chain = [4, 0] ∧ (s.seqRun 0).saved = some { step := 2, elapsed := 7, allowance := none } ∧
       s.replaceCause 0 = none ∧ (s.tables.seq 0).resumeMode = .restartStep ∧ s.entersQuietly 2) ∧
    (let s := nested 3 20 7 true
     s.seq.chain = [4, 3] ∧ (s.seqRun 3).saved = some { step := 20, elapsed := 7, allowance := none } ∧
       s.replaceCause 3 = none ∧ (s.tables.seq 3).resumeMode = .continueStep ∧ s.supervisionFails 20 = false ∧
       (runningOf (s.tables.step 20) 20 7 none).elapsed < (runningOf (s.tables.step 20) 20 7 none).minDwell ∧
       (runningOf (s.tables.step 20) 20 7 none).maxDwell = 0) ∧
    (let s := nested 0 2 7 false
     s.seq.chain = [4, 0] ∧ (s.tables.seq 0).cls = .heat ∧ s.seq.demand = false ∧ (s.tables.seq 0).stopLink = some 1 ∧
       s.switchCheck 1 .demandOff = none ∧ s.seqEntersQuietly 1) := by decide +kernel
theorem witness_MinDwellMarkAdvances_figures :
    exampleFlue.rWarm ≤ exampleFlue.rCold ∧ exampleFlue.tCold < 51 ∧ 51 < exampleFlue.tWarm ∧
      exampleFlue.tWarm ≤ 500 ∧ exampleFlue.tCold ≤ 50 ∧ 49 < exampleFlue.tCold := by decide +kernel
theorem witness_MaxDwellExpiryActs :
    jumps.seq.running = some dueRun ∧ jumps.top = some 0 ∧ dueRun.maxDwell ≠ 0 ∧ dueRun.hold = false ∧
      dueRun.maxDwell ≤ dueRun.elapsed ∧ (jumps.tables.step 0).onTimeout = .goto 5 ∧ jumps.phase = .normal ∧
      jumps.sized ∧ jumps.unwatched ∧ jumps.entersQuietly 5 ∧ heating.seq.running = some entryRun ∧
      heating.top = some 0 ∧ entryRun.elapsed < entryRun.maxDwell ∧
      (heating.setRunning (some { entryRun with maxDwell := 0 })).top = some 0 := by decide +kernel
theorem witness_TimeoutFaultRecycles :
    let s := dwelt heating
    s.seq.running = some dueRun ∧ s.seq.chain = 0 :: [] ∧ dueRun.maxDwell ≠ 0 ∧ dueRun.hold = false ∧
      dueRun.maxDwell ≤ dueRun.elapsed ∧ (s.tables.step 0).onTimeout = .fault ∧
      (s.tables.step 0).faultClass = .recycle ∧ (s.seqRun 0).recycle + 1 < (s.tables.seq 0).recycleLimit ∧
      (s.tables.seq 0).recoveryLink = some 2 ∧ s.switchCheck 2 .recycle = none ∧ s.locked = false ∧
      s.phase = .normal ∧ s.sized ∧ s.unwatched ∧ s.seqEntersQuietly 2 := by decide +kernel
theorem witness_DemandOnAndRunEnter :
    live.manages 48 ∧ live.phase = .normal ∧ live.seq.chain = [] ∧ live.sized ∧ live.unwatched ∧
      (live.heardFrom 48).switchCheck live.tables.device.startSeq .demand = none ∧
      live.seqEntersQuietly live.tables.device.startSeq ∧ (6 : Byte).toNat < 12 ∧
      (live.heardFrom 48).switchCheck (6 : Byte).toNat .run = none ∧ live.seqEntersQuietly (6 : Byte).toNat := by
  decide +kernel
theorem witness_DemandOnAndRunEnter_refused :
    (∀ s ∈ [fallback, live, heating, service, lockedIdle], s.manages 48 ∧ s.committing = false) ∧
      fallback.phase = .fallback ∧ (∀ s ∈ [live, heating, service, lockedIdle], s.phase = .normal) ∧
      (11 : Byte).toNat < 12 ∧ (plain.seq 11).inUse = false ∧ (plain.seq 0).inUse = true ∧ (plain.seq 0).cls ≠ .service ∧
      (plain.seq 6).inUse = true ∧ (plain.seq 6).cls = .service ∧ 6 ∈ service.seq.chain ∧ 6 ∉ lockedIdle.seq.chain ∧
      lockedIdle.locked = true ∧ 6 ∉ heating.seq.chain ∧ heating.locked = false ∧ heating.seq.chain ≠ [] := by
  decide +kernel
theorem witness_DemandWaitsOrIsCleared :
    heating.manages 48 ∧ heating.committing = false ∧
      ((heating.heardFrom 48).setSeq { (heating.heardFrom 48).seq with demand := true }).demandServed = false ∧
      live.manages 48 ∧ live.heatTop = false ∧ lockedIdle.manages 48 ∧
      (((lockedIdle.heardFrom 48).setSeq { (lockedIdle.heardFrom 48).seq with demand := true }).switchCheck
        lockedIdle.tables.device.startSeq .demand).isSome = true := by decide +kernel
theorem witness_StopLinkEntered :
    heating.manages 48 ∧ heating.seq.chain = 0 :: [] ∧ (heating.tables.seq 0).stopLink = some 1 ∧ heating.sized ∧
      heating.unwatched ∧ heating.seqEntersQuietly 1 ∧ (heating.tables.seq 0).cls = .heat ∧
      (heating.heardFrom 48).switchCheck 1 .demandOff = none ∧ (heating.heardFrom 48).switchCheck 1 .stopLink = none ∧
      service.seq.chain = 6 :: [] ∧ (service.tables.seq 6).cls = .service ∧ (service.tables.seq 6).stopLink = some 1 ∧
      service.manages 48 ∧ (service.heardFrom 48).switchCheck 1 .stopLink = none ∧ service.sized ∧ service.unwatched ∧
      service.seqEntersQuietly 1 := by decide +kernel
/-- S0's stop link replaced. -/
def linked (link : Option Nat) (s : State) : State :=
  { s with tables := { s.tables with seqs := s.tables.seqs.set 0 { s.tables.seq 0 with stopLink := link } } }
/-- S0 runs in a locked part. -/
def heatingLocked : State := heating.setData { heating.fault.data with locked := true }

theorem witness_StopLinkEntered_refused :
    (∀ s ∈ [fallback, live, stopping, heating, heatingLocked, linked none heating, linked (some 11) heating,
        linked (some 2) heating, linked (some 12) heating], s.manages 48 ∧ s.committing = false) ∧
      fallback.phase = .fallback ∧ live.phase = .normal ∧ live.seq.chain = [] ∧ stopping.seq.chain = 1 :: [] ∧
      (stopping.tables.seq 1).cls ≠ .heat ∧ (stopping.tables.seq 1).cls ≠ .service ∧
      (∀ l ∈ [none, some 11, some 2, some 12],
        (linked l heating).seq.chain = 0 :: [] ∧ ((linked l heating).tables.seq 0).cls = .heat ∧
          ((linked l heating).tables.seq 0).stopLink = l) ∧
      (plain.seq 11).inUse = false ∧ (plain.seq 2).inUse = true ∧ (plain.seq 2).cls ≠ .stop ∧
      (plain.seq 1).inUse = true ∧ (plain.seq 1).cls = .stop ∧
      1 ∈ (heating.setSeq { heating.seq with chain := [0, 1] }).seq.chain ∧ 1 ∉ heatingLocked.seq.chain ∧
      heatingLocked.locked = true := by decide +kernel
theorem test_stop_is_refused_with_the_failing_checks_reason :
    [fallback, live, stopping, heatingLocked, linked none heating, linked (some 11) heating, linked (some 2) heating,
        heating.setSeq { heating.seq with chain := [0, 1] }].map
      (fun s => match exec (.stop 48) s with
        | .next t => t = ((s.heardFrom 48).reply 48 (.refused reasonNotInUse [])).arbitrate
            || t = ((s.heardFrom 48).reply 48 (.refused reasonNotPermitted [])).arbitrate
            || t = ((s.heardFrom 48).reply 48 (.refused reasonLocked [])).arbitrate
            || t = ((s.heardFrom 48).reply 48 (.refused reasonActive [])).arbitrate
        | _ => false) = List.replicate 8 true := by decide +kernel
/-- The absence timer at its end. -/
def absent (s : State) : State := s.setGate { s.gate with absence := some 0 }

theorem witness_AbsenceBegins :
    (live.setGate { live.gate with absence := none }).gate.absence ≠ some 0 ∧ live.gate.absence ≠ some 0 ∧
      (absent live).gate.absence = some 0 ∧ (absent live).seq.chain = [] ∧ (absent heating).gate.absence = some 0 ∧
      (absent heating).seq.chain = 0 :: [] ∧ (absent heating).phase = .normal ∧ (absent heating).sized ∧
      (absent heating).unwatched ∧ ((absent heating).tables.seq 0).cls = .heat ∧
      ((absent heating).tables.seq 0).stopLink = some 1 ∧ (absent heating).switchCheck 1 .demandOff = none ∧
      (absent heating).seqEntersQuietly 1 ∧ (absent service).gate.absence = some 0 ∧
      (absent service).seq.chain = 6 :: [] ∧ ((absent service).tables.seq 6).cls = .service ∧
      ((absent service).tables.seq 6).stopLink = some 1 ∧ (absent service).switchCheck 1 .absence = none ∧
      (absent service).phase = .normal ∧ (absent service).sized ∧ (absent service).unwatched ∧
      (absent service).seqEntersQuietly 1 := by decide +kernel

/-! #### Frost -/

theorem witness_DebtAtMark :
    (live.tables.circuit 0).inUse = true ∧ (live.point 1).quality ≠ .good ∧
      (∀ v ∈ [(49 : Int), 50, 51],
        ((live.setPoint 1 (goodAt v)).point (live.tables.circuit 0).point).quality = .good ∧
        ((live.setPoint 1 (goodAt v)).point (live.tables.circuit 0).point).filtered = some v) ∧
      ((live.setPoint 1 (goodAt 49)).markedCircuit 0).last = some (1, .point) ∧
      ((live.setPoint 1 (goodAt 50)).markedCircuit 0).last = some (0, .point) ∧
      (live.markedCircuit 0).last = some (30, .fallback) := by decide +kernel

/-- A circuit's record. -/
def circuitAt (debt : Nat) (stage : Stage) : CircuitRun := { debt := debt, stage := stage, blocked := false, last := none }

/-- One circuit at each row of Table 31, at both sides of the row's bound. -/
theorem witness_DebtAtMark_rows :
    let n := fun (c debt : Nat) (g : Stage) (v : Int) =>
      ((live.setCircuit c (circuitAt debt g)).setPoint (live.tables.circuit c).point (goodAt v)).markedCircuit c
    (n 1 599 .quiet (-1)).debt = 600 ∧ (live.tables.circuit 1).l1 = 600 ∧ (n 1 598 .quiet (-1)).debt = 599 ∧
      (n 0 35999 .circulate 49).debt = 36000 ∧ (live.tables.circuit 0).l2 = 36000 ∧
      (live.tables.circuit 0).tier2 = some 3 ∧ 3 ∉ live.seq.chain ∧ (live.tables.circuit 1).tier2 = none ∧
      (n 0 10 .circulate 100).debt = 0 ∧ (live.tables.circuit 0).tF + (live.tables.circuit 0).margin ≤ 100 ∧
      (n 0 10 .circulate 99).debt = 0 ∧ 99 < (live.tables.circuit 0).tF + (live.tables.circuit 0).margin ∧
      (n 0 11 .circulate 60).debt = 1 ∧
      (n 0 3600 .firingRequested 51).debt = 3599 ∧ (n 0 3600 .firingRequested 50).debt = 3600 ∧
      (live.tables.circuit 0).l1 = 3600 ∧ (n 0 16777215 .firing 49).debt = 16777215 := by decide +kernel
theorem witness_DebtAtMark_on_chain :
    let s := heating.setSeq { heating.seq with chain := [3] }
    3 ∈ s.seq.chain ∧ (s.tables.circuit 0).tier2 = some 3 := by decide +kernel

/-- Circuit F1 one mark before its first limit. -/
def nearLimit : State := live.setCircuit 1 { debt := 580, stage := .quiet, blocked := false, last := none }
/-- Circuit F0 one mark before its request. -/
def nearRequest (s : State) : State := s.setCircuit 0 (circuitAt 35990 .circulate)
/-- S1 runs, F0 about to request S3, F2 about to withdraw. -/
def pendingMark : State :=
  let s := (nearRequest stopping).setCircuit 2 (circuitAt 100 .firingRequested)
  s.setTrigger 3 { Trigger.clear with circuits := Trigger.clear.circuits.set 2 true }
/-- S0 runs and F0's sequence outranks it. -/
def outranking : State :=
  let s := nearRequest heating
  { s with tables := { s.tables with seqs := s.tables.seqs.set 3 { s.tables.seq 3 with priority := 3 } } }

theorem witness_FrostMarkTaken :
    live.phase = .normal ∧ live.sized ∧ movedCircuits live live.markedCircuits = [] ∧
      (∀ c, c < 6 → (live.circuit c).stage ≠ .circulate ∧ (live.circuit c).stage ≠ .firingRequested) ∧
      nearLimit.sized ∧ movedCircuits nearLimit nearLimit.markedCircuits ≠ [] ∧
      (∀ c, c < 6 → (nearLimit.circuit c).stage ≠ .circulate ∧ (nearLimit.circuit c).stage ≠ .firingRequested) ∧
      State.reset.phase = .checking ∧ fallback.phase = .fallback := by decide +kernel
theorem witness_FrostMarkTaken_pending :
    pendingMark.phase = .normal ∧ pendingMark.sized ∧ pendingMark.locked = false ∧ pendingMark.seq.demand = false ∧
      (∀ n, n < 12 → pendingMark.switchCheck n .trigger ≠ none ∧ pendingMark.switchCheck n .trigger ≠ some .active) ∧
      (pendingMark.markedCircuit 0).stage = .firingRequested ∧ (pendingMark.tables.circuit 0).tier2 = some 3 ∧
      (pendingMark.markedCircuit 2).stage = .circulate ∧ (pendingMark.tables.circuit 2).tier2 = some 3 := by
  decide +kernel
theorem witness_FrostMarkTaken_blocked :
    let s := nearRequest lockedIdle
    s.phase = .normal ∧ s.sized ∧ s.locked = true ∧ s.seq.chain = [] ∧ (s.tables.circuit 0).inUse = true ∧
      (s.tables.circuit 0).tier2 = some 3 ∧ (s.circuit 0).stage = .circulate ∧
      (s.markedCircuit 0).stage = .firingRequested ∧ (∀ d, d < 6 → 0 < d → (s.circuit d).stage ≠ .circulate) ∧
      s.fault.data.history.map (·.second) = [none] ∧
      (after .limitOpening purging).fault.data.history.map (·.second) = [some 64] := by decide +kernel
theorem witness_FrostMarkTaken_served :
    outranking.phase = .normal ∧ outranking.sized ∧ outranking.unwatched ∧ outranking.locked = false ∧
      outranking.seq.chain = 0 :: [] ∧ outranking.seq.running = some entryRun ∧
      outranking.seq.triggers = List.replicate 12 Trigger.clear ∧ (outranking.circuit 0).stage = .circulate ∧
      (outranking.markedCircuit 0).stage = .firingRequested ∧ (outranking.tables.circuit 0).inUse = true ∧
      (outranking.tables.circuit 0).tier2 = some 3 ∧
      (∀ d, d < 6 → d ≠ 0 → (outranking.circuit d).stage = .quiet) ∧ outranking.switchCheck 3 .trigger = none ∧
      outranking.seqEntersQuietly 3 := by decide +kernel
theorem witness_FrostMarkTaken_unheeded :
    nearLimit.unheeded ∧ live.unheeded ∧ pendingMark.unheeded ∧ (nearRequest lockedIdle).unheeded :=
  ⟨unheeded_of_idle (by decide +kernel) (by decide +kernel) (by decide +kernel), live_unheeded,
    unheeded_of_running (x := { entryRun with step := 10, minDwell := 300, maxDwell := 0 }) (by decide +kernel)
      (by decide +kernel) (by decide +kernel) (by decide +kernel),
    unheeded_of_idle (by decide +kernel) (by decide +kernel) (by decide +kernel)⟩
theorem witness_FrostMarkTaken_claims :
    (nearRequest live).frostClaim 6 = some 1000 ∧ (nearRequest live).frostClaim 5 = none ∧
      (live.setCircuit 0 { circuitAt 0 .quiet with blocked := true }).frostClaim 7 = some 1000 := by decide +kernel

/-! #### Roles and lines -/

/-- A field role whose three timers stand at their end. -/
def confirming : State :=
  live.setRole 8 { live.role 8 with confirm := some 0, refresh := some 0, heard := some 0, since := true }

theorem witness_FieldRoleTimersExpire :
    confirming.phase = .normal ∧ (confirming.role 8).refresh = some 0 ∧
      (confirming.tables.role 8).target = .field 20 0 ∧ (confirming.role 8).confirm = some 0 ∧
      (confirming.role 8).heard = some 0 ∧ (confirming.role 8).since = true ∧ (fallback.role 8).refresh ≠ some 0 ∧
      (live.role 8).refresh ≠ some 0 ∧ (live.role 11).confirm ≠ some 0 ∧ (live.role 8).heard ≠ some 0 := by
  decide +kernel
theorem witness_FieldRoleTimersExpire_unheeded : confirming.unheeded :=
  unheeded_of_idle (by decide +kernel) (by decide +kernel) (by decide +kernel)

/-- Line `l` settled, its mark as given. -/
def settled (l : Nat) (mark : Bool) : State := live.setLine l { LineRun.reset with mismatch := mark }
/-- Line `l` with its settle run out and its sense state as given. -/
def settling (l : Nat) (sense : Bool) : State := (live.setLine l { LineRun.reset with settle := some 0 }).setSense l sense

theorem witness_ReadbackCompared :
    ∀ l ∈ [0, 7], l < 8 ∧ (settling l false).phase = .normal ∧ (settling l false).sized ∧
      ((settling l false).line l).settle = some 0 ∧ (live.line l).settle ≠ some 0 ∧ (settling l false).sense l = ((settling l false).line l).commanded ∧
      (settling l false).sense l = !true ∧
      (settled l true).sized ∧ ((settled l true).line l).settle = none ∧ (settled l true).sense l = !true ∧
      ((settled l true).line l).mismatch = true := by decide +kernel
theorem witness_ReadbackCompared_unheeded : (settling 7 false).unheeded ∧ (settled 0 true).unheeded :=
  ⟨unheeded_of_idle (by decide +kernel) (by decide +kernel) (by decide +kernel),
    unheeded_of_idle (by decide +kernel) (by decide +kernel) (by decide +kernel)⟩
theorem witness_LineMismatchNoted :
    (∀ l ∈ [3, 7], l < 8 ∧ (settling l true).phase = .normal ∧ (settling l true).sized ∧
      (settling l true).locked = false ∧ ((settling l true).line l).settle = some 0 ∧
      (settling l true).sense l = !((settling l true).line l).commanded ∧ ((settling l true).line l).mismatch = false ∧
      (∀ r, r < 3 → ((settling l true).tables.role r).target ≠ .line l)) := by decide +kernel
theorem witness_LineMismatchNoted_unheeded : (settling 3 true).unheeded ∧ (settling 7 true).unheeded :=
  ⟨unheeded_of_idle (by decide +kernel) (by decide +kernel) (by decide +kernel),
    unheeded_of_idle (by decide +kernel) (by decide +kernel) (by decide +kernel)⟩
/-- Line 0, of fuel role 0, about to be found in disagreement at its settle expiry while S0 runs. -/
def fuelWelded : State := (heating.setLine 0 { LineRun.reset with settle := some 0 }).setSense 0 true
/-- A fuel role ON on an empty chain. -/
def fuelOn : State :=
  live.setRole 0 (RoleRun.recompute { live.role 0 with ctlFilled := true, requested := 1000 })

theorem witness_LineMismatchNoted_safety :
    (fuelWelded.locksQuietly ∧ (fuelWelded.line 0).mismatch = false ∧ (fuelWelded.tables.role 0).target = .line 0 ∧
      (fuelWelded.line 0).settle = some 0 ∧ fuelWelded.sense 0 = !(fuelWelded.line 0).commanded) ∧
    (let s := live.setLine 2 LineRun.reset
     s.locksQuietly ∧ (s.line 2).mismatch = false ∧ (s.tables.role 2).target = .line 2 ∧ s.sense 2 = !true ∧
      (s.line 2).settle = none ∧ true = !(s.line 2).commanded) := by decide +kernel
theorem witness_LimitMoves_lockout :
    (heating.pins.limitClosed = true ∧ heating.locksQuietly ∧ heating.seq.chain ≠ []) ∧
      (fuelOn.pins.limitClosed = true ∧ fuelOn.locksQuietly ∧ (fuelOn.role 0).applied ≠ 0 ∧ fuelOn.seq.chain = []) := by
  decide +kernel
theorem witness_LimitMoves :
    (live.pins.limitClosed = true ∧ live.phase = .normal ∧ live.locked = false ∧ live.seq.chain = [] ∧
      (∀ r, r < 3 → (live.role r).applied = 0) ∧ live.sized ∧ live.appliedLaw ∧
      limitOpen.pins.limitClosed = false ∧ limitOpen.phase = .normal ∧ limitOpen.sized) ∧ live.unheeded ∧
    limitOpen.unheeded :=
  ⟨by decide +kernel, live_unheeded, unheeded_of_idle (by decide +kernel) (by decide +kernel) (by decide +kernel)⟩
theorem witness_SetRoleAnswered :
    (live.manages 48 ∧ live.committing = false ∧ (8 : Byte).toNat < 12 ∧ live.phase = .normal ∧ live.sized ∧
      (live.tables.role 8).ctlAllowed = true ∧ (live.role 8).limit = none ∧ (live.role 8).lockout = none ∧
      (live.role 8).sequence = none ∧ (live.role 8).frost = none ∧ (live.tables.role 8).target = .field 20 0 ∧
      (live.tables.role 7).target = .line 7 ∧ (live.role 7).applied ≠ 1000 ∧
      (heating.manages 48 ∧ heating.sized ∧ heating.appliedLaw ∧ (heating.tables.role 8).ctlAllowed = true ∧
        (heating.role 8).sequence.isSome = true) ∧
      (live.tables.role 0).ctlAllowed = false ∧ (live.tables.role 11).ctlAllowed = false ∧ fallback.manages 48 ∧
      fallback.phase = .fallback) ∧ live.unheeded ∧ heating.unheeded :=
  ⟨by decide +kernel, live_unheeded, heating_unheeded⟩
/-- Role 11 without a target, which the controller may command. -/
def freeRole : State :=
  { live with tables := { plain with roles := plain.roles.set 11 { fieldRole .level 20 0 0 1000 with target := .none } } }

/-- Values that change a field role, a line role and a role without a target, and values that do not. -/
theorem witness_SetRoleAnswered_targets :
    (∀ r ∈ [7, 8], (live.role r).applied = 0 ∧ clampRequest (live.tables.role r) 0 = 0 ∧
        clampRequest (live.tables.role r) 500 ≠ 0) ∧
      (live.line 7).commanded = false ∧ freeRole.manages 48 ∧ (freeRole.tables.role 11).target = .none ∧
      (freeRole.tables.role 11).ctlAllowed = true ∧ (freeRole.role 11).applied = 0 := by decide +kernel
/-- Claims that leave a role's applied value and claims that change it, on a field role, a line and no target, with the owner
above CONTROLLER and not, before and after. -/
theorem witness_SetRoleAnswered_changes :
    (live.sized ∧ heating.sized ∧ (live.tables.role 8).target = .field 20 0 ∧ (live.tables.role 3).target = .line 3 ∧
      (live.tables.role 11).target = .none ∧ (live.role 8).owner = .default ∧ (heating.role 8).owner = .sequence) ∧
    (∀ r ∈ [3, 8, 11], ({ live.role r with frost := some 0 } : RoleRun).claim.2 = (live.role r).applied ∧
      ({ live.role r with frost := some 1000 } : RoleRun).claim.2 ≠ (live.role r).applied ∧
      ({ live.role r with frost := some 1000 } : RoleRun).claim.1 = .frost) ∧
    ({ heating.role 8 with sequence := none } : RoleRun).claim.1 = .default ∧
    ({ heating.role 8 with limit := some 0 } : RoleRun).claim.1 = .limit ∧
    ({ heating.role 8 with lockout := some 0 } : RoleRun).claim.2 ≠ (heating.role 8).applied ∧
    ({ heating.role 8 with sequence := none, ctlFilled := true } : RoleRun).claim = (.controller, 0) := by decide +kernel
/-- FROST claims on roles 8 and 3: the refresh of role 8 starts, and both changes are handed on, the lower first. -/
theorem test_claims_of_one_event :
    let f := fun (r : Nat) (x : RoleRun) => if r = 3 ∨ r = 8 then { x with frost := some 1000 } else x
    let w := applySlots f (Work.idle live)
    w.emitted = [.condWalk (.role 3), .condWalk (.role 8)] ∧ (w.st.role 8).refresh = some 100 ∧
      (w.st.line 3).settle = some 2 ∧ (w.st.slot 8).map Slot.last = some (some 1000) := by decide +kernel
theorem witness_SetRoleAnswered_clamp :
    (live.tables.role 8).ctlMin ≤ (live.tables.role 8).ctlMax ∧ (live.tables.role 8).kind = .level ∧
      (live.tables.role 9).ctlMin ≤ (live.tables.role 9).ctlMax ∧ (live.tables.role 9).kind = .switched := by decide +kernel
theorem witness_LockedOrLimitHoldsFuelOff :
    (purging.phase = .normal ∧ purging.sized ∧ purging.appliedLaw ∧ purging.locked = true) ∧ purging.slotsLaw ∧
      (limitOpen.phase = .normal ∧ limitOpen.sized ∧ limitOpen.appliedLaw ∧ limitOpen.pins.limitClosed = false) ∧
      limitOpen.slotsLaw :=
  ⟨by decide +kernel, fun _ => by decide +kernel, by decide +kernel, fun _ => by decide +kernel⟩

/-! #### Faults, lockout, unlock -/

theorem witness_UnlockConditions :
    live.locked = false ∧ live.manages 48 ∧ live.unlockRefusal = some reasonNotLocked ∧
      (let s := lockedIdle.setData { lockedIdle.fault.data with allowance := 0 }
       s.locked = true ∧ s.fault.data.allowance = 0 ∧ s.manages 48) ∧
      (let s := lockedIdle.setPins { lockedIdle.pins with limitClosed := false }
       s.locked = true ∧ 1 ≤ s.fault.data.allowance ∧ s.pins.limitClosed = false) ∧
      (purging.locked = true ∧ purging.pins.limitClosed = true ∧ purging.seq.chain ≠ []) ∧
      (let s := lockedIdle.setSeq { lockedIdle.seq with purgeDue := true }
       s.seq.chain = [] ∧ s.seq.purgeDue = true) ∧
      (lockedIdle.manages 48 ∧ lockedIdle.committing = false ∧ lockedIdle.unlockRefusal = none ∧
        lockedIdle.serving = true ∧ lockedIdle.unlockActive = false) ∧
      live.serving = true ∧ live.unlockActive = false := by decide +kernel
theorem witness_UnlockAccepted :
    (lockedIdle.unlockRefusal = none ∧ lockedIdle.phase = .normal ∧ lockedIdle.sized ∧ lockedIdle.noTriggers = true ∧
      lockedIdle.seq.demand = false ∧ lockedIdle.manages 48 ∧ lockedIdle.committing = false ∧
      lockedIdle.unlockActive = false) ∧ lockedIdle.unheeded :=
  ⟨by decide +kernel, unheeded_of_idle (by decide +kernel) (by decide +kernel) (by decide +kernel)⟩
theorem witness_RegainAndUnlockInput :
    (live.setFault { live.fault with regain := some 0 }).fault.regain = some 0 ∧ live.fault.regain ≠ some 0 ∧
      lockedIdle.fault.regain ≠ some 0 := by decide +kernel

/-- The fault of S0's step 2. -/
def flameFault : FaultIn := { code := 13, cls := .lockout, seq := some 0, step := some 2, line := none }

theorem witness_LockoutEntry :
    deviceCheck (Work.idle heating).st.tables = true ∧ heating.committing = false ∧
      ({ live with store := { live.store with commit := .writing } } : State).committing = true ∧
      (live.setData { live.fault.data with number := 65535 }).fault.data.number = 65535 := by decide +kernel
/-- S0 with a recovery link and a recycle count, at the end of the dwell of step `k`. -/
def recoveringAt (k : Nat) (link : Option Nat) (count : Nat) : State :=
  let s := dwelt (runningAt k heating)
  { s with tables := { s.tables with seqs := s.tables.seqs.set 0 { s.tables.seq 0 with recoveryLink := link } } }.setRecycle 0 count
/-- The LOCKOUT class; the RECYCLE class with the count before its limit, and before that with no recovery link and with one
that the switch checks refuse. -/
theorem witness_LockoutEntry_exec :
    ∀ x ∈ [recoveringAt 2 (some 2) 0, recoveringAt 4 (some 2) 2, recoveringAt 4 none 1, recoveringAt 4 (some 1) 0],
      x.locksQuietly ∧ x.top = some 0 ∧ 0 < x.seq.runs.length ∧
        (∃ y, x.seq.running = some y ∧ y.maxDwell ≠ 0 ∧ y.hold = false ∧ y.maxDwell ≤ y.elapsed ∧
          (x.tables.step y.step).onTimeout = .fault) := by
  intro x hx
  simp only [List.mem_cons, List.not_mem_nil, or_false] at hx
  rcases hx with rfl | rfl | rfl | rfl
  · exact ⟨by decide +kernel, by decide +kernel, by decide +kernel,
      { entryRun with step := 2, elapsed := 300, maxDwell := 300 }, by decide +kernel⟩
  all_goals exact ⟨by decide +kernel, by decide +kernel, by decide +kernel,
      { entryRun with step := 4, elapsed := 300, maxDwell := 300 }, by decide +kernel⟩
theorem witness_LockoutEntry_classes :
    (plain.step 2).faultClass = .lockout ∧ (plain.step 4).faultClass = .recycle ∧ (plain.seq 0).recycleLimit = 3 ∧
      ((recoveringAt 4 (some 2) 2).seqRun 0).recycle = 2 ∧ ((recoveringAt 4 none 1).seqRun 0).recycle = 1 ∧
      ((recoveringAt 4 none 1).tables.seq 0).recoveryLink = none ∧
      ((recoveringAt 4 (some 1) 0).tables.seq 0).recoveryLink = some 1 ∧
      (recoveringAt 4 (some 1) 0).switchCheck 1 .recycle = some .notPermitted ∧
      (recoveringAt 4 (some 2) 1).switchCheck 2 .recycle = none := by decide +kernel
theorem witness_FaultWhileLocked :
    (Work.idle purging).st.locked = true ∧ purging.fault.data.history.map (·.second) = [none] ∧
      (after .limitOpening purging).locked = true ∧
      (after .limitOpening purging).fault.data.history.map (·.second) = [some 64] := by decide +kernel

/-! #### Trace, store, management -/

theorem witness_TraceReleased :
    live.manages 48 ∧ (1 : Byte).toNat < 2 ∧ live.trace.ready 1 = false ∧
      (let t : TraceUnit := { TraceUnit.reset with pos := 256, ready0 := true }
       t.ready 0 = true ∧ t.hold = false) ∧
      (let t : TraceUnit := { TraceUnit.reset with pos := 256, ready0 := true, ready1 := true, hold := true }
       t.ready 1 = true ∧ t.hold = true ∧ halfOf t.pos = 1 ∧ halfOf t.pos ≠ 0 ∧ t.gap = 0 ∧ t.opened = none) := by
  decide +kernel
/-- The Trace Unit at `pos` with a record open, in HOLD or not; the other half waits. -/
def tracing (pos gap : Nat) (hold : Bool) (ended : Option Nat) : State :=
  heating.setTrace { TraceUnit.reset with
    pos := pos, ready0 := decide (256 ≤ pos) || hold, ready1 := decide (pos < 256) || hold, hold := hold, gap := gap
    gapAt := 3, counter := 9, opened := some { number := 8, seq := 0, start := 0, count := 5, ended := ended } }

theorem witness_TraceReleased_writes :
    (Work.idle live).st.trace.opened = none ∧
      (∀ x ∈ [(0, false), (254, false), (255, false), (256, true), (511, false)],
        (Work.idle (tracing x.1 0 x.2 none)).st.trace.pos = x.1 ∧ (tracing x.1 0 x.2 none).trace.hold = x.2 ∧
          (tracing x.1 0 x.2 none).trace.mem.length = 512 ∧ (tracing x.1 0 x.2 none).trace.pos < 512 ∧
          (tracing x.1 0 x.2 none).trace.opened
            = some { number := 8, seq := 0, start := 0, count := 5, ended := none }) ∧
      (tracing 256 0 true (some 7)).trace.opened
        = some { number := 8, seq := 0, start := 0, count := 5, ended := some 7 } ∧
      (tracing 255 0 false none).trace.ready0 = false ∧ (tracing 511 0 false none).trace.ready1 = false ∧
      (live.tables.seq 0).trace = true ∧ live.trace.opened = none ∧ (live.tables.seq 1).trace = false ∧
      ((Work.idle (tracing 254 0 false none)).traceFinish.st.trace.mem.drop 253).take 4
        = [TraceEntry.empty, { kind := .finish 6, record := 8, offset := 0 },
           { kind := .empty, record := 8, offset := 0 }, TraceEntry.empty] := by decide +kernel
theorem witness_TraceReleased_resumes :
    ∀ x ∈ [(0, (0 : Byte), (none : Option Nat)), (9, 0, none), (0, 1, some 7), (9, 1, some 7)],
      let s := tracing (256 * x.2.1.toNat) x.1 true x.2.2
      s.manages 48 ∧ x.2.1.toNat < 2 ∧ s.trace.ready x.2.1.toNat = true ∧ s.trace.hold = true ∧
        s.trace.pos = 256 * x.2.1.toNat ∧ s.trace.gap = x.1 ∧ s.sized ∧
        s.trace.opened = some { number := 8, seq := 0, start := 0, count := 5, ended := x.2.2 } := by decide +kernel
theorem test_traceRelease_writes_a_kept_end : ends (fun t => t.trace.opened.isNone && t.trace.pos = 0 && t.trace.hold
    && (t.trace.mem.drop 256).take 3 = [{ kind := .gap 9, record := 8, offset := 3 },
      { kind := .finish 5, record := 8, offset := 7 }, { kind := .empty, record := 8, offset := 7 }])
    (exec (.traceRelease 48 1) (tracing 256 9 true (some 7))) = true := by decide +kernel
theorem witness_PersistenceWriteCompletes :
    live.store.write = none ∧ State.reset.store.write = some { target := 0, copy := copyOf 0 } ∧
      State.reset.store.commit ≠ .waiting ∧ State.reset.store.again = true ∧
      Store.newer { image := none, copy0 := some (copyOf 0), copy1 := none, write := none, again := true, commit := .none }
        = some (0, copyOf 0) ∧
      (after (.commit 48) fallback).store.commit = .none ∧
      (after (.commit 48) { live with store := State.reset.store }).store.commit = .waiting := by decide +kernel
theorem witness_CommitCompletes :
    live.store.commit ≠ .writing ∧ (after (.commit 48) live).store.commit = .writing ∧ live.seq.purgeDue = false ∧
      live.seq.demand = false ∧ live.staging.sized ∧ (live.staging.role 8).target = .field 20 0 ∧
      ∀ r l, r < 12 → (live.staging.role r).target = .line l → l < 8 := by
  refine ⟨by decide +kernel, by decide +kernel, by decide +kernel, by decide +kernel, by decide +kernel,
    by decide +kernel, lines_below_eight (by decide +kernel)⟩
theorem witness_ImageCheckEnds :
    live.phase ≠ .checking ∧ State.reset.phase = .checking ∧ State.reset.store.image = none ∧
      State.reset.locked = false ∧ State.reset.trace.opened = none ∧
      ({ State.reset with store := storeOf plain } : State).store.image = some plain ∧ plain.sized ∧
      ∀ r l, r < 12 → (plain.role r).target = .line l → l < 8 := by
  refine ⟨by decide +kernel, by decide +kernel, by decide +kernel, by decide +kernel, by decide +kernel,
    by decide +kernel, by decide +kernel, lines_below_eight (by decide +kernel)⟩
/-- A commit under committed tables and one in fallback mode, a mark under the same role and one whose line has lost its role,
a controller address that changes and one that does not. -/
theorem witness_CommitCompletes_roles :
    let s := { live with staging := full, store := { live.store with commit := .writing } }
    let moved := { full with device := { full.device with ctlAddr := 49 } }
    s.store.commit = .writing ∧ s.seq.purgeDue = false ∧ s.seq.demand = false ∧ full.sized ∧ s.phase = .normal ∧
      (full.role 8).ctlAllowed = true ∧ (full.role 0).ctlAllowed = false ∧ fallback.phase ≠ .normal ∧
      (full.role 11).target = .none ∧ s.tables.roleOfLine 7 = some 7 ∧ full.roleOfLine 7 = some 7 ∧
      fallback.tables.roleOfLine 7 = none ∧ s.gate.present = true ∧ full.device.ctlAddr = s.tables.device.ctlAddr ∧
      moved.device.ctlAddr ≠ s.tables.device.ctlAddr := by decide +kernel
/-- Roles on both sides of what LIMIT and the lockout state claim, with and without a field target, and a line of no role. -/
theorem witness_ImageCheckEnds_roles :
    let s := { State.reset with store := storeOf plain, pins := { Pins.initial with limitClosed := false }
                                fault := { State.reset.fault with data := { LockoutData.initial with locked := true } } }
    s.phase = .checking ∧ s.store.image = some plain ∧ s.pins.limitClosed = false ∧ s.locked = true ∧
      ((List.range 12).map fun r => ((s.activated plain).role r).limit)
        = [some 0, some 0, some 0, none, none, none, none, none, none, none, none, none] ∧
      ((List.range 12).map fun r => ((s.activated plain).role r).lockout)
        = [some 0, some 0, some 0, none, some 0, none, none, some 1000, none, none, none, none] ∧
      (plain.role 8).target = .field 20 0 ∧ (plain.role 11).target = .none ∧ plain.roleOfLine 7 = some 7 ∧
      Tables.initial.roleOfLine 7 = none := by decide +kernel
theorem witness_ResetAndPowerLoss :
    3 < 4 ∧ unpowered.phase = .off ∧ unpowered.resetStore.newer = some (1, copyOf 1) ∧
      (after .powerLoss State.reset).resetStore.newer = none ∧ live.phase ≠ .off ∧ live.store.commit = .none ∧
      (after (.commit 48) live).store.commit ≠ .none ∧ live.store.write = none ∧
      State.reset.store.write = some { target := 0, copy := copyOf 0 } ∧
      (after .persistenceWriteComplete State.reset).store.write = some { target := 1, copy := copyOf 1 } := by
  decide +kernel
theorem witness_LoadStagesEntries :
    live.manages 48 ∧ live.committing = false ∧
      readLoad 0 23 2 [11, 1, 1, 252, 24, 7, 208, 1] = some (.load .point (23 : Byte).toNat 0 [11, 1, 1, 252, 24, 7, 208, 1]) ∧
      0 + 1 < TableKind.point.partLengths.length ∧
      readLoad 0 23 18 [252, 124, 3, 132, 0, 5] = some (.load .point (23 : Byte).toNat 1 [252, 124, 3, 132, 0, 5]) ∧
      live.assembly = none ∧ TableKind.point.partLengths.length ≤ 1 + 1 ∧
      (stageEntry live.staging .point 23 [11, 1, 1, 252, 24, 7, 208, 1, 252, 124, 3, 132, 0, 5]).isSome = true ∧
      stageEntry live.staging .point 23 [11, 1, 1, 252, 24, 7, 208, 1, 252, 124, 3, 132, 0, 0] = none := by decide +kernel
/-- An unread index byte above its range is turned away, and NONE is not (R169, log 55); a read one may not be NONE. -/
theorem test_load_of_unread_condition_fields :
    let entry := fun (kind point role a : Byte) => stageEntry plain .condition 31 [kind, point, 0, 0, 0, 0, 0, role, a, 0, 0, 0, 1]
    (entry 6 200 0 0).isNone = true ∧ (entry 6 0 12 0).isNone = true ∧ (entry 6 0 0 32).isNone = true ∧
      (entry 6 255 255 255).isSome = true ∧ (entry 6 23 11 31).isSome = true ∧ (entry 0 255 0 0).isNone = true := by
  decide +kernel
/-- A place that the entry does not use, and one that it does, at the ends of the places that Table 44 lays out. -/
theorem witness_LoadStagesEntries_places :
    plain.sized ∧ (stageEntry plain .role 11 [0, 0, 9, 9, 0, 1, 0, 0, 0, 0, 0]).isSome = true ∧
      unusedPlace .role [0, 0, 9, 9, 0, 1, 0, 0, 0, 0, 0] 2 ∧ ¬ unusedPlace .role [0, 0, 9, 9, 0, 1, 0, 0, 0, 0, 0] 4 ∧
      ¬ unusedPlace .role [0, 2, 9, 9, 0, 1, 0, 0, 0, 0, 0] 3 ∧
      (stageEntry plain .step 95 (entryBytes full .step 6)).isSome = true ∧
      unusedPlace .step (entryBytes full .step 6) 40 ∧ ¬ unusedPlace .step (entryBytes full .step 6) 39 ∧
      (stageEntry plain .circuit 5 (entryBytes full .circuit 0)).isSome = true ∧
      unusedPlace .circuit (entryBytes full .circuit 0) 16 ∧ ¬ unusedPlace .circuit (entryBytes full .circuit 0) 13 := by
  simp only [unusedPlace]
  decide +kernel
theorem witness_ResetAndPowerLoss_idle_store :
    live.phase ≠ .off ∧ live.store.write = none ∧ live.store.commit = .none ∧ live.store.again = false := by decide +kernel
theorem witness_StagedEntriesRoundTrip :
    plain.sized ∧ ∀ x ∈ [(TableKind.point, 23, 10), (.condition, 31, 0), (.flue, 0, 0), (.step, 95, 6), (.sequence, 11, 0),
      (.circuit, 5, 0), (.role, 11, 8), (.device, 0, 0)],
      (stageEntry plain x.1 x.2.1 (entryBytes full x.1 x.2.2)).isSome = true := by decide +kernel
/-- Entries of the example installation are in their ranges, for every kind. -/
theorem witness_StagedEntriesRoundTrip_ranges :
    full.entryOk .point 10 ∧ full.entryOk .condition 9 ∧ full.entryOk .condition 5 ∧ full.entryOk .flue 0 ∧
      full.entryOk .sequence 0 ∧ full.entryOk .circuit 0 ∧ full.entryOk .device 0 := by
  refine ⟨?_, ?_, ?_, ?_, ?_, ?_, ?_⟩
  · show (full.point 10).ok; decide +kernel
  · show (full.cond 9).ok; decide +kernel
  · show (full.cond 5).ok; decide +kernel
  · show full.flue.ok; decide +kernel
  · show (full.seq 0).ok; decide +kernel
  · show (full.circuit 0).ok; decide +kernel
  · show full.device.ok; decide +kernel
theorem witness_StagedEntriesRoundTrip_targets :
    full.entryOk .step 0 ∧ full.entryOk .step 6 ∧ full.entryOk .role 7 ∧ full.entryOk .role 8 ∧ full.entryOk .role 11 := by
  have next : (full.step 0).next = .step 1 ∧ (full.step 6).next = .hold := by decide +kernel
  have timeout : (full.step 0).onTimeout = .fault ∧ (full.step 6).onTimeout = .none := by decide +kernel
  have target : (full.role 7).target = .line 7 ∧ (full.role 8).target = .field 20 0 ∧ (full.role 11).target = .none := by
    decide +kernel
  simp only [Tables.entryOk, StepEntry.ok, RoleEntry.ok, next, timeout, target]
  decide +kernel
theorem witness_StagedEntriesRoundTrip_layouts :
    (full.step 6).outputs.length = 12 ∧ (full.step 6).supervision.length ≤ 4 ∧ (full.seq 0).tracePoints.length ≤ 4 ∧
      (List.replicate 4 (Supervision.mk 0 true true)).length ≤ 4 ∧ (full.seq 1).tracePoints = [] := by decide
theorem witness_ReadsAnswer :
    heating.manages 48 ∧ readRead 1 6 8 1 = some (.read true .role 8 1) ∧ readRead 0 3 95 2 = some (.read false .step 95 2) ∧
      (12 : Byte).toNat < 13 ∧ 1 ≤ (4 : Byte).toNat ∧ (508 : Word).toNat + (4 : Byte).toNat ≤ 512 := by decide +kernel
/-- The layouts' own conditions: a full window and an empty one, the top of a chain and the member beneath it, a fault record
and none, a history entry and none, the ends of a signed field, the last trace entry. -/
theorem witness_ReadsAnswer_layouts :
    (heating.flue.window.length ≤ 8 ∧ (windowOf (List.replicate 8 150)).window.length ≤ 8) ∧
      heating.seq.chain = [] ++ 0 :: [] ∧ [4, 0] = [4] ++ 0 :: [] ∧ 0 ∉ [4] ∧ 1 ∉ heating.seq.chain ∧
      heating.seq.chain.length ≤ 4 ∧ heating.seq.chain.Nodup ∧ heating.fault.record = none ∧
      purging.fault.record.isSome = true ∧ purging.fault.data.history[0]?.isSome = true ∧
      purging.fault.data.history[1]? = none ∧ heating.fault.data.history[5]? = none ∧
      (0 ≤ (32767 : Int) ∧ (-32768 : Int) < 0) ∧ 508 + 3 < heating.trace.mem.length ∧
      (1 < TableKind.point.partLengths.length) := by decide +kernel
/-- The top of the chain and the member beneath on page 0, and a SAMPLE entry of P5 at -1. -/
theorem test_status_page_and_trace_entry :
    statusPage heating 0 = [1, 0, 0x0E, 1, 0, 0, 0, 0, 0] ++ (List.replicate 3 [255, 255, 0, 0, 0]).flatten ∧
      traceBytes { kind := .sample 5 (-1), record := 7, offset := 258 } = [0x45, 7, 1, 2, 255, 255] := by decide +kernel
theorem witness_DiscardAndCommitAnswered :
    heating.manages 48 ∧ heating.committing = false ∧ heating.seq.chain ≠ [] ∧ live.manages 48 ∧ live.seq.chain = [] ∧
      crossCheck live.staging = none ∧ crossCheck Tables.initial = some (.flue, 0) ∧ fallback.seq.chain = [] ∧
      fallback.manages 48 ∧ fallback.staging = Tables.initial := by decide +kernel
/-- The first failing entry is named, kind by kind in the order of R165, when all eight kinds fail. -/
theorem test_cross_checks_are_made_in_order :
    let twice : Tables := { full with points := full.points.set 23 (full.point 0) }
    let pointless : Tables := { full with conds := full.conds.set 31 { full.cond 0 with point := 23 } }
    let lineless : Tables := { full with roles := full.roles.set 1 RoleEntry.initial }
    let unlinked : Tables := { full with seqs := full.seqs.set 0 { full.seq 0 with recoveryLink := none } }
    crossCheck twice = some (.point, 23) ∧ crossCheck pointless = some (.condition, 31) ∧
      crossCheck { full with flue := { full.flue with dReq := 30 } } = some (.flue, 0) ∧
      crossCheck lineless = some (.role, 1) ∧
      crossCheck { full with steps := full.steps.set 95 { full.step 4 with maxDwell := 0 } } = some (.step, 95) ∧
      crossCheck unlinked = some (.sequence, 0) ∧
      crossCheck { full with device := { full.device with startSeq := 1 } } = some (.device, 0) ∧
      crossCheck { full with circuits := full.circuits.set 5 { exampleCircuits.getD 0 CircuitEntry.initial with tier2 := some 0 } }
        = some (.circuit, 5) ∧
      crossCheck { unlinked with roles := lineless.roles, conds := pointless.conds, points := twice.points } = some (.point, 23) ∧
      crossCheck { unlinked with roles := lineless.roles } = some (.role, 1) := by decide +kernel

end Sys2Proof.Tests
end

section
/-! SUPPORT. The Flue Unit's values (chapter 3): the draught window and its two values, the spill comparison, a sample of the
rise test, which point drives which value, and what is handed on; with them O22 is settled. -/

namespace Sys2Proof.Machine

/-! ### The draught window (R42) -/

/-- The two branches of the window are one: what is dropped is what exceeds seven before the reading. -/
theorem windowAppend_eq_drop (w : List Int) (v : Int) : windowAppend w v = (w ++ [v]).drop (w.length - 7) := by
  have dropped_of_w : w.length - 7 ≤ w.length := Nat.sub_le _ _
  rw [List.drop_append_of_le_length dropped_of_w, windowAppend]
  split
  · rfl
  · next short =>
    have nothing : w.length - 7 = 0 := by omega
    rw [nothing, List.drop_zero]

theorem windowAppend_length_le (w : List Int) (v : Int) : (windowAppend w v).length ≤ 8 := by
  rw [windowAppend_eq_drop, List.length_drop, List.length_append, List.length_singleton]
  omega

/-! ### FLUE_DRAUGHT and FLUE_BLOCKED (R44, R45) -/

/-- Both values judge some values of a window that holds enough of them: TRUE when all pass, FALSE when one does not. -/
theorem judged_eq_yes_iff {held needed : Nat} {values : List Int} {passes : Int → Bool} :
    (if held < needed then Tri.unknown else if values.all passes then .yes else .no) = .yes
      ↔ needed ≤ held ∧ ∀ v ∈ values, passes v = true := by
  split
  · next short => simp only [reduceCtorEq, false_iff]; omega
  · next full => simp [Nat.le_of_not_lt full]

theorem judged_eq_no_iff {held needed : Nat} {values : List Int} {passes : Int → Bool} :
    (if held < needed then Tri.unknown else if values.all passes then .yes else .no) = .no
      ↔ needed ≤ held ∧ ∃ v ∈ values, passes v = false := by
  split
  · next short => simp only [reduceCtorEq, false_iff]; omega
  · next full => simp [Nat.le_of_not_lt full]

section
variable {rec : FlueRecord} {w : List Int}

theorem draughtValue_of_short (h : w.length < 8) : draughtValue rec w = .unknown := if_pos h

theorem draughtValue_eq_yes_iff : draughtValue rec w = .yes ↔ 8 ≤ w.length ∧ ∀ v ∈ w, (rec.dReq : Int) ≤ v :=
  judged_eq_yes_iff.trans (by simp only [decide_eq_true_eq])

theorem draughtValue_eq_no_iff : draughtValue rec w = .no ↔ 8 ≤ w.length ∧ ∃ v ∈ w, v < (rec.dReq : Int) :=
  judged_eq_no_iff.trans (by simp only [decide_eq_false_iff_not, Int.not_le])

theorem blockedValue_of_short (h : w.length < 4) : blockedValue rec w = .unknown := if_pos h

theorem blockedValue_eq_yes_iff :
    blockedValue rec w = .yes ↔ 4 ≤ w.length ∧ ∀ v ∈ w.drop (w.length - 4), v < (rec.dBlock : Int) :=
  judged_eq_yes_iff.trans (by simp only [decide_eq_true_eq])

theorem blockedValue_eq_no_iff :
    blockedValue rec w = .no ↔ 4 ≤ w.length ∧ ∃ v ∈ w.drop (w.length - 4), (rec.dBlock : Int) ≤ v :=
  judged_eq_no_iff.trans (by simp only [decide_eq_false_iff_not, Int.not_lt])

/-- The newest value of a window is at least `D_req` in a proved draught and below `D_block` in a blocked flue. -/
theorem not_draught_and_blocked (h : rec.dBlock < rec.dReq) :
    ¬ (draughtValue rec w = .yes ∧ blockedValue rec w = .yes) := by
  rintro ⟨draught, blocked⟩
  obtain ⟨full, atLeast⟩ := draughtValue_eq_yes_iff.1 draught
  obtain ⟨-, below⟩ := blockedValue_eq_yes_iff.1 blocked
  have nonempty : w.drop (w.length - 4) ≠ [] := by
    rw [Ne, List.drop_eq_nil_iff]
    omega
  obtain ⟨v, hv⟩ := List.exists_mem_of_ne_nil _ nonempty
  have reached := atLeast v (List.mem_of_mem_drop hv)
  have missed := below v hv
  omega

end

/-! ### An event of the draught point (R42, R43) -/

section
variable (rec : FlueRecord) (good : Bool) (sample : Option Int) (f : FlueRun)

theorem draughtInput_window_lost : (draughtInput rec false none f).window = [] := rfl

theorem draughtInput_window_kept : (draughtInput rec true none f).window = f.window := rfl

theorem draughtInput_window_reading (v : Int) :
    (draughtInput rec true (some v) f).window = (f.window ++ [v]).drop (f.window.length - 7) :=
  windowAppend_eq_drop f.window v

theorem draughtInput_window_length_le (h : f.window.length ≤ 8) : (draughtInput rec good sample f).window.length ≤ 8 := by
  cases sample with
  | some v => exact windowAppend_length_le _ v
  | none =>
    cases good with
    | true => exact h
    | false => exact Nat.zero_le 8

end

/-! ### FLUE_SPILL (R46) -/

theorem spillValue_of_missing (rec : FlueRecord) {spill room : Option Int} (h : spill = none ∨ room = none) :
    spillValue rec spill room = .unknown := by
  obtain rfl | rfl := h
  · rfl
  · cases spill <;> rfl

theorem spillValue_of_reached {rec : FlueRecord} {x y : Int} (h : (rec.sDelta : Int) ≤ x - y) :
    spillValue rec (some x) (some y) = .yes := if_pos h

theorem spillValue_of_missed {rec : FlueRecord} {x y : Int} (h : x - y < (rec.sDelta : Int)) :
    spillValue rec (some x) (some y) = .no := if_neg (Int.not_le.2 h)

/-! ### A sample of the rise test (R50) -/

theorem riseSample_of_not_armed (sample : Option Int) {f : FlueRun} (h : f.rise ≠ .armed) : riseSample sample f = f := by
  unfold riseSample
  split
  · next armed _ _ => exact absurd armed h
  · rfl

theorem riseSample_none (f : FlueRun) : riseSample none f = f := by
  unfold riseSample
  split
  · next noSample _ _ => cases noSample
  · rfl

/-- An armed test with its baseline and requirement compares the rise with the requirement. -/
theorem riseSample_armed {f : FlueRun} {b : Int} {q : Nat} (v : Int) (armed : f.rise = .armed) (hb : f.baseline = some b)
    (hq : f.required = some q) :
    riseSample (some v) f = if (q : Int) ≤ v - b then { f with rise := .passed, riseTimer := none } else f := by
  simp only [riseSample, armed, hb, hq]

/-! ### Which point drives which value (R14, R41) -/

/-- The Flue Unit's runtime after the draught point's part in an event of point `p`. -/
def windowMoved (s : State) (p : Nat) (sample : Option Int) : FlueRun :=
  if s.tables.flue.draughtPt = some p then
    draughtInput s.tables.flue (decide ((s.point p).quality = .good)) sample s.flue
  else s.flue

/-- The Flue Unit's runtime `f` after the flue point's part in an event of point `p`. -/
def testSampled (s : State) (p : Nat) (sample : Option Int) (f : FlueRun) : FlueRun :=
  if s.tables.flue.fluePt = some p then riseSample sample f else f

/-- FLUE_SPILL after an event of point `p`. -/
def spillFollowed (s : State) (p : Nat) : Tri :=
  if s.tables.flue.spillPt = some p ∨ s.tables.flue.roomPt = some p then
    spillValue s.tables.flue (s.goodPoint s.tables.flue.spillPt) (s.goodPoint s.tables.flue.roomPt)
  else s.flue.spill

section
variable {s : State} {p : Nat} {sample : Option Int}

theorem windowMoved_of_draughtPt (h : s.tables.flue.draughtPt = some p) :
    windowMoved s p sample
      = draughtInput s.tables.flue (decide ((s.point p).quality = .good)) sample s.flue := if_pos h

theorem windowMoved_of_other (h : s.tables.flue.draughtPt ≠ some p) : windowMoved s p sample = s.flue := if_neg h

theorem testSampled_of_fluePt {f : FlueRun} (h : s.tables.flue.fluePt = some p) :
    testSampled s p sample f = riseSample sample f := if_pos h

theorem testSampled_of_other {f : FlueRun} (h : s.tables.flue.fluePt ≠ some p) : testSampled s p sample f = f := if_neg h

end

section
variable (s : State) (p : Nat) (sample : Option Int)

/-- The draught point's part moves the window and its two values only. -/
theorem windowMoved_frame :
    windowMoved s p sample = { s.flue with
      window := (windowMoved s p sample).window, draught := (windowMoved s p sample).draught
      blocked := (windowMoved s p sample).blocked } := by
  unfold windowMoved
  split <;> rfl

/-- The draught point's part writes nothing that the test reads. -/
theorem testSampled_windowMoved :
    testSampled s p sample (windowMoved s p sample) = { windowMoved s p sample with
      rise := (testSampled s p sample s.flue).rise, riseTimer := (testSampled s p sample s.flue).riseTimer } := by
  rw [windowMoved_frame]
  unfold testSampled
  split
  · exact riseSample_agrees sample _ s.flue rfl rfl rfl rfl
  · rfl

/-- The parts of the points do not meet: each writes its own fields, as if it were alone. -/
theorem flueAfter_eq :
    flueAfter s p sample = { windowMoved s p sample with
      rise := (testSampled s p sample s.flue).rise, riseTimer := (testSampled s p sample s.flue).riseTimer
      spill := spillFollowed s p } := by
  have applied : flueAfter s p sample =
      if s.tables.flue.spillPt = some p ∨ s.tables.flue.roomPt = some p then
        spillInput s (testSampled s p sample (windowMoved s p sample))
      else testSampled s p sample (windowMoved s p sample) := rfl
  rw [applied, testSampled_windowMoved, windowMoved_frame, spillFollowed]
  split <;> rfl

end

/-! ### What is handed on (R40, R41) -/

theorem actFlueInput_of_not_normal (p : Nat) (sample : Option Int) {w : Work} (h : w.st.phase ≠ .normal) :
    actFlueInput p sample w = w := by
  simp [actFlueInput, State.normal, h]

theorem actFlueInput_of_normal (p : Nat) (sample : Option Int) {w : Work} (h : w.st.phase = .normal) :
    actFlueInput p sample w = w.setFlue (flueAfter w.st p sample) := by
  simp [actFlueInput, State.normal, h]

theorem Work.setFlue_of_same {w : Work} {f : FlueRun} (h : flueChanges w.st.flue f = []) :
    w.setFlue f = w.withSt (w.st.setFlue f) := by
  simp [Work.setFlue, h]

theorem Work.setFlue_of_changed {w : Work} {f : FlueRun} (h : flueChanges w.st.flue f ≠ []) :
    w.setFlue f = (w.withSt (w.st.setFlue f)).emit [.condWalk (.flue (flueChanges w.st.flue f))] := by
  simp [Work.setFlue, h]

/-! ### O22 -/

/-- Settles O22: the window and its two values, the spill comparison, the rise sample, the point that drives each value, and
the hand-off of those that changed. -/
theorem draughtAndBlockedValues : Obligations.DraughtAndBlockedValues := by
  refine ⟨fun rec good sample f => ?window, ⟨rfl, rfl, rfl⟩, fun rec spill room => ?spill, fun sample f => ?rise,
    fun s p sample => ?points, fun p sample w => ?handedOn⟩
  case window =>
    refine ⟨?lost, ?reading, ?kept, draughtValue_of_short, fun full h => draughtValue_eq_yes_iff.2 ⟨full, h⟩,
      fun full h => draughtValue_eq_no_iff.2 ⟨full, h⟩, blockedValue_of_short,
      fun full h => blockedValue_eq_yes_iff.2 ⟨full, h⟩, fun full h => blockedValue_eq_no_iff.2 ⟨full, h⟩,
      not_draught_and_blocked, draughtInput_window_length_le rec good sample f⟩
    case lost => rintro rfl rfl; exact draughtInput_window_lost rec f
    case reading => rintro v rfl rfl; exact draughtInput_window_reading rec f v
    case kept => rintro rfl rfl; exact draughtInput_window_kept rec f
  case spill =>
    refine ⟨spillValue_of_missing rec, ?_⟩
    rintro x y rfl rfl
    exact ⟨spillValue_of_reached, spillValue_of_missed⟩
  case rise =>
    refine ⟨?unsampled, ?compared⟩
    case unsampled =>
      rintro (idle | rfl)
      · exact riseSample_of_not_armed sample idle
      · exact riseSample_none f
    case compared =>
      rintro v b q armed rfl hb hq
      rw [riseSample_armed v armed hb hq]
      exact ⟨fun reached => if_pos reached, fun missed => if_neg (Int.not_le.2 missed)⟩
  case points =>
    intro rec' good window test f
    have fields : f = _ := flueAfter_eq s p sample
    rw [fields]
    refine ⟨?frame, fun draught => ?moved, fun other => ?unmoved, fun flue => ?sampled, fun other => ?unsampled,
      fun either => if_pos either, fun spill room => if_neg (not_or.2 ⟨spill, room⟩)⟩
    case frame => rw [windowMoved_frame]
    case moved => rw [windowMoved_of_draughtPt draught]; exact ⟨rfl, rfl, rfl⟩
    case unmoved => rw [windowMoved_of_other other]; exact ⟨rfl, rfl, rfl⟩
    case sampled => rw [testSampled_of_fluePt flue]; exact ⟨rfl, rfl⟩
    case unsampled => rw [testSampled_of_other other]; exact ⟨rfl, rfl⟩
  case handedOn =>
    intro f changed
    have handed (k : FlueKind) : k ∈ flueChanges w.st.flue f ↔ changed k := by
      rw [mem_flueChanges]
      cases k <;> rfl
    refine ⟨actFlueInput_of_not_normal p sample, fun normal same => ?_, fun normal ⟨k, hk⟩ => ?_⟩
    · rw [actFlueInput_of_normal p sample normal]
      exact Work.setFlue_of_same (List.eq_nil_iff_forall_not_mem.2 fun k hk => same k ((handed k).1 hk))
    · rw [actFlueInput_of_normal p sample normal]
      exact ⟨_, handed, Work.setFlue_of_changed (List.ne_nil_of_mem ((handed k).2 hk))⟩

end Sys2Proof.Machine
end

section
/-! SUPPORT. A frost circuit at a mark (chapter 6): the value its deficit comes from, the debt after it, the rows of Table 31
one by one, and the fields of a circuit in use after a mark; with them O31 is settled. -/

namespace Sys2Proof.Machine

/-! ### The value of a circuit's point -/

theorem goodPoint_eq_some_iff {s : State} {i : Nat} {f : Int} :
    s.goodPoint (some i) = some f ↔ (s.point i).quality = .good ∧ (s.point i).filtered = some f :=
  Option.ite_none_right_eq_some

theorem goodPoint_of_not_good {s : State} {i : Nat} (h : (s.point i).quality ≠ .good) : s.goodPoint (some i) = none :=
  if_neg h

/-! ### Deficit and debt (R102) -/

theorem deficit_of_value (e : CircuitEntry) (f : Int) : deficit e (some f) = (e.tF - f, .point) := rfl

theorem deficit_of_none (e : CircuitEntry) : deficit e none = ((e.dFb : Int), .fallback) := rfl

theorem debtAfter_of_pos (debt : Nat) {d : Int} (h : 0 < d) : (debtAfter debt d : Int) = min (debt + d) 16777215 := by
  rw [debtAfter, if_pos h, debtLimit]
  omega

theorem debtAfter_of_nonpos (debt : Nat) {d : Int} (h : d ≤ 0) : (debtAfter debt d : Int) = max (debt + d) 0 := by
  rw [debtAfter, if_neg (Int.not_lt.2 h)]
  omega

/-! ### The rows of Table 31 (R103) -/

theorem warmEnough_iff (e : CircuitEntry) (v : Option Int) :
    warmEnough e v = true ↔ ∃ f, v = some f ∧ e.tF + e.margin ≤ f := by
  cases v <;> simp [warmEnough]

section
variable {e : CircuitEntry} {debt : Nat} {v : Option Int} {onChain : Bool}

theorem stageAfter_quiet_reached (h : e.l1 ≤ debt) : stageAfter e .quiet debt v onChain = .circulate := if_pos h

theorem stageAfter_quiet_below (h : debt < e.l1) : stageAfter e .quiet debt v onChain = .quiet :=
  if_neg (Nat.not_le.2 h)

/-- From its second limit a circuit with a tier-2 sequence fires, or asks for it where it is not on the chain. -/
theorem stageAfter_circulate_reached {q : Nat} (h : e.l2 ≤ debt) (tier2 : e.tier2 = some q) :
    stageAfter e .circulate debt v onChain = if onChain then .firing else .firingRequested :=
  if_pos ⟨h, by rw [tier2]; rfl⟩

/-- Without the rows of the second limit, CIRCULATE is left by a debt of 0 at a warm point only. -/
theorem stageAfter_circulate_else (h : debt < e.l2 ∨ e.tier2 = none) :
    stageAfter e .circulate debt v onChain = if debt = 0 ∧ warmEnough e v = true then .quiet else .circulate := by
  refine if_neg ?_
  rintro ⟨reached, named⟩
  obtain below | unnamed := h
  · exact Nat.not_le.2 below reached
  · simp [unnamed] at named

theorem stageAfter_requested_below (h : debt < e.l1) : stageAfter e .firingRequested debt v onChain = .circulate :=
  if_pos h

theorem stageAfter_requested_reached (h : e.l1 ≤ debt) :
    stageAfter e .firingRequested debt v onChain = .firingRequested := if_neg (Nat.not_lt.2 h)

theorem stageAfter_firing : stageAfter e .firing debt v onChain = .firing := rfl

end

/-! ### The `blocked` mark and the tier-2 sequence (R107) -/

theorem blockedAfter_request (locked blocked : Bool) :
    blockedAfter .circulate .firingRequested locked blocked = locked := rfl

theorem blockedAfter_withdrawal (locked blocked : Bool) :
    blockedAfter .firingRequested .circulate locked blocked = false := rfl

theorem blockedAfter_pending (locked blocked : Bool) :
    blockedAfter .firingRequested .firingRequested locked blocked = blocked := rfl

theorem tier2OnChain_iff {s : State} {c q : Nat} (h : (s.tables.circuit c).tier2 = some q) :
    s.tier2OnChain c = true ↔ q ∈ s.seq.chain := by
  simp [State.tier2OnChain, State.active, h]

/-! ### A circuit in use after a mark (R101 to R103, R107) -/

section
variable {s : State} {c : Nat}

theorem markedCircuit_of_inUse (h : (s.tables.circuit c).inUse = true) :
    s.markedCircuit c = circuitAfter (s.tables.circuit c) (s.circuit c)
      (s.goodPoint (some (s.tables.circuit c).point)) (s.tier2OnChain c) s.locked := if_pos h

theorem markedCircuit_last (h : (s.tables.circuit c).inUse = true) :
    (s.markedCircuit c).last = some (deficit (s.tables.circuit c) (s.goodPoint (some (s.tables.circuit c).point))) := by
  rw [markedCircuit_of_inUse h, circuitAfter]

/-- The debt moves by the deficit that the mark leaves behind. -/
theorem markedCircuit_debt (h : (s.tables.circuit c).inUse = true) {d : Int} {src : DeficitSource}
    (last : (s.markedCircuit c).last = some (d, src)) : (s.markedCircuit c).debt = debtAfter (s.circuit c).debt d := by
  rw [markedCircuit_last h, Option.some.injEq] at last
  rw [markedCircuit_of_inUse h, circuitAfter, last]

/-- The stage is judged by the debt after the mark. -/
theorem markedCircuit_stage (h : (s.tables.circuit c).inUse = true) :
    (s.markedCircuit c).stage = stageAfter (s.tables.circuit c) (s.circuit c).stage (s.markedCircuit c).debt
      (s.goodPoint (some (s.tables.circuit c).point)) (s.tier2OnChain c) := by
  rw [markedCircuit_of_inUse h, circuitAfter]

theorem markedCircuit_blocked (h : (s.tables.circuit c).inUse = true) :
    (s.markedCircuit c).blocked
      = blockedAfter (s.circuit c).stage (s.markedCircuit c).stage s.locked (s.circuit c).blocked := by
  rw [markedCircuit_of_inUse h, circuitAfter]

end

/-! ### O31 -/

/-- Settles O31: the deficit by its source, the debt on either side of a deficit of 0, and a case per row of Table 31. -/
theorem debtAtMark : Obligations.DebtAtMark := by
  intro s c inUse e p n
  have staged : n.stage = stageAfter e (s.circuit c).stage n.debt (s.goodPoint (some e.point)) (s.tier2OnChain c) :=
    markedCircuit_stage inUse
  have marked : n.blocked = blockedAfter (s.circuit c).stage n.stage s.locked (s.circuit c).blocked :=
    markedCircuit_blocked inUse
  have last : n.last = some (deficit e (s.goodPoint (some e.point))) := markedCircuit_last inUse
  refine ⟨fun f good filtered => ?point, fun bad => ?fallback, fun d src taken => ?debt, fun quiet => ?quiet,
    fun circulate => ?circulate, fun requested => ?requested, fun firing => ?firing⟩
  case point => rw [last, goodPoint_eq_some_iff.2 ⟨good, filtered⟩, deficit_of_value]
  case fallback => rw [last, goodPoint_of_not_good bad, deficit_of_none]
  case debt =>
    have debt : n.debt = debtAfter (s.circuit c).debt d := markedCircuit_debt inUse taken
    rw [debt]
    exact ⟨debtAfter_of_pos _, debtAfter_of_nonpos _⟩
  case quiet =>
    rw [staged, quiet]
    exact ⟨stageAfter_quiet_reached, stageAfter_quiet_below⟩
  case circulate =>
    rw [circulate] at staged marked
    refine ⟨fun q reached tier2 active => ?fires, fun q reached tier2 inactive => ?requests,
      fun unreached => ⟨fun f paid good filtered warm => ?rests, fun cold => ?stays⟩⟩
    case fires => rw [staged, stageAfter_circulate_reached reached tier2, if_pos ((tier2OnChain_iff tier2).2 active)]
    case requests =>
      rw [stageAfter_circulate_reached reached tier2, if_neg (mt (tier2OnChain_iff tier2).1 inactive)] at staged
      exact ⟨staged, by rw [marked, staged, blockedAfter_request]⟩
    case rests =>
      rw [staged, stageAfter_circulate_else unreached]
      exact if_pos ⟨paid, (warmEnough_iff e _).2 ⟨f, goodPoint_eq_some_iff.2 ⟨good, filtered⟩, warm⟩⟩
    case stays =>
      rw [staged, stageAfter_circulate_else unreached]
      refine if_neg ?_
      rintro ⟨paid, warm⟩
      obtain ⟨f, value, reached⟩ := (warmEnough_iff e _).1 warm
      obtain owed | bad | ⟨g, filtered, below⟩ := cold
      · exact owed paid
      · rw [goodPoint_of_not_good bad] at value
        cases value
      · obtain ⟨-, held⟩ := goodPoint_eq_some_iff.1 value
        rw [held, Option.some.injEq] at filtered
        omega
  case requested =>
    rw [requested] at staged marked
    refine ⟨fun below => ?withdrawn, fun reached => ?pending⟩
    case withdrawn =>
      rw [stageAfter_requested_below below] at staged
      exact ⟨staged, by rw [marked, staged, blockedAfter_withdrawal]⟩
    case pending =>
      rw [stageAfter_requested_reached reached] at staged
      exact ⟨staged, by rw [marked, staged, blockedAfter_pending]⟩
  case firing => rw [staged, firing, stageAfter_firing]

end Sys2Proof.Machine
end

section
/-! SUPPORT. What a cascade can do to the state, said once: every action is a run of elementary moves, each carrying what the
laws of the units need to know of it. A law that every move keeps is kept by every cascade and by both arbiters. -/

namespace Sys2Proof.Machine

/-! ### The switch checks (R83, R84) -/

/-- What every switch check that passes says of its sequence: in range, in use, and not on the chain. -/
structure State.admits (s : State) (n : Nat) : Prop where
  range : n < 12
  inUse : (s.tables.seq n).inUse = true
  off : n ∉ s.seq.chain

theorem ite_some_eq_none_iff {α : Type} {p : Prop} [Decidable p] {a : α} {o : Option α} :
    (if p then some a else o) = none ↔ ¬ p ∧ o = none := by
  by_cases h : p <;> simp [h]

/-- All eight checks of Table 28 pass. -/
theorem switchCheck_eq_none_iff (s : State) (n : Nat) (c : Cause) :
    s.switchCheck n c = none ↔
      (n < 12 ∧ (s.tables.seq n).inUse = true) ∧ c.allows (s.tables.seq n).cls = true ∧ n ∉ s.seq.chain ∧
        (c.calls = true → s.seq.chain ≠ [] → s.seq.chain.length < 4) ∧ (c = .trigger → s.outranked n = false) ∧
        (s.gate.present = false → (s.tables.seq n).cls.needsController = false) ∧ (s.locked = true → c = .lockout) ∧
        s.committing = false := by
  unfold State.switchCheck
  rw [ite_some_eq_none_iff, ite_some_eq_none_iff, ite_some_eq_none_iff, ite_some_eq_none_iff, ite_some_eq_none_iff,
    ite_some_eq_none_iff, ite_some_eq_none_iff, ite_some_eq_none_iff]
  simp [State.active]

theorem State.admits_of_switchCheck {s : State} {n : Nat} {c : Cause} (h : s.switchCheck n c = none) : s.admits n := by
  obtain ⟨⟨range, inUse⟩, -, off, -⟩ := (switchCheck_eq_none_iff s n c).1 h
  exact ⟨range, inUse, off⟩

/-- A CALL that passes its checks finds room on the chain. -/
theorem State.room_of_switchCheck {s : State} {n : Nat} {c : Cause} (h : s.switchCheck n c = none) (hc : c.calls = true)
    (hne : s.seq.chain ≠ []) : s.seq.chain.length < 4 := by
  obtain ⟨-, -, -, room, -⟩ := (switchCheck_eq_none_iff s n c).1 h
  exact room hc hne

theorem State.switchCheck_of_opt {s : State} {o : Option Nat} {n : Nat} {c : Cause} (ho : o = some n)
    (h : s.switchCheckOpt o c = none) : s.switchCheck n c = none := by
  subst ho; exact h

end Sys2Proof.Machine
end

section
/-! SUPPORT. The elementary moves of a cascade and of the arbiters, and every action as a run of them: what a unit's action can
do to the state is said once here, and each law of the manual is then shown of the moves. -/

namespace Sys2Proof.Machine

/-! ### The states that the reports of the Sequence Unit leave (R86, R89, R94, R104) -/

/-- The circuits in use changed by `f`. -/
def State.mappedCircuits (s : State) (f : CircuitEntry → CircuitRun → CircuitRun) : State :=
  { s with circuits := (List.range 6).map fun c =>
      if (s.tables.circuit c).inUse then f (s.tables.circuit c) (s.circuit c) else s.circuit c }

/-- A circuit told that S`n` has become active (R104). -/
def firedBy (n : Nat) (e : CircuitEntry) (c : CircuitRun) : CircuitRun :=
  if c.stage = .firingRequested ∧ e.tier2 = some n then { c with stage := .firing, blocked := false } else c

/-- A circuit told that S`n` has left the chain (R104). -/
def releasedBy (n : Nat) (e : CircuitEntry) (c : CircuitRun) : CircuitRun :=
  if c.stage = .firing ∧ e.tier2 = some n then { c with stage := .circulate } else c

/-- The state after the head of the chain has left (R86, R89). -/
def State.left (s : State) : State :=
  match s.seq.chain with
  | n :: rest => (((s.discardSaved n).setChain rest).setRunning none).mappedCircuits (releasedBy n)
  | [] => s

/-- The state after S`n` has become the top (R86, R87). -/
def State.joined (s : State) (n : Nat) : State :=
  ((s.setChain (n :: s.seq.chain)).setRunning none).mappedCircuits (firedBy n)

/-- The state after S`n` has been told to the Frost Unit as gone, its saved context discarded (R94). -/
def State.released (s : State) (n : Nat) : State := (s.discardSaved n).mappedCircuits (releasedBy n)

/-- The state after every member has left (R94). -/
def State.cleared (s : State) : State := ((s.seq.chain.foldl State.released s).setChain []).setRunning none

theorem mapCircuits_st (f : CircuitEntry → CircuitRun → CircuitRun) (w : Work) :
    (mapCircuits f w).st = w.st.mappedCircuits f := by
  unfold mapCircuits
  dsimp only
  rw [Work.frostMoved_st]
  rfl

theorem leaveHead_st (w : Work) : (leaveHead w).st = w.st.left := by
  unfold leaveHead State.left
  split
  · next n rest h => simp only [Work.fin_st, h]; exact mapCircuits_st _ _
  · next h => simp only [h]

theorem joinTop_st (n : Nat) (w : Work) :
    (joinTop n w).st = (Work.traceTop (reportActive n (w.withSt ((w.st.setChain (n :: w.st.seq.chain)).setRunning none))) n).st :=
  rfl

theorem reportActive_st (n : Nat) (w : Work) :
    (reportActive n (w.withSt ((w.st.setChain (n :: w.st.seq.chain)).setRunning none))).st = w.st.joined n :=
  mapCircuits_st _ _

theorem clearChain_st (w : Work) : (clearChain w).st = w.st.cleared := by
  have fold : ∀ (l : List Nat) (v : Work),
      (l.foldl (fun w n => reportLeft n (w.withSt (w.st.discardSaved n))) v).st = l.foldl State.released v.st := by
    intro l
    induction l with
    | nil => intro v; rfl
    | cons n l ih => intro v; rw [List.foldl_cons, ih, List.foldl_cons, reportLeft, mapCircuits_st]; rfl
  unfold clearChain State.cleared
  simp only [Work.fin_st, Work.withSt_st, fold]

/-- The state after the claims of role `r` have become those of `x` (R116). -/
def State.changedRole (s : State) (carried : Bool) (r : Nat) (x : RoleRun) : State :=
  if x.recompute.applied = (s.role r).applied then (s.setRole r x.recompute).ownerOnly r (s.role r).owner
  else (s.setRole r x.recompute).actOnTarget r carried (s.role r).owner

theorem changeRole_st (carried : Bool) (r : Nat) (x : RoleRun) (w : Work) :
    (changeRole carried r x w).st = w.st.changedRole carried r x := by
  unfold changeRole State.changedRole
  dsimp only
  split <;> rfl

/-! ### The moves -/

/-- The law of R155 on the Trace Unit alone. -/
def TraceUnit.lawful (t : TraceUnit) : Prop := t.pos < 512 ∧ t.ready (halfOf t.pos) = t.hold

/-- The memory has its 512 places, and the writer stands inside it. -/
def TraceUnit.sized (t : TraceUnit) : Prop := t.mem.length = 512 ∧ t.pos < 512

/-- A change of the Trace Unit that keeps its size and its law. -/
structure TraceKeeps (old new : TraceUnit) : Prop where
  sized : old.sized → new.sized
  lawful : old.lawful → new.lawful

/-- A change of a role that leaves its claims, owner and applied value. -/
structure ClaimsKept (old new : RoleRun) : Prop where
  claim : new.claim = old.claim
  owner : new.owner = old.owner
  applied : new.applied = old.applied
  limit : new.limit = old.limit
  lockout : new.lockout = old.lockout
  sequence : new.sequence = old.sequence
  frost : new.frost = old.frost

/-- A change of the gate that keeps the sizes of its sets and the bounds of its queues (R131, R134). -/
structure GateKeeps (old new : Gate) : Prop where
  slots : new.slots.length = old.slots.length
  notices : new.notices.length = old.notices.length
  up : old.up.length ≤ 8 → new.up.length ≤ 8
  down : old.down.length ≤ 8 → new.down.length ≤ 8
  reply : old.reply.length ≤ 4 → new.reply.length ≤ 4

/-- A change of the Sequence Unit that leaves the chain and the sizes. -/
structure SeqKeeps (old new : SeqUnit) : Prop where
  chain : new.chain = old.chain
  runs : new.runs.length = old.runs.length
  triggers : old.triggers.length = 12 → new.triggers.length = 12

/-- One elementary change that an action of a unit, a port or the gate makes. -/
inductive Move : State → State → Prop where
  | reading (s : State) (p c : Nat) : Move s (s.setPoint p (afterReading (s.tables.point p) (s.point p) c))
  | ageing (s : State) (p : Nat) : Move s (s.setPoint p (afterMark (s.tables.point p) (s.point p)))
  | cond (s : State) (c : Nat) (x : CondRun) : Move s (s.setCond c x)
  | flue (s : State) (f : FlueRun) : Move s (s.setFlue f)
  | seq (s : State) (u : SeqUnit) (h : SeqKeeps s.seq u) : Move s (s.setSeq u)
  | enter (s : State) (n : Nat) (h : s.admits n) : Move s (s.left.joined n)
  | call (s : State) (n : Nat) (h : s.admits n) (room : s.seq.chain.length < 4) : Move s (s.joined n)
  | leave (s : State) : Move s s.left
  | clear (s : State) : Move s s.cleared
  | marked (s : State) : Move s s.markedCircuits
  | blocked (s : State) (f : CircuitEntry → CircuitRun → CircuitRun)
      (h : ∀ e c, (f e c).stage = c.stage ∧ (f e c).debt = c.debt) : Move s (s.mappedCircuits f)
  | trace (s : State) (t : TraceUnit) (h : TraceKeeps s.trace t) : Move s (s.setTrace t)
  | role (s : State) (r : Nat) (x : RoleRun) (h : ClaimsKept (s.role r) x) : Move s (s.setRole r x)
  | claims (s : State) (carried : Bool) (r : Nat) (x : RoleRun) (h : r < 12) :
      Move s (s.changedRole carried r x)
  | line (s : State) (l : Nat) (x : LineRun) (h : x.commanded = (s.line l).commanded) : Move s (s.setLine l x)
  | gate (s : State) (g : Gate) (h : GateKeeps s.gate g) : Move s (s.setGate g)
  | port (s : State) (p : Port) (x : PortState) (h : (s.port p).hearing = .waiting → x.hearing = .waiting) : Move s (s.setPort p x)
  | fault (s : State) (f : FaultUnit) (h : s.fault.data.lawful → f.data.lawful) : Move s (s.setFault f)
  | persist (s : State) : Move s s.requestPersist
  | pointTimer (s : State) (n : Nat) : Move s { s with pointTimer := n }
  | frostTimer (s : State) (n : Nat) : Move s { s with frostTimer := n }
  | assembly (s : State) (a : Option Assembly) : Move s { s with assembly := a }

/-- A run of moves. -/
inductive Moves : State → State → Prop where
  | refl (s : State) : Moves s s
  | tail {s t u : State} (h : Moves s t) (m : Move t u) : Moves s u

theorem Move.run {s t : State} (h : Move s t) : Moves s t := .tail (.refl s) h

theorem Moves.trans {s t u : State} (h : Moves s t) (g : Moves t u) : Moves s u := by
  induction g with
  | refl => exact h
  | tail _ m ih => exact .tail ih m

/-- What every move keeps, a run of moves keeps. -/
theorem Moves.keeps {P : State → Prop} (hm : ∀ {s t : State}, Move s t → P s → P t) {s t : State} (h : Moves s t)
    (hp : P s) : P t := by
  induction h with
  | refl => exact hp
  | tail _ m ih => exact hm m ih

/-- A fold of operations that are each runs of moves. -/
theorem foldl_moves {α : Type} {f : Work → α → Work} {l : List α} (hf : ∀ w, ∀ a ∈ l, Moves w.st (f w a).st) (w : Work) :
    Moves w.st (l.foldl f w).st := by
  induction l generalizing w with
  | nil => exact Moves.refl _
  | cons a l ih =>
    exact (hf w a (by simp)).trans (ih (fun w b hb => hf w b (by simp [hb])) (f w a))

/-! ### What the moves leave (R131, R165, log 3) -/

/-- A move leaves the queue, the free order, the phase, the clock, the pins, the tables, and what is stored. -/
structure Framed (s t : State) : Prop where
  pending : t.pending = s.pending
  order : t.order = s.order
  phase : t.phase = s.phase
  pins : t.pins = s.pins
  mgmtAddr : t.mgmtAddr = s.mgmtAddr
  tables : t.tables = s.tables
  staging : t.staging = s.staging
  image : t.store.image = s.store.image
  copy0 : t.store.copy0 = s.store.copy0
  copy1 : t.store.copy1 = s.store.copy1
  commit : t.store.commit = s.store.commit

theorem Framed.refl (s : State) : Framed s s := by constructor <;> rfl

theorem Framed.trans {s t u : State} (h : Framed s t) (k : Framed t u) : Framed s u := by
  constructor
  · exact k.pending.trans h.pending
  · exact k.order.trans h.order
  · exact k.phase.trans h.phase
  · exact k.pins.trans h.pins
  · exact k.mgmtAddr.trans h.mgmtAddr
  · exact k.tables.trans h.tables
  · exact k.staging.trans h.staging
  · exact k.image.trans h.image
  · exact k.copy0.trans h.copy0
  · exact k.copy1.trans h.copy1
  · exact k.commit.trans h.commit

theorem Fixed.framed {s t : State} (h : Fixed s t) : Framed s t :=
  ⟨h.pending, h.order, h.phase, h.pins, h.mgmtAddr, h.tables, h.staging, h.image, h.copy0, h.copy1, h.commit⟩

theorem State.mappedCircuits_fixed (s : State) (f : CircuitEntry → CircuitRun → CircuitRun) : Fixed s (s.mappedCircuits f) :=
  s.circuits_fixed _

theorem State.left_fixed (s : State) : Fixed s s.left := leaveHead_st (Work.idle s) ▸ leaveHead_fixed (Work.idle s)

theorem State.joined_fixed (s : State) (n : Nat) : Fixed s (s.joined n) :=
  ((s.setChain_fixed _).trans (State.setRunning_fixed _ none)).trans (State.mappedCircuits_fixed _ _)

theorem State.cleared_fixed (s : State) : Fixed s s.cleared := clearChain_st (Work.idle s) ▸ clearChain_fixed (Work.idle s)

theorem Move.framed {s t : State} (h : Move s t) : Framed s t := by
  cases h with
  | reading => exact (s.setPoint_fixed _ _).framed
  | ageing => exact (s.setPoint_fixed _ _).framed
  | cond => exact (s.setCond_fixed _ _).framed
  | flue => exact (s.setFlue_fixed _).framed
  | seq => exact (s.setSeq_fixed _).framed
  | enter n => exact (s.left_fixed.trans (s.left.joined_fixed n)).framed
  | call n => exact (s.joined_fixed n).framed
  | leave => exact s.left_fixed.framed
  | clear => exact s.cleared_fixed.framed
  | marked => exact (s.circuits_fixed _).framed
  | blocked f => exact (s.mappedCircuits_fixed f).framed
  | trace => exact (s.setTrace_fixed _).framed
  | role => exact (s.setRole_fixed _ _).framed
  | claims carried r x => exact (changeRole_st carried r x (Work.idle s) ▸ changeRole_fixed carried r x (Work.idle s)).framed
  | line => exact (s.setLine_fixed _ _).framed
  | fault => exact (s.setFault_fixed _).framed
  | persist => exact s.requestPersist_fixed.framed
  | port p => cases p <;> exact ⟨rfl, rfl, rfl, rfl, rfl, rfl, rfl, rfl, rfl, rfl, rfl⟩
  | _ => exact ⟨rfl, rfl, rfl, rfl, rfl, rfl, rfl, rfl, rfl, rfl, rfl⟩

theorem Moves.framed {s t : State} (h : Moves s t) : Framed s t :=
  h.keeps (P := Framed s) (fun m f => f.trans m.framed) (Framed.refl s)

end Sys2Proof.Machine
end

section
/-! SUPPORT. Every action of a cascade is a run of moves. -/

namespace Sys2Proof.Machine

/-! ### The Sequence Unit's own record -/

theorem State.setSeq_moves (s : State) {u : SeqUnit} (h : SeqKeeps s.seq u) : Moves s (s.setSeq u) := (Move.seq s u h).run

theorem State.setSeqRun_moves (s : State) (n : Nat) (x : SeqRun) : Moves s (s.setSeqRun n x) :=
  s.setSeq_moves ⟨rfl, by simp, id⟩

theorem State.setRunning_moves (s : State) (x : Option Running) : Moves s (s.setRunning x) :=
  s.setSeq_moves ⟨rfl, rfl, id⟩

theorem State.setTrigger_moves (s : State) (n : Nat) (t : Trigger) : Moves s (s.setTrigger n t) :=
  s.setSeq_moves ⟨rfl, rfl, by simp⟩

theorem State.setDemand_moves (s : State) (b : Bool) : Moves s (s.setSeq { s.seq with demand := b }) :=
  s.setSeq_moves ⟨rfl, rfl, id⟩

theorem State.setPurgeDue_moves (s : State) (b : Bool) : Moves s (s.setSeq { s.seq with purgeDue := b }) :=
  s.setSeq_moves ⟨rfl, rfl, id⟩

theorem State.clearRecycles_moves (s : State) : Moves s s.clearRecycles :=
  s.setSeq_moves ⟨rfl, by simp, id⟩

theorem updateTriggers_moves (f : Nat → Trigger → Trigger) (w : Work) : Moves w.st (updateTriggers f w).st :=
  w.st.setSeq_moves ⟨rfl, rfl, by simp⟩

/-! ### The trace -/

/-- The other half is ready exactly where the writer that comes there must hold (R155). -/
theorem TraceUnit.leave_lawful (t : TraceUnit) {half : Nat} (h : half = 0 ∨ half = 1) : (t.leave half).lawful := by
  rcases h with rfl | rfl
  · exact ⟨show 256 < 512 by decide, rfl⟩
  · exact ⟨show 0 < 512 by decide, rfl⟩

theorem halfOf_le (pos : Nat) : halfOf pos = 0 ∨ halfOf pos = 1 := by
  unfold halfOf; split <;> simp

theorem lastOfHalf_iff (pos : Nat) : lastOfHalf pos = true ↔ pos = 255 ∨ pos = 511 := by simp [lastOfHalf]

/-- Inside a half the next place is of the same half. -/
theorem halfOf_succ {pos : Nat} (h : lastOfHalf pos = false) : halfOf (pos + 1) = halfOf pos := by
  have : pos ≠ 255 := fun e => by simp [e, lastOfHalf] at h
  unfold halfOf
  split <;> split <;> omega

theorem TraceUnit.write_keeps (t : TraceUnit) (e : TraceEntry) : TraceKeeps t (t.write e) := by
  have last : ∀ h : lastOfHalf t.pos = true,
      t.write e = TraceUnit.leave { t with mem := t.mem.set t.pos e } (halfOf t.pos) := fun h => by
    simp [TraceUnit.write, h]
  have inner : ∀ h : lastOfHalf t.pos = false, t.write e = { t with mem := t.mem.set t.pos e, pos := t.pos + 1 } :=
    fun h => by simp [TraceUnit.write, h]
  cases h : lastOfHalf t.pos with
  | true =>
    rw [last h]
    exact ⟨fun hs => ⟨by simp [hs.1], (TraceUnit.leave_lawful _ (halfOf_le _)).1⟩,
      fun _ => TraceUnit.leave_lawful _ (halfOf_le _)⟩
  | false =>
    rw [inner h]
    have bound : t.pos < 512 → t.pos + 1 < 512 := by
      intro hp
      have : t.pos ≠ 511 := fun e => by simp [e, lastOfHalf] at h
      omega
    refine ⟨fun hs => ⟨by simp [hs.1], bound hs.2⟩, fun hl => ⟨bound hl.1, ?_⟩⟩
    show TraceUnit.ready _ (halfOf (t.pos + 1)) = t.hold
    rw [halfOf_succ h]
    exact hl.2

theorem TraceUnit.writeEnd_keeps (t : TraceUnit) (e filler : TraceEntry) : TraceKeeps t (t.writeEnd e filler) := by
  have lawful : (t.writeEnd e filler).lawful := TraceUnit.leave_lawful _ (halfOf_le _)
  refine ⟨fun hs => ⟨?_, lawful.1⟩, fun _ => lawful⟩
  have hm := hs.1
  have hp := hs.2
  unfold TraceUnit.writeEnd
  simp only [TraceUnit.leave_mem, List.length_append, List.length_take, List.length_cons, List.length_replicate,
    List.length_drop, hm]
  split <;> omega

/-- A change of the open record, the counter and the gap is no matter of the writer's place. -/
theorem traceKeeps_of_writer {t u : TraceUnit} (hm : u.mem = t.mem) (hp : u.pos = t.pos) (h0 : u.ready0 = t.ready0)
    (h1 : u.ready1 = t.ready1) (hh : u.hold = t.hold) : TraceKeeps t u := by
  have ready : ∀ half, u.ready half = t.ready half := fun half => by simp [TraceUnit.ready, h0, h1]
  exact ⟨fun h => ⟨by rw [hm]; exact h.1, by rw [hp]; exact h.2⟩,
    fun h => ⟨by rw [hp]; exact h.1, by rw [hp, ready, hh]; exact h.2⟩⟩

theorem TraceKeeps.refl (t : TraceUnit) : TraceKeeps t t := ⟨id, id⟩

theorem TraceKeeps.trans {t u v : TraceUnit} (h : TraceKeeps t u) (k : TraceKeeps u v) : TraceKeeps t v :=
  ⟨fun x => k.sized (h.sized x), fun x => k.lawful (h.lawful x)⟩

theorem traceEntry_keeps (s : State) (r : OpenRecord) (k : TraceKind) : TraceKeeps s.trace (traceEntry s r k) := by
  unfold traceEntry
  dsimp only
  split
  · exact traceKeeps_of_writer rfl rfl rfl rfl rfl
  · exact TraceKeeps.trans (by exact traceKeeps_of_writer rfl rfl rfl rfl rfl) (TraceUnit.write_keeps _ _)

theorem closeRecord_keeps (t : TraceUnit) (number count off : Nat) : TraceKeeps t (closeRecord t number count off) :=
  TraceKeeps.trans (by exact traceKeeps_of_writer rfl rfl rfl rfl rfl) (TraceUnit.writeEnd_keeps _ _ _)

theorem State.setTrace_moves (s : State) {t : TraceUnit} (h : TraceKeeps s.trace t) : Moves s (s.setTrace t) :=
  (Move.trace s t h).run

theorem Work.trace_moves (w : Work) (k : TraceKind) : Moves w.st (w.trace k).st := by
  unfold Work.trace
  split
  · split
    · rw [Work.setTrace_st]; exact (Move.trace _ _ (traceEntry_keeps _ _ _)).run
    · exact Moves.refl _
  · exact Moves.refl _

theorem Work.traceTop_moves (w : Work) (n : Nat) : Moves w.st (w.traceTop n).st := by
  unfold Work.traceTop
  split
  · exact (w.st.setTrace_moves (by exact traceKeeps_of_writer rfl rfl rfl rfl rfl)).trans (Work.trace_moves (w.withSt _) _)
  · exact Moves.refl _

theorem Work.traceFinish_moves (w : Work) : Moves w.st w.traceFinish.st := by
  unfold Work.traceFinish
  split
  · split
    · dsimp only
      split
      · exact w.st.setTrace_moves (by exact traceKeeps_of_writer rfl rfl rfl rfl rfl)
      · rw [Work.setTrace_st]; exact (Move.trace _ _ (closeRecord_keeps _ _ _ _)).run
    · exact Moves.refl _
  · exact Moves.refl _

/-! ### The flue, the circuits, the notices -/

theorem Work.setFlue_st (w : Work) (f : FlueRun) : (w.setFlue f).st = w.st.setFlue f := by
  unfold Work.setFlue
  dsimp only
  split <;> rfl

theorem Work.setFlue_moves (w : Work) (f : FlueRun) : Moves w.st (w.setFlue f).st := by
  rw [Work.setFlue_st]; exact (Move.flue _ _).run

theorem State.mappedCircuits_moves (s : State) {f : CircuitEntry → CircuitRun → CircuitRun}
    (h : ∀ e c, (f e c).stage = c.stage ∧ (f e c).debt = c.debt) : Moves s (s.mappedCircuits f) := (Move.blocked s f h).run

theorem lockoutEntered_moves (w : Work) : Moves w.st (lockoutEntered w).st := by
  rw [lockoutEntered, mapCircuits_st]
  refine State.mappedCircuits_moves _ fun e c => ?_
  split <;> exact ⟨rfl, rfl⟩

theorem lockoutCleared_moves (w : Work) : Moves w.st (lockoutCleared w).st := by
  rw [lockoutCleared, mapCircuits_st]
  exact State.mappedCircuits_moves _ (by exact fun e c => ⟨rfl, rfl⟩)

theorem State.setGate_moves (s : State) {g : Gate} (h : GateKeeps s.gate g) : Moves s (s.setGate g) := (Move.gate s g h).run

theorem State.setFault_moves (s : State) {f : FaultUnit} (h : s.fault.data.lawful → f.data.lawful) :
    Moves s (s.setFault f) := (Move.fault s f h).run

theorem State.requestPersist_moves (s : State) : Moves s s.requestPersist := (Move.persist s).run

theorem State.raiseNotice_moves (s : State) (k : NoticeKind) (x : List Byte) : Moves s (s.raiseNotice k x) :=
  s.setGate_moves ⟨rfl, by simp, id, id, id⟩

theorem State.setSlot_moves (s : State) (r : Nat) (x : Option Slot) : Moves s (s.setSlot r x) :=
  s.setGate_moves ⟨by simp, rfl, id, id, id⟩

theorem State.placeSub_moves (s : State) (r v : Nat) : Moves s (s.placeSub r v) := by
  unfold State.placeSub
  split
  · exact s.setSlot_moves _ _
  all_goals exact Moves.refl s

/-! ### Roles -/

theorem changeRole_moves (carried : Bool) {r : Nat} (h : r < 12) (x : RoleRun) (w : Work) :
    Moves w.st (changeRole carried r x w).st := by
  rw [changeRole_st]
  exact (Move.claims w.st carried r x h).run

theorem applySlots_moves (f : Nat → RoleRun → RoleRun) (w : Work) : Moves w.st (applySlots f w).st := by
  refine foldl_moves (fun w r hr => ?_) w
  split
  · exact Moves.refl _
  · exact changeRole_moves _ (List.mem_range.1 hr) _ _

/-! ### Conditions -/

theorem walk_moves (i : CondInput) (s : State) (changed : List Nat) : Moves s (walk i s changed).1 := by
  suffices h : ∀ (l : List Nat) (acc : State × List Nat), Moves acc.1 (l.foldl (walkAt i) acc).1 from h _ (s, changed)
  intro l
  induction l with
  | nil => intro acc; exact Moves.refl _
  | cons c l ih =>
    intro acc
    refine Moves.trans ?_ (ih (walkAt i acc c))
    unfold walkAt
    dsimp only
    split
    · exact (Move.cond _ _ _).run
    · exact Moves.refl _

theorem walkStart_moves (i : CondInput) (s : State) : Moves s (walkStart i s).1 := by
  unfold walkStart
  split
  · unfold expireHold
    split
    · exact (Move.cond _ _ _).run
    · exact Moves.refl _
  · exact Moves.refl _

theorem actCondWalk_moves (i : CondInput) (w : Work) : Moves w.st (actCondWalk i w).st := by
  have h := (walkStart_moves i w.st).trans (walk_moves i (walkStart i w.st).1 (walkStart i w.st).2)
  unfold actCondWalk
  split
  · revert h
    generalize walk i (walkStart i w.st).1 (walkStart i w.st).2 = after
    intro h
    dsimp only
    split <;> exact h
  · exact Moves.refl _

/-! ### The chain -/

theorem leaveHead_moves (w : Work) : Moves w.st (leaveHead w).st := by
  rw [leaveHead_st]; exact (Move.leave _).run

theorem clearChain_moves (w : Work) : Moves w.st (clearChain w).st := by
  rw [clearChain_st]; exact (Move.clear _).run

theorem doEnter_moves {n : Nat} (c : Cause) {w : Work} (h : w.st.admits n) : Moves w.st (doEnter n c w).st := by
  show Moves w.st (joinTop n (leaveHead w)).st
  rw [joinTop_st]
  refine Moves.trans ?_ (Work.traceTop_moves _ _)
  rw [reportActive_st, leaveHead_st]
  exact (Move.enter w.st n h).run

theorem suspendTop_moves (w : Work) : Moves w.st (suspendTop w).st := by
  unfold suspendTop
  split
  · exact (w.st.setSeqRun_moves _ _).trans (State.setRunning_moves _ none)
  · exact Moves.refl _

theorem suspendTop_chain (w : Work) : (suspendTop w).st.seq.chain = w.st.seq.chain := by
  unfold suspendTop
  split <;> simp

/-- The checks of a sequence stand while the chain and the tables do. -/
theorem State.admits.of_eq {s t : State} {n : Nat} (h : s.admits n) (ht : t.tables = s.tables)
    (hc : t.seq.chain = s.seq.chain) : t.admits n :=
  ⟨h.range, by rw [ht]; exact h.inUse, by rw [hc]; exact h.off⟩

theorem doCall_moves {n : Nat} (c : Cause) {w : Work} (h : w.st.admits n)
    (room : w.st.seq.chain ≠ [] → w.st.seq.chain.length < 4) : Moves w.st (doCall n c w).st := by
  unfold doCall
  split
  · exact doEnter_moves c h
  · next hne =>
    show Moves w.st (joinTop n (suspendTop w)).st
    rw [joinTop_st]
    refine Moves.trans ?_ (Work.traceTop_moves _ _)
    rw [reportActive_st]
    refine (suspendTop_moves w).trans (Move.call _ n ?_ ?_).run
    · exact h.of_eq (suspendTop_fixed w).tables (suspendTop_chain w)
    · rw [suspendTop_chain]
      exact room (fun e => hne (by simp [e]))

theorem chainEmptied_moves (w : Work) : Moves w.st (chainEmptied w).st :=
  (w.setFlue_moves _).trans (Work.traceFinish_moves _)

theorem afterLeaving_moves (w : Work) : Moves w.st (afterLeaving w).st := by
  unfold afterLeaving
  split
  · exact chainEmptied_moves w
  · exact Moves.refl _

theorem replaceByStop_moves (c : Cause) (l : Nat) (w : Work) : Moves w.st (replaceByStop c l w).st := by
  unfold replaceByStop
  split
  · next n ho hc =>
    exact doEnter_moves _ (State.admits_of_switchCheck (State.switchCheck_of_opt ho hc))
  · exact (leaveHead_moves w).trans (afterLeaving_moves _)

theorem actExamineTriggers_moves (w : Work) : Moves w.st (actExamineTriggers w).st := by
  unfold actExamineTriggers
  split
  · split
    · next n hb =>
      split
      · next hc =>
        refine (w.st.setTrigger_moves n _).trans (doCall_moves (w := w.withSt _) _ ?_ ?_)
        · exact (State.admits_of_switchCheck hc).of_eq rfl rfl
        · exact State.room_of_switchCheck hc rfl
      · exact w.st.setTrigger_moves _ _
      · exact Moves.refl _
    · exact Moves.refl _
  · exact Moves.refl _

theorem actExamineDemand_moves (w : Work) : Moves w.st (actExamineDemand w).st := by
  unfold actExamineDemand
  split
  · next h =>
    simp only [Bool.and_eq_true, Option.isNone_iff_eq_none] at h
    exact doEnter_moves _ (State.admits_of_switchCheck h.2)
  · exact Moves.refl _

theorem clearDemand_moves (absent : Bool) (w : Work) : Moves w.st (clearDemand absent w).st := by
  have h : Moves w.st (w.withSt (w.st.setSeq { w.st.seq with demand := false })).st := w.st.setDemand_moves false
  unfold clearDemand
  dsimp only
  split
  · split
    · exact h.trans (replaceByStop_moves _ _ _)
    · split
      · exact h.trans (replaceByStop_moves _ _ _)
      · exact h
    · exact h
  · exact h

/-! ### Steps -/

theorem startStep_moves (n k : Nat) (s : State) : Moves s (startStep n k s) := by
  unfold startStep
  dsimp only
  split
  · exact (s.setRunning_moves _).trans (State.setSeqRun_moves _ _ _)
  · exact s.setRunning_moves _

theorem applyAllowance_moves (k : Nat) (s : State) : Moves s (applyAllowance k s) := by
  unfold applyAllowance
  split
  · exact (Move.flue s _).run.trans (State.setRunning_moves _ _)
  · exact Moves.refl s

theorem applyArming_moves (k : Nat) (w : Work) : Moves w.st (applyArming k w).st := by
  unfold applyArming
  split
  · exact w.setFlue_moves _
  · exact Moves.refl _

theorem actStepEntry_moves (k : Nat) (w : Work) : Moves w.st (actStepEntry k w).st := by
  unfold actStepEntry
  split
  · dsimp only
    rw [entryOutcome_st]
    exact (((startStep_moves _ k w.st).trans (applyAllowance_moves k _)).trans
      (applyArming_moves k (Work.withSt _ _))).trans (Work.trace_moves _ _)
  · exact Moves.refl _

theorem actCallRequest_moves (m : Nat) (w : Work) : Moves w.st (actCallRequest m w).st := by
  unfold actCallRequest
  split
  · split
    · next hc => exact doCall_moves _ (State.admits_of_switchCheck hc) (State.room_of_switchCheck hc rfl)
    · exact Moves.refl _
  · exact Moves.refl _

theorem actMinMark_moves (w : Work) : Moves w.st (actMinMark w).st := by
  unfold actMinMark
  split
  · split
    · exact Moves.refl _
    · dsimp only
      split <;> exact w.st.setRunning_moves _
  · exact Moves.refl _

theorem resume_moves (n : Nat) (c : Saved) (w : Work) : Moves w.st (resume n c w).st := by
  unfold resume
  split
  · exact Moves.refl _
  · exact (w.st.setRunning_moves _).trans (Work.trace_moves (w.withSt _) _)

theorem actTakeUp_moves (w : Work) : Moves w.st (actTakeUp w).st := by
  unfold actTakeUp
  split
  · split
    · exact replaceByStop_moves _ _ _
    · split
      · dsimp only
        refine Moves.trans ?_ (resume_moves _ _ _)
        exact (w.st.setSeqRun_moves _ _).trans
          (Work.traceTop_moves (((w.withSt (w.st.discardSaved _)).fin _).fin _) _)
      · exact Moves.refl _
  · exact Moves.refl _

/-! ### Faults -/

theorem State.noteFault_moves (s : State) (r : FaultRecord) : Moves s (s.noteFault r) :=
  (s.setFault_moves (by exact id)).trans (State.raiseNotice_moves _ _ _)

theorem LockoutData.lock_lawful {d : LockoutData} (r : FaultRecord) (h : d.lawful) : (d.lock r).lawful := by
  obtain ⟨hh, ha, hn⟩ := h
  refine ⟨?_, ha, ?_⟩
  · simp only [LockoutData.lock, pushHistory, List.length_cons, List.length_take]
    omega
  · simp only [LockoutData.lock, nextNumber]
    split <;> omega

theorem teardown_moves (w : Work) : Moves w.st (teardown w).st := by
  unfold teardown
  dsimp only
  exact (((clearChain_moves w).trans (State.clearRecycles_moves _)).trans
    (Work.setFlue_moves ((clearChain w).withSt _) _)).trans (Work.traceFinish_moves _)

theorem enterPurge_moves (w : Work) : Moves w.st (enterPurge w).st := by
  unfold enterPurge
  split
  · next hc => exact doEnter_moves _ (State.admits_of_switchCheck hc)
  · exact w.st.setPurgeDue_moves true
  · exact Moves.refl _

theorem lockOut_moves (f : FaultIn) (mark : Bool) (w : Work) : Moves w.st (lockOut f mark w).st := by
  unfold lockOut
  dsimp only
  refine Moves.trans ?_ (enterPurge_moves _)
  refine Moves.trans ?_ ((State.raiseNotice_moves _ _ _).trans (State.requestPersist_moves _))
  refine Moves.trans ?_ (lockoutEntered_moves _)
  refine Moves.trans ?_ (teardown_moves (w.withSt _))
  exact (w.st.setFault_moves (LockoutData.lock_lawful _)).trans (State.noteFault_moves _ _)

theorem recycle_moves (f : FaultIn) (n : Nat) (w : Work) : Moves w.st (recycle f n w).st := by
  have h : Moves w.st (w.withSt (w.st.setRecycle n ((w.st.seqRun n).recycle + 1))).st := w.st.setSeqRun_moves _ _
  unfold recycle
  dsimp only
  split
  · exact h.trans (lockOut_moves _ _ _)
  · split
    · next m ho hc =>
      refine (h.trans (State.noteFault_moves _ _)).trans (doEnter_moves (w := Work.withSt _ _) _ ?_)
      exact (State.admits_of_switchCheck (State.switchCheck_of_opt ho hc)).of_eq rfl rfl
    · exact h.trans (lockOut_moves _ _ _)

theorem faultUnlocked_moves (f : FaultIn) (w : Work) : Moves w.st (faultUnlocked f w).st := by
  unfold faultUnlocked
  split
  · exact w.st.noteFault_moves _
  · exact recycle_moves _ _ _
  · exact lockOut_moves _ _ _
  · exact lockOut_moves _ _ _

theorem fillSecond_length {code : Nat} {h h' : List HistoryEntry} (e : fillSecond code h = some h') :
    h'.length = h.length := by
  unfold fillSecond at e
  split at e
  · split at e
    · cases e; rfl
    · cases e
  · cases e

theorem recordSecond_moves (code : Nat) (s : State) : Moves s (recordSecond code s) := by
  unfold recordSecond
  split
  · next h he =>
    refine ((s.setFault_moves (f := { s.fault with data := { s.fault.data with history := h } })
      fun ⟨hh, ha, hn⟩ => ⟨?_, ha, hn⟩).trans (State.raiseNotice_moves _ _ _)).trans
      (State.requestPersist_moves _)
    show h.length ≤ 6
    rw [fillSecond_length he]; exact hh
  · exact Moves.refl s

theorem endPurge_moves (w : Work) : Moves w.st (endPurge w).st := by
  unfold endPurge
  split
  · exact Moves.refl _
  · exact (clearChain_moves w).trans (chainEmptied_moves _)

theorem faultLocked_moves (f : FaultIn) (w : Work) : Moves w.st (faultLocked f w).st := by
  unfold faultLocked
  dsimp only
  exact ((endPurge_moves w).trans (recordSecond_moves _ _)).trans (State.noteFault_moves _ _)

theorem actTakeFault_moves (f : FaultIn) (w : Work) : Moves w.st (actTakeFault f w).st := by
  unfold actTakeFault
  dsimp only
  split
  · exact (w.trace_moves _).trans (faultLocked_moves _ _)
  · exact (w.trace_moves _).trans (faultUnlocked_moves _ _)

theorem actCommitSequence_moves (w : Work) : Moves w.st (actCommitSequence w).st := by
  unfold actCommitSequence
  dsimp only
  split
  · exact (w.st.setPurgeDue_moves false).trans (enterPurge_moves (Work.withSt _ _))
  · exact Moves.refl _

/-! ### Points and field roles -/

theorem actReading_moves (source channel code : Nat) (w : Work) : Moves w.st (actReading source channel code w).st := by
  unfold actReading
  repeat' split
  · exact (Move.reading w.st _ _).run
  · exact Moves.refl _
  · exact Moves.refl _

theorem actAgeMark_moves (w : Work) : Moves w.st (actAgeMark w).st := by
  unfold actAgeMark
  split
  · refine foldl_moves (fun w p _ => ?_) w
    unfold agePoint
    split
    · exact (Move.ageing w.st p).run
    · exact Moves.refl _
  · exact Moves.refl _

theorem actRoleState_moves (r level : Nat) (w : Work) : Moves w.st (actRoleState r level w).st := by
  unfold actRoleState
  split
  · exact (Move.role w.st r _ (by exact ⟨rfl, rfl, rfl, rfl, rfl, rfl, rfl⟩)).run
  · exact Moves.refl _

/-! ### Every action, and the cascade -/

theorem act_moves (a : Act) (w : Work) : Moves w.st (act a w).st := by
  cases a with
  | reading source channel code => exact actReading_moves source channel code w
  | ageMark => exact actAgeMark_moves w
  | condWalk i => exact actCondWalk_moves i w
  | flueInput p x =>
    show Moves w.st (actFlueInput p x w).st
    unfold actFlueInput
    split
    · exact w.setFlue_moves _
    · exact Moves.refl _
  | traceSample p v =>
    show Moves w.st (actTraceSample p v w).st
    unfold actTraceSample
    split
    · exact w.trace_moves _
    · exact Moves.refl _
  | roleState r level => exact actRoleState_moves r level w
  | handoff set =>
    show Moves w.st (actHandoff set w).st
    unfold actHandoff
    repeat' split
    all_goals exact Moves.refl _
  | applyTriggers set => exact updateTriggers_moves _ w
  | frostHandoff adds removes => exact updateTriggers_moves _ w
  | minMark => exact actMinMark_moves w
  | maxExpiry =>
    show Moves w.st (actMaxExpiry w).st
    unfold actMaxExpiry
    repeat' split
    all_goals exact Moves.refl _
  | advance =>
    show Moves w.st (actAdvance w).st
    unfold actAdvance
    repeat' split
    all_goals exact w.st.setRunning_moves _
  | enterEntry n =>
    show Moves w.st (actEnterEntry n w).st
    unfold actEnterEntry
    split
    · exact Moves.refl _
    · exact w.st.setRunning_moves _
  | stepEntry k => exact actStepEntry_moves k w
  | callRequest m => exact actCallRequest_moves m w
  | finishTop =>
    show Moves w.st (actFinishTop w).st
    unfold actFinishTop
    split
    · exact ((w.st.setSeqRun_moves _ _).trans (leaveHead_moves (w.withSt _))).trans (afterLeaving_moves _)
    · exact Moves.refl _
  | takeUp => exact actTakeUp_moves w
  | examineTriggers => exact actExamineTriggers_moves w
  | examineDemand => exact actExamineDemand_moves w
  | absenceStart => exact clearDemand_moves true w
  | commitSequence => exact actCommitSequence_moves w
  | takeFault f => exact actTakeFault_moves f w
  | frostClaims =>
    show Moves w.st (actFrostClaims w).st
    unfold actFrostClaims
    split
    · exact applySlots_moves _ _
    · exact Moves.refl _
  | sequenceClaims =>
    show Moves w.st (actSequenceClaims w).st
    unfold actSequenceClaims
    split
    · exact applySlots_moves _ _
    · exact Moves.refl _
  | frostNotice c => exact w.st.raiseNotice_moves _ _
  | chainNotice c k n => exact w.st.raiseNotice_moves _ _
  | traceNotice half => exact w.st.raiseNotice_moves _ _

theorem runWork_moves {n : Nat} {w : Work} {s : State} (h : runWork n w = some s) : Moves w.st s :=
  runWork_keeps (fun s => Moves w.st s) (fun a v hv => hv.trans (act_moves a v)) n w s (Moves.refl _) h

/-! ### The arbiters -/

theorem GateKeeps.of_queues {g h : Gate} (hs : h.slots.length = g.slots.length) (hn : h.notices.length = g.notices.length)
    (hu : h.up.length ≤ g.up.length) (hd : h.down.length ≤ g.down.length) (hr : h.reply.length ≤ g.reply.length) :
    GateKeeps g h :=
  ⟨hs, hn, Nat.le_trans hu, Nat.le_trans hd, Nat.le_trans hr⟩

theorem State.take_moves (s : State) (p : Port) (f : Frame) (t : HandTag) : Moves s (s.take p f t) :=
  (Move.port s p { s.port p with hand := some { frame := f, tag := t } } id).run

theorem State.takeNotice_moves (s : State) (k : NoticeKind) : Moves s (s.takeNotice k) :=
  (s.setGate_moves (by exact .of_queues rfl (by simp) (Nat.le_refl _) (Nat.le_refl _) (Nat.le_refl _))).trans (State.take_moves _ _ _ _)

theorem State.chooseField_moves (s : State) : Moves s s.chooseField := by
  unfold State.chooseField
  split
  · unfold State.takeSlot
    split
    · exact (s.setSlot_moves _ _).trans (State.take_moves _ _ _ _)
    · exact Moves.refl s
  · split
    · next hd =>
      exact (s.setGate_moves (by exact .of_queues rfl rfl (Nat.le_refl _) (by simp [hd]) (Nat.le_refl _))).trans (State.take_moves _ _ _ _)
    · exact Moves.refl s

theorem State.chooseUp_moves (s : State) : Moves s s.chooseUp := by
  unfold State.chooseUp
  split
  · next hu =>
    exact (s.setGate_moves (by exact .of_queues rfl rfl (by simp [hu]) (Nat.le_refl _) (Nat.le_refl _))).trans (State.take_moves _ _ _ _)
  · split
    · exact s.takeNotice_moves _
    · exact Moves.refl s

theorem State.chooseControl_moves (s : State) : Moves s s.chooseControl := by
  unfold State.chooseControl
  split
  · next hr =>
    exact (s.setGate_moves (by exact .of_queues rfl rfl (Nat.le_refl _) (Nat.le_refl _) (by simp [hr]))).trans (State.take_moves _ _ _ _)
  · split
    · exact s.takeNotice_moves _
    · exact s.chooseUp_moves

theorem State.arbitrate_moves (s : State) : Moves s s.arbitrate := by
  have field : Moves s (if s.fieldPort.hand.isSome then s else s.chooseField) := by
    split
    · exact Moves.refl s
    · exact s.chooseField_moves
  have control (u : State) : Moves u (if u.ctlPort.hand.isSome then u else u.chooseControl) := by
    split
    · exact Moves.refl u
    · exact u.chooseControl_moves
  exact field.trans (control _)

theorem finish_moves {w : Work} {t : State} (h : finish w = .next t) : Moves w.st t := by
  unfold finish at h
  split at h
  · next u hu => cases h; exact (runWork_moves hu).trans u.arbitrate_moves
  · cases h

theorem finishState_moves {s t : State} (h : finishState s = .next t) : Moves s t := by
  cases h; exact s.arbitrate_moves

end Sys2Proof.Machine
end

section
/-! SUPPORT. Every command is a run of moves, but for the few that begin with a change that no move makes: a pin, the tables and
staging, the store's image and copies, a reset, the end of the image check or of a commit. -/

namespace Sys2Proof.Machine

/-- A change with which a command begins, or that a request makes, and that is no move. -/
inductive Start : State → State → Prop where
  | input (s : State) (p : Pins) (hs : p.sense.length = s.pins.sense.length) (hl : p.limitClosed = s.pins.limitClosed) :
      Start s (s.setPins p)
  | limit (s : State) (closed : Bool) : Start s (s.setLimit closed)
  | stage (s : State) (t : Tables) (k : TableKind) (i : Nat) (bs : List Byte) (h : stageEntry s.staging k i bs = some t)
      (hc : s.committing = false) : Start s { s with assembly := none, staging := t }
  | discard (s : State) (hc : s.committing = false) : Start s { s with staging := s.tables, assembly := none }
  | commit (s : State) (h : crossCheck s.staging = none) (hc : s.committing = false) (hs : s.serving = true) :
      Start s (({ s with assembly := none } : State).setStore s.store.startImage)
  | written (s : State) : Start s (writeCompleted s)
  | activated (s : State) (t : Tables) (hp : s.phase = .checking) (h : s.store.image = some t) : Start s (s.activated t)
  | fallen (s : State) (hp : s.phase = .checking) : Start s s.fallen
  | committed (s : State) (h : s.store.commit = .writing) : Start s s.committed
  | restarted (s : State) (adr : Nat) : Start s (s.restarted s.resetStore adr)
  | unpowered (s : State) : Start s s.unpowered
  | ports (s : State) (control field : PortState) : Start s { s with ctlPort := control, fieldPort := field }

/-- A run of moves with at most one other change in it. -/
def Ran (s t : State) : Prop := ∃ a b, Moves s a ∧ (b = a ∨ Start a b) ∧ Moves b t

theorem Moves.ran {s t : State} (h : Moves s t) : Ran s t := ⟨t, t, h, .inl rfl, Moves.refl t⟩

theorem Start.ran {s b t : State} (h : Start s b) (k : Moves b t) : Ran s t := ⟨s, b, Moves.refl s, .inr h, k⟩

theorem Ran.trans_moves {s t u : State} (h : Ran s t) (k : Moves t u) : Ran s u := by
  obtain ⟨a, b, m, change, n⟩ := h
  exact ⟨a, b, m, change, n.trans k⟩

theorem Moves.trans_ran {s t u : State} (h : Moves s t) (k : Ran t u) : Ran s u := by
  obtain ⟨a, b, m, change, n⟩ := k
  exact ⟨a, b, h.trans m, change, n⟩

theorem finish_ran {s : State} {w : Work} {t : State} (h : Ran s w.st) (hf : finish w = .next t) : Ran s t :=
  h.trans_moves (finish_moves hf)

theorem finishState_ran {s u t : State} (h : Ran s u) (hf : finishState u = .next t) : Ran s t :=
  h.trans_moves (finishState_moves hf)

/-- A law that every move keeps, and every change of `Start`, every command keeps. -/
theorem Ran.keeps {P : State → Prop} (hm : ∀ {s t : State}, Move s t → P s → P t)
    (hs : ∀ {s t : State}, Start s t → P s → P t) {s t : State} (h : Ran s t) (hp : P s) : P t := by
  obtain ⟨a, b, m, change, n⟩ := h
  refine n.keeps hm ?_
  rcases change with rfl | change
  · exact m.keeps hm hp
  · exact hs change (m.keeps hm hp)

/-! ### The ports and the gate -/

theorem State.setPort_moves (s : State) (p : Port) {x : PortState} (h : (s.port p).hearing = .waiting → x.hearing = .waiting) :
    Moves s (s.setPort p x) := (Move.port s p x h).run

/-- A port may listen again, which no cascade makes it do. -/
theorem State.setPort_ran (s : State) (p : Port) (x : PortState) : Ran s (s.setPort p x) := by
  cases p
  · exact (Start.ports s x s.fieldPort).ran (Moves.refl _)
  · exact (Start.ports s s.ctlPort x).ran (Moves.refl _)

theorem State.setLine_moves (s : State) (l : Nat) {x : LineRun} (h : x.commanded = (s.line l).commanded) :
    Moves s (s.setLine l x) := (Move.line s l x h).run

theorem State.setRole_moves (s : State) (r : Nat) {x : RoleRun} (h : ClaimsKept (s.role r) x) : Moves s (s.setRole r x) :=
  (Move.role s r x h).run

theorem State.setNotice_moves (s : State) (k : NoticeKind) (n : Notice) : Moves s (s.setNotice k n) :=
  s.setGate_moves (.of_queues rfl (by simp) (Nat.le_refl _) (Nat.le_refl _) (Nat.le_refl _))

theorem State.clearSent_moves (s : State) (t : HandTag) : Moves s (s.clearSent t) := by
  unfold State.clearSent
  split
  · split
    · exact s.setSlot_moves _ _
    · exact Moves.refl s
  · dsimp only
    split
    · exact (s.setNotice_moves _ _).trans (State.setGate_moves _ (.of_queues rfl rfl (Nat.le_refl _) (Nat.le_refl _) (Nat.le_refl _)))
    · exact s.setNotice_moves _ _
  · exact Moves.refl s
  · exact Moves.refl s

theorem State.frameSent_moves (s : State) (p : Port) : Moves s (s.frameSent p) := by
  unfold State.frameSent
  split
  · split
    · exact (s.setPort_moves _ fun _ => rfl).trans (State.clearSent_moves _ _)
    · exact Moves.refl s
  · exact Moves.refl s

theorem State.transmitStart_moves (s : State) (p : Port) : Moves s (s.transmitStart p) := by
  unfold State.transmitStart
  dsimp only
  split
  · exact s.setPort_moves _ fun _ => rfl
  · exact Moves.refl s

theorem State.quiet_ran (s : State) (p : Port) : Ran s (s.quiet p) := by
  unfold State.quiet
  split
  · exact s.setPort_ran _ _
  · exact (Moves.refl s).ran

theorem State.hear_moves (s : State) (p : Port) : Moves s (s.hear p .waiting) := s.setPort_moves p fun _ => rfl

theorem State.discardFrame_moves (s : State) (p : Port) (bytes : List Byte) (ending : ReceptionEnd) :
    Moves s (s.discardFrame p bytes ending) := by
  unfold State.discardFrame
  split
  · exact s.hear_moves _
  · exact Moves.refl s

theorem appendFrame_length (q : List Frame) (f : Frame) (h : q.length ≤ 8) : (appendFrame q f).length ≤ 8 := by
  unfold appendFrame
  split
  · simp; omega
  · exact h

theorem State.forwardUp_moves (s : State) (f : Frame) : Moves s (s.forwardUp f) :=
  s.setGate_moves ⟨rfl, rfl, appendFrame_length _ _, id, id⟩

theorem State.forwardDown_moves (s : State) (f : Frame) : Moves s (s.forwardDown f) :=
  s.setGate_moves ⟨rfl, rfl, id, appendFrame_length _ _, id⟩

theorem State.seeSource_moves (s : State) (src : Byte) : Moves s (s.seeSource src) := by
  unfold State.seeSource
  split
  · exact s.setGate_moves (.of_queues rfl rfl (Nat.le_refl _) (Nat.le_refl _) (Nat.le_refl _))
  · exact Moves.refl s

theorem State.raiseDrive_moves (s : State) (reason : Nat) (node : Option Nat) (setting : Option (Nat × Nat))
    (role : Option Nat) : Moves s (s.raiseDrive reason node setting role) :=
  (s.setGate_moves (by exact .of_queues rfl rfl (Nat.le_refl _) (Nat.le_refl _) (Nat.le_refl _))).trans (State.raiseNotice_moves _ _ _)

theorem State.recordLast_moves (s : State) (r v : Nat) : Moves s (s.recordLast r v) := by
  unfold State.recordLast
  split
  · exact s.setSlot_moves _ _
  · exact Moves.refl s

theorem State.linkReset_ran (s : State) : Ran s s.linkReset :=
  (Start.ports s s.ctlPort.reset s.fieldPort.reset).ran (State.setGate_moves _ ⟨by exact List.length_map _, rfl, by simp, by simp, by simp⟩)

theorem absenceExpired_moves (w : Work) : Moves w.st (absenceExpired w).st := by
  unfold absenceExpired
  split
  · exact w.st.setGate_moves (.of_queues rfl rfl (Nat.le_refl _) (Nat.le_refl _) (Nat.le_refl _))
  · exact Moves.refl _

/-! ### DRIVE frames (R130) -/

theorem roleOfField_lt {t : Tables} {node ch r : Nat} (h : t.roleOfField node ch = some r) : r < 12 :=
  List.mem_range.1 (List.mem_of_find?_eq_some h)

theorem referRole_moves (carried : Bool) {r : Nat} (h : r < 12) (v : Nat) (w : Work) :
    Moves w.st (referRole carried r v w).2.st := by
  unfold referRole
  dsimp only
  split
  · split
    · exact changeRole_moves _ h _ _
    · exact changeRole_moves _ h _ _
  · exact Moves.refl _

theorem referSetting_moves (node ch v : Nat) (w : Work) : Moves w.st (referSetting node ch v w).2.st := by
  unfold referSetting
  split
  · next r h =>
    refine referRole_moves _ ?_ _ _
    split at h
    · exact roleOfField_lt h
    · cases h
  · exact Moves.refl _

theorem driveSetting_moves (node : Nat) (acc : Work × List Kept) (g : Nat × Nat) :
    Moves acc.1.st (driveSetting node acc g).1.st := by
  have h := referSetting_moves node g.1 (min g.2 1000) acc.1
  unfold driveSetting
  dsimp only
  revert h
  generalize referSetting node g.1 (min g.2 1000) acc.1 = answer
  intro h
  split
  · split
    · exact h
    · exact h.trans (State.raiseDrive_moves _ _ _ _ _)
  · exact h.trans (State.raiseDrive_moves _ _ _ _ _)
  · exact h.trans (State.raiseDrive_moves _ _ _ _ _)
  · exact h.trans (State.recordLast_moves _ _ _)

theorem driveSettings_moves (node : Nat) (l : List (Nat × Nat)) (acc : Work × List Kept) :
    Moves acc.1.st (l.foldl (driveSetting node) acc).1.st := by
  induction l generalizing acc with
  | nil => exact Moves.refl _
  | cons g l ih => exact (driveSetting_moves node acc g).trans (ih _)

theorem placeKept_moves (s : State) (kept : List Kept) : Moves s (placeKept s kept) := by
  unfold placeKept
  induction kept generalizing s with
  | nil => exact Moves.refl s
  | cons k l ih =>
    rw [List.foldl_cons]
    refine Moves.trans ?_ (ih _)
    split
    · exact s.placeSub_moves _ _
    · exact Moves.refl s

theorem queueKept_moves (f : Frame) (kept : List Kept) (s : State) : Moves s (queueKept f kept s) := by
  unfold queueKept
  split
  · exact Moves.refl s
  · split
    · exact s.forwardDown_moves _
    · exact placeKept_moves s kept

theorem intercept_moves (f : Frame) (w : Work) : Moves w.st (intercept f w).st := by
  unfold intercept
  split
  · exact w.st.raiseDrive_moves _ _ _ _
  · split
    · exact w.st.raiseDrive_moves _ _ _ _
    · exact (driveSettings_moves _ _ (w, [])).trans (queueKept_moves _ _ _)

theorem controlOther_moves {f : Frame} (h : frameKind f.kind ≠ .linkreset ∨ f.dst.toNat ≠ 0) (w : Work) :
    Moves w.st (controlOther f w).st := by
  unfold controlOther
  split
  · unfold driveFrame
    split
    · exact intercept_moves f w
    · split
      · exact w.st.raiseDrive_moves _ _ _ _
      · exact Moves.refl _
  · split
    · exact w.st.forwardDown_moves f
    · exact Moves.refl _
  · next kind =>
    exact (if_neg (h.resolve_left fun k => k kind)) ▸ Moves.refl _
  all_goals exact Moves.refl _

theorem controlOther_ran (f : Frame) (w : Work) : Ran w.st (controlOther f w).st := by
  by_cases h : frameKind f.kind ≠ .linkreset ∨ f.dst.toNat ≠ 0
  · exact (controlOther_moves h w).ran
  · have kind : frameKind f.kind = .linkreset := Classical.byContradiction fun k => h (.inl k)
    have dst : f.dst.toNat = 0 := Classical.byContradiction fun k => h (.inr k)
    have e : controlOther f w = w.withSt w.st.linkReset := by
      unfold controlOther
      rw [kind]
      exact if_pos dst
    rw [e]
    exact w.st.linkReset_ran

theorem fieldArrival_moves (f : Frame) (w : Work) : Moves w.st (fieldArrival f w).st := by
  unfold fieldArrival
  dsimp only [Work.emit_st, Work.withSt_st]
  split
  · exact w.st.forwardUp_moves f
  · exact Moves.refl _

/-! ### Requests -/

theorem Work.answer_moves (w : Work) (dst : Byte) (r : Result) (h : w.st.gate.reply.length < 4) :
    Moves w.st (w.answer dst r).st :=
  w.st.setGate_moves ⟨rfl, rfl, id, id, fun _ => by simp; omega⟩

theorem State.assembly_moves (s : State) (a : Option Assembly) : Moves s { s with assembly := a } := (Move.assembly s a).run

/-- What a LOAD does before its reply: the assembly moves on, or the entry is staged. -/
theorem takePart_ran (s : State) (a : Assembly) (hc : s.committing = false) : Ran s (takePart s a).1 := by
  unfold takePart
  split
  · exact (s.assembly_moves _).ran
  · unfold finishLoad
    dsimp only
    split
    · next t h => exact (Start.stage s t _ _ _ h hc).ran (Moves.refl _)
    · exact (s.assembly_moves _).ran

theorem doLoad_ran (k : TableKind) (i p : Nat) (fields : List Byte) (s : State) (hc : s.committing = false) :
    Ran s (doLoad k i p fields s).1 := by
  unfold doLoad
  split
  · exact takePart_ran s _ hc
  · split
    · split
      · exact takePart_ran s _ hc
      · exact (s.assembly_moves _).ran
    · exact (s.assembly_moves _).ran

theorem doCommit_ran (s : State) (hc : s.committing = false) (hs : s.serving = true) : Ran s (doCommit s).1 := by
  unfold doCommit
  split
  · exact (Moves.refl s).ran
  · split
    · exact (Moves.refl s).ran
    · next h => exact (Start.commit s h hc hs).ran (Moves.refl _)

theorem reply_length_of_start {a b : State} (h : b.gate = a.gate) (hl : a.gate.reply.length < 4) :
    b.gate.reply.length < 4 := by rw [h]; exact hl

theorem doLoad_gate (k : TableKind) (i p : Nat) (fields : List Byte) (s : State) :
    (doLoad k i p fields s).1.gate = s.gate := by
  have part (a : Assembly) : (takePart s a).1.gate = s.gate := by
    unfold takePart finishLoad
    dsimp only
    repeat' split
    all_goals rfl
  unfold doLoad
  split
  · exact part _
  · split
    · split
      · exact part _
      · rfl
    · rfl

theorem doCommit_gate (s : State) : (doCommit s).1.gate = s.gate := by
  unfold doCommit
  repeat' split
  all_goals rfl

theorem acceptUnlock_moves (w : Work) : Moves w.st (acceptUnlock w).st := by
  unfold acceptUnlock
  refine Moves.trans ?_ (lockoutCleared_moves (w.withSt _))
  refine (w.st.setFault_moves fun ⟨hh, ha, hn⟩ => ?_).trans
    ((State.raiseNotice_moves _ _ _).trans (State.requestPersist_moves _))
  exact ⟨hh, by simp only [FaultUnit.unlock]; omega, hn⟩

/-- The releases of a ready half: the writer that waits on it resumes, and the law of R155 holds again (R157, R158). -/
theorem afterRelease_keeps (t : TraceUnit) {half : Nat} (hh : half < 2) (h : t.ready half = true) :
    TraceKeeps t (afterRelease (t.setReady half false) half) := by
  have resume : ∀ u : TraceUnit, TraceKeeps { u with hold := false } (resumeWriter u) := by
    intro u
    have gap : TraceKeeps { u with hold := false } (writeGap { u with hold := false }) := by
      unfold writeGap
      split
      · exact TraceKeeps.refl _
      · exact TraceKeeps.trans (by exact traceKeeps_of_writer rfl rfl rfl rfl rfl) (TraceUnit.write_keeps _ _)
    unfold resumeWriter
    dsimp only
    split
    · split
      · exact gap.trans (closeRecord_keeps _ _ _ _)
      · exact gap
    · exact gap
  have same : (t.setReady half false).pos = t.pos ∧ (t.setReady half false).hold = t.hold
      ∧ (t.setReady half false).mem = t.mem := by
    unfold TraceUnit.setReady
    split <;> exact ⟨rfl, rfl, rfl⟩
  obtain ⟨pos, hold, mem⟩ := same
  have cleared : (t.setReady half false).ready half = false := by
    unfold TraceUnit.setReady TraceUnit.ready
    split <;> rfl
  have other : ∀ k, k < 2 → k ≠ half → (t.setReady half false).ready k = t.ready k := by
    intro k hk hne
    unfold TraceUnit.setReady TraceUnit.ready
    split <;> split <;> grind
  have half_lt : halfOf t.pos < 2 := by rcases halfOf_le t.pos with e | e <;> omega
  unfold afterRelease
  rw [hold, pos]
  split
  · next waits =>
    simp only [Bool.and_eq_true, decide_eq_true_eq] at waits
    refine TraceKeeps.trans ⟨fun hs => ?_, fun hl => ?_⟩ (resume _)
    · exact ⟨by show (t.setReady half false).mem.length = 512; rw [mem]; exact hs.1,
        by show (t.setReady half false).pos < 512; rw [pos]; exact hs.2⟩
    · refine ⟨by show (t.setReady half false).pos < 512; rw [pos]; exact hl.1, ?_⟩
      show (t.setReady half false).ready (halfOf (t.setReady half false).pos) = false
      rw [pos, waits.2]
      exact cleared
  · next runs =>
    refine ⟨fun hs => ⟨by rw [mem]; exact hs.1, by rw [pos]; exact hs.2⟩, fun hl => ⟨by rw [pos]; exact hl.1, ?_⟩⟩
    rw [pos, hold]
    by_cases hhalf : halfOf t.pos = half
    · have : t.hold = true := by rw [← hl.2, hhalf]; exact h
      simp [this, hhalf] at runs
    · rw [other _ half_lt hhalf]; exact hl.2

theorem Work.release_st (w : Work) (half : Nat) :
    (w.release half).st = w.st.setTrace (afterRelease (w.st.trace.setReady half false) half) := by
  unfold Work.release
  simp only [Work.setTrace_st]
  rfl

theorem Work.release_moves (w : Work) {half : Nat} (hh : half < 2) (h : w.st.trace.ready half = true) :
    Moves w.st (w.release half).st := by
  rw [Work.release_st]
  exact w.st.setTrace_moves (afterRelease_keeps _ hh h)

theorem stopTop_moves (dst : Byte) (t : Nat) (w : Work) (h : w.st.gate.reply.length < 4) :
    Moves w.st (stopTop dst t w).st := by
  unfold stopTop
  split
  · next n ho hc =>
    refine (w.answer_moves dst _ h).trans (doEnter_moves (w := w.answer dst okEmpty) _ ?_)
    exact (State.admits_of_switchCheck (State.switchCheck_of_opt ho hc)).of_eq rfl rfl
  · exact w.answer_moves dst _ h
  · exact w.answer_moves dst _ h

/-- The operands that index something are in range (R169). -/
def Request.inRange : Request → Prop
  | .run n => n < 12
  | .setRole r _ => r < 12
  | .status page => page < 13
  | .traceRelease half => half < 2
  | _ => True

theorem readIndex_map_inRange {n : Nat} {b : Byte} {f : Nat → Request} {q : Request} (hf : ∀ i, i < n → (f i).inRange)
    (h : (readIndex n b).map f = some q) : q.inRange := by
  simp only [readIndex, Option.map_eq_some_iff, Option.ite_none_right_eq_some, Option.some.injEq] at h
  obtain ⟨i, ⟨hi, rfl⟩, rfl⟩ := h
  exact hf _ hi

/-- What the reading of a request says of its operands (R169). -/
theorem readRequest_inRange {sub : Nat} {p : List Byte} {q : Request} (h : readRequest sub p = some q) : q.inRange := by
  match sub, p, h with
  | 0, _, h => exact nomatch (show none = some q from h)
  | 1, [], h => exact nomatch (show none = some q from h)
  | 1, [_], h => exact nomatch (show none = some q from h)
  | 1, [_, _], h => exact nomatch (show none = some q from h)
  | 1, kd :: i :: pb :: fields, h =>
    change readLoad kd i pb fields = some q at h
    simp only [readLoad] at h
    repeat' split at h
    all_goals cases h
    trivial
  | 2, [img, kd, i, part], h =>
    change readRead img kd i part = some q at h
    simp only [readRead] at h
    repeat' split at h
    all_goals cases h
    all_goals trivial
  | 2, [], h => exact nomatch (show none = some q from h)
  | 2, [_], h => exact nomatch (show none = some q from h)
  | 2, [_, _], h => exact nomatch (show none = some q from h)
  | 2, [_, _, _], h => exact nomatch (show none = some q from h)
  | 2, _ :: _ :: _ :: _ :: _ :: _, h => exact nomatch (show none = some q from h)
  | 3, [], h | 4, [], h | 5, [], h | 6, [], h | 8, [], h | 10, [], h => cases h; trivial
  | 3, _ :: _, h | 4, _ :: _, h | 5, _ :: _, h | 6, _ :: _, h | 8, _ :: _, h | 10, _ :: _, h =>
    exact nomatch (show none = some q from h)
  | 7, [b], h => exact readIndex_map_inRange (fun _ => id) h
  | 11, [b], h => exact readIndex_map_inRange (fun _ => id) h
  | 13, [b], h => exact readIndex_map_inRange (fun _ => id) h
  | 7, [], h | 11, [], h | 13, [], h => exact nomatch (show none = some q from h)
  | 7, _ :: _ :: _, h | 11, _ :: _ :: _, h | 13, _ :: _ :: _, h => exact nomatch (show none = some q from h)
  | 9, [r, hi, lo], h => exact readIndex_map_inRange (f := fun r => .setRole r (n16 hi lo)) (fun _ => id) h
  | 12, [hi, lo, n], h =>
    rw [readRequest_traceRead] at h
    split at h
    · cases h; trivial
    · cases h
  | 9, [], h | 12, [], h => exact nomatch (show none = some q from h)
  | 9, [_], h | 12, [_], h => exact nomatch (show none = some q from h)
  | 9, [_, _], h | 12, [_, _], h => exact nomatch (show none = some q from h)
  | 9, _ :: _ :: _ :: _ :: _, h | 12, _ :: _ :: _ :: _ :: _, h => exact nomatch (show none = some q from h)
  | _ + 14, _, h => exact nomatch (show none = some q from h)

/-- The requests that reach the tables: what they change is more than a move. -/
def Request.stages : Request → Bool
  | .load .. | .discard | .commit => true
  | _ => false

/-- A request that leaves the tables, taken and answered (Table 39). -/
theorem perform_moves (dst : Byte) {q : Request} (hq : q.inRange) (w : Work) (hl : w.st.gate.reply.length < 4)
    (h : q.stages = false) : Moves w.st (perform dst q w).st := by
  have answered (r : Result) : Moves w.st (w.answer dst r).st := w.answer_moves dst r hl
  cases q with
  | load | discard | commit => cases h
  | read => exact answered _
  | demandOn =>
    show Moves w.st (doDemandOn dst w).st
    unfold doDemandOn
    dsimp only
    exact ((w.st.setDemand_moves true).trans (Work.answer_moves (w.withSt _) dst _ hl)).trans (actExamineDemand_moves _)
  | demandOff => exact (answered _).trans (clearDemand_moves false _)
  | run n =>
    show Moves w.st (doRun dst n w).st
    unfold doRun
    split
    · exact answered _
    · split
      · exact answered _
      · next hc =>
        split
        · exact (answered _).trans (doEnter_moves (w := w.answer dst okEmpty) _ ((State.admits_of_switchCheck hc).of_eq rfl rfl))
        · exact answered _
  | stop =>
    show Moves w.st (doStop dst w).st
    unfold doStop
    split
    · exact answered _
    · split
      · split
        · exact stopTop_moves dst _ w hl
        · exact answered _
      · exact answered _
  | setRole r v =>
    show Moves w.st (doSetRole dst r v w).st
    have h := referRole_moves false (show r < 12 from hq) v w
    have hg : (referRole false r v w).2.st.gate.reply = w.st.gate.reply := by
      unfold referRole
      dsimp only
      split
      · split <;> exact (changeRole_fixed _ _ _ _).reply
      · rfl
    unfold doSetRole
    split
    · exact answered _
    · dsimp only
      revert h hg
      generalize referRole false r v w = a
      intro h hg
      have placed : Moves w.st (a.1.place a.2).st ∧ (a.1.place a.2).st.gate.reply = w.st.gate.reply := by
        unfold Answer.place
        split
        · exact ⟨h.trans (State.placeSub_moves _ _ _), (State.placeSub_fixed _ _ _).reply.trans hg⟩
        · exact ⟨h, hg⟩
      exact placed.1.trans (Work.answer_moves _ _ _ (by rw [placed.2]; exact hl))
  | unlock =>
    show Moves w.st (doUnlock dst w).st
    unfold doUnlock
    split
    · exact answered _
    · exact (answered _).trans (acceptUnlock_moves _)
  | status page => exact answered _
  | traceRead i n => exact answered _
  | traceRelease half =>
    show Moves w.st (doRelease dst half w).st
    unfold doRelease
    split
    · next h => exact (answered _).trans (Work.release_moves (w.answer dst okEmpty) hq h)
    · exact answered _

/-- A request taken, and answered (Table 39). -/
theorem perform_ran (dst : Byte) {q : Request} (hq : q.inRange) (w : Work) (hl : w.st.gate.reply.length < 4)
    (hs : w.st.serving = true) (hc : w.st.committing = false ∨ q.always = true) : Ran w.st (perform dst q w).st := by
  have with_ {x : State × Result} (h : Ran w.st x.1) (hg : x.1.gate = w.st.gate) :
      Ran w.st (answerWith dst x w).st :=
    h.trans_moves (Work.answer_moves (w.withSt x.1) dst x.2 (by rw [Work.withSt_st, hg]; exact hl))
  cases q with
  | load k i p fields => exact with_ (doLoad_ran k i p fields w.st (by simpa [Request.always] using hc)) (doLoad_gate ..)
  | discard => exact with_ ((Start.discard w.st (by simpa [Request.always] using hc)).ran (Moves.refl _)) rfl
  | commit => exact with_ (doCommit_ran w.st (by simpa [Request.always] using hc) hs) (doCommit_gate _)
  | _ => exact (perform_moves dst hq w hl rfl).ran

theorem handle_ran (dst : Byte) (sub : Nat) (p : List Byte) (w : Work) (hl : w.st.gate.reply.length < 4)
    (hs : w.st.serving = true) : Ran w.st (handle dst sub p w).st := by
  unfold handle
  split
  · unfold badRequest
    split
    · exact Moves.ran ((w.st.assembly_moves none).trans (Work.answer_moves (w.withSt _) dst _ hl))
    · exact (w.answer_moves dst _ hl).ran
  · next q hq =>
    split
    · exact (w.answer_moves dst _ hl).ran
    · next hb =>
      refine perform_ran dst (readRequest_inRange hq) w hl hs ?_
      cases hc : w.st.committing <;> simp [hc] at hb ⊢
      exact hb

/-! ### Frames received -/

theorem controlArrival_ran (f : Frame) (w : Work) (hs : w.st.serving = true) : Ran w.st (controlArrival f w).st := by
  have seen : Moves w.st (w.st.seeSource f.src) := w.st.seeSource_moves f.src
  have serving : (w.st.seeSource f.src).serving = true := by
    unfold State.seeSource
    split <;> exact hs
  unfold controlArrival
  dsimp only
  refine seen.trans_ran ?_
  split
  · unfold manageFrame
    split
    · exact (Moves.refl _).ran
    · next hl =>
      have room : (w.withSt (w.st.seeSource f.src)).st.gate.reply.length < 4 := Nat.not_le.1 hl
      split
      · exact (Work.answer_moves (w.withSt (w.st.seeSource f.src)) _ _ room).ran
      · exact handle_ran _ _ _ (w.withSt (w.st.seeSource f.src)) room serving
  · exact controlOther_ran f (w.withSt (w.st.seeSource f.src))

theorem receive_ran (p : Port) (f : Frame) (gate : Frame → Work → Work) (s : State)
    (hg : ∀ w : Work, w.st.serving = true → Ran w.st (gate f w).st) : Ran s (receive p f gate s).st := by
  unfold receive
  split
  · refine (s.hear_moves p).trans_ran ?_
    dsimp only
    split
    · next h =>
      simp only [Bool.and_eq_true] at h
      exact hg (Work.idle (s.hear p .waiting)) h.2
    · exact (Moves.refl _).ran
  · exact (Moves.refl _).ran

theorem receiveControl_ran (f : Frame) (s : State) : Ran s (receive .control f controlArrival s).st :=
  receive_ran _ _ _ _ fun w => controlArrival_ran f w

theorem receiveField_ran (f : Frame) (s : State) : Ran s (receive .field f fieldArrival s).st :=
  receive_ran _ _ _ _ fun w _ => (fieldArrival_moves f w).ran

theorem request_ran {src : Byte} {sub : Nat} {p : List Byte} {s t : State} (h : request src sub p s = .next t) : Ran s t :=
  finish_ran (receiveControl_ran _ s) h

/-! ### Inputs, lines and timers -/

theorem State.compared_moves (s : State) (l : Nat) : Moves s (s.compared l) := s.setLine_moves l (by exact rfl)

theorem compareLine_moves (l : Nat) (w : Work) : Moves w.st (compareLine l w).st := w.st.compared_moves l

theorem settleExpired_moves (l : Nat) (w : Work) : Moves w.st (settleExpired l w).st := by
  unfold settleExpired
  split
  · exact (w.st.setLine_moves l (by exact rfl)).trans (compareLine_moves l (w.withSt _))
  · exact Moves.refl _

theorem senseChanged_ran (l : Nat) (on : Bool) (w : Work) : Ran w.st (senseChanged l on w).st := by
  unfold senseChanged
  split
  · exact (Moves.refl _).ran
  · have start : Start w.st (w.st.setSense l on) := .input w.st _ (by simp) rfl
    dsimp only
    split
    · split
      · exact start.ran (Moves.refl _)
      · exact start.ran (compareLine_moves l (w.withSt _))
    · exact start.ran (Moves.refl _)

theorem refreshExpired_moves (r : Nat) (s : State) : Moves s (refreshExpired r s) := by
  have renewed (w : Nat) : ClaimsKept (s.role r) ((s.role r).renew w) := by
    unfold RoleRun.renew
    split <;> exact ⟨rfl, rfl, rfl, rfl, rfl, rfl, rfl⟩
  unfold refreshExpired
  split
  · have h := renewed (s.tables.role r).confirmWindow
    refine (s.setRole_moves r ?_).trans (State.placeSub_moves _ _ _)
    exact ⟨h.claim, h.owner, h.applied, h.limit, h.lockout, h.sequence, h.frost⟩
  · exact Moves.refl s

theorem confirmExpired_moves (r : Nat) (w : Work) : Moves w.st (confirmExpired r w).st := by
  unfold confirmExpired
  split
  · exact w.st.setRole_moves r (by exact ⟨rfl, rfl, rfl, rfl, rfl, rfl, rfl⟩)
  · exact Moves.refl _

theorem heardExpired_moves (r : Nat) (s : State) : Moves s (heardExpired r s) := by
  unfold heardExpired
  split
  · exact s.setRole_moves r (by exact ⟨rfl, rfl, rfl, rfl, rfl, rfl, rfl⟩)
  · exact Moves.refl s

theorem regained_moves (s : State) : Moves s (regained s) := by
  unfold regained
  split
  · refine Moves.trans ?_ (State.requestPersist_moves _)
    refine s.setFault_moves fun h => ?_
    obtain ⟨hh, ha, hn⟩ := h
    exact ⟨hh, Nat.min_le_right _ _, hn⟩
  · exact Moves.refl s

theorem applyLimit_moves (w : Work) : Moves w.st (applyLimit w).st := by
  unfold applyLimit
  split
  · exact applySlots_moves _ _
  · exact Moves.refl _

theorem limitOpened_ran (s : State) : Ran s (limitOpened s).st := by
  have applied : Moves (s.setLimit false) (limitOpened s).st := applyLimit_moves (Work.idle (s.setLimit false))
  exact (Start.limit s false).ran applied

theorem frostMark_moves (w : Work) : Moves w.st (frostMark w).st := by
  unfold frostMark
  split
  · dsimp only
    rw [Work.frostMoved_st]
    exact (Move.marked w.st).run
  · exact Moves.refl _

theorem edgeRequest_moves (s : State) : Moves s (edgeRequest s).st := by
  unfold edgeRequest
  split
  · exact s.raiseNotice_moves _ _
  · exact acceptUnlock_moves (Work.idle s)

theorem commitCompleted_st (s : State) : (commitCompleted s).st = s.committed := by
  unfold commitCompleted
  simp only [Work.emit_st, Work.frostMoved_st, Work.idle_st]

/-! ### Every command -/

/-- Every command that reaches a next state is a run of moves with at most one other change. -/
theorem exec_ran {c : Instr} {s t : State} (h : exec c s = .next t) : Ran s t := by
  cases c with
  | deviceReset adr =>
    change Host.Outcome.next (if adr < 4 then s.restarted s.resetStore adr else s) = .next t at h
    cases h
    split
    · exact (Start.restarted s adr).ran (Moves.refl _)
    · exact (Moves.refl s).ran
  | powerOnImageCheck =>
    change execPowerOnImageCheck s = .next t at h
    unfold execPowerOnImageCheck at h
    split at h
    · next hp =>
      refine finish_ran ?_ h
      unfold imageChecked
      split
      · next u hu => exact (Start.activated s u hp hu).ran (Moves.refl _)
      · exact (Start.fallen s hp).ran (Moves.refl _)
    · exact (finishState_moves h).ran
  | frameReceiveDiscard p bytes ending => exact finishState_ran (s.discardFrame_moves p bytes ending).ran h
  | transmitStart p => exact finishState_ran (s.transmitStart_moves p).ran h
  | arbitrationLost p winner =>
    refine finishState_ran ?_ h
    split
    · exact s.setPort_ran p _
    · exact (Moves.refl s).ran
  | collision p =>
    refine finishState_ran ?_ h
    split
    · exact s.setPort_ran p _
    · exact (Moves.refl s).ran
  | frameSent p => exact finishState_ran (s.frameSent_moves p).ran h
  | controlFrame f => exact finish_ran (receiveControl_ran f s) h
  | driveInterception src dst sub payload => exact finish_ran (receiveControl_ran _ s) h
  | linkreset src sub => exact finish_ran (receiveControl_ran _ s) h
  | fieldFrame f => exact finish_ran (receiveField_ran f s) h
  | sample src dst sub payload => exact finish_ran (receiveField_ran _ s) h
  | state src dst sub payload => exact finish_ran (receiveField_ran _ s) h
  | inputLevelChange i high =>
    change execInputLevelChange i high s = .next t at h
    unfold execInputLevelChange at h
    split at h
    · exact (finishState_moves h).ran
    · refine finish_ran (Start.ran ?_ (Moves.refl _)) h
      cases i <;> exact Start.input s _ rfl rfl
  | pointSecondMark =>
    change execPointSecondMark s = .next t at h
    unfold execPointSecondMark at h
    split at h
    · exact finish_ran (Move.pointTimer s 0).run.ran h
    · exact (finishState_moves h).ran
  | holdExpiry c =>
    change execHoldExpiry c s = .next t at h
    unfold execHoldExpiry at h
    split at h
    · exact (finish_moves (w := startWith s _) h).ran
    · exact (finishState_moves h).ran
  | riseWindowExpiry =>
    change execRiseWindowExpiry s = .next t at h
    unfold execRiseWindowExpiry at h
    split at h
    · exact finish_ran (Work.setFlue_moves (Work.idle s) _).ran h
    · exact (finishState_moves h).ran
  | minDwellMark => exact (finish_moves (w := startWith s _) h).ran
  | maxDwellExpiry => exact (finish_moves (w := startWith s _) h).ran
  | frostSecondMark =>
    change execFrostSecondMark s = .next t at h
    unfold execFrostSecondMark at h
    split at h
    · exact finish_ran (Moves.ran ((Move.frostTimer s 0).run.trans (frostMark_moves (Work.idle _)))) h
    · exact (finishState_moves h).ran
  | refreshExpiry r => exact finishState_ran (refreshExpired_moves r s).ran h
  | confirmExpiry r => exact finish_ran (confirmExpired_moves r (Work.idle s)).ran h
  | heardTimerExpiry r => exact finishState_ran (heardExpired_moves r s).ran h
  | senseChange l on =>
    change execSenseChange l on s = .next t at h
    unfold execSenseChange at h
    split at h
    · exact finish_ran (senseChanged_ran l on (Work.idle s)) h
    · exact (finishState_moves h).ran
  | settleExpiry l => exact finish_ran (settleExpired_moves l (Work.idle s)).ran h
  | limitOpening =>
    change execLimitOpening s = .next t at h
    unfold execLimitOpening at h
    repeat' split at h
    · exact finish_ran (limitOpened_ran s) h
    · exact finishState_ran ((Start.limit s false).ran (Moves.refl _)) h
    · exact (finishState_moves h).ran
  | limitClosing =>
    change execLimitClosing s = .next t at h
    unfold execLimitClosing at h
    split at h
    · exact (finishState_moves h).ran
    · exact finish_ran ((Start.limit s true).ran (applyLimit_moves (Work.idle (s.setLimit true)))) h
  | unlockEdge =>
    change execUnlockEdge s = .next t at h
    have start : Start s (s.setUnlock true) := .input s _ rfl rfl
    unfold execUnlockEdge at h
    repeat' split at h
    · exact (finishState_moves h).ran
    · exact finish_ran (start.ran (edgeRequest_moves _)) h
    · exact finishState_ran (start.ran (Moves.refl _)) h
  | absenceTimerExpiry => exact finish_ran (absenceExpired_moves (Work.idle s)).ran h
  | regainExpiry => exact finishState_ran (regained_moves s).ran h
  | persistenceWriteComplete => exact finishState_ran ((Start.written s).ran (Moves.refl _)) h
  | commitCompletion =>
    change execCommitCompletion s = .next t at h
    unfold execCommitCompletion at h
    split at h
    · next hc => exact finish_ran (commitCompleted_st s ▸ (Start.committed s hc).ran (Moves.refl _)) h
    · exact (finishState_moves h).ran
  | quietInterval p => exact finishState_ran (s.quiet_ran p) h
  | unlockInputLeavesActiveLevel =>
    have start : Start s (s.setUnlock false) := .input s _ rfl rfl
    exact finishState_ran (start.ran (Moves.refl _)) h
  | powerLoss =>
    change Host.Outcome.next (if s.powered then s.unpowered else s) = .next t at h
    cases h
    split
    · exact (Start.unpowered s).ran (Moves.refl _)
    · exact (Moves.refl s).ran
  | _ => exact request_ran h

end Sys2Proof.Machine
end

section
/-! SUPPORT. What each move does, field by field, and the rule by which a law becomes a law of every step. -/

namespace Sys2Proof.Machine

/-! ### Entries of a list -/

theorem getD_set {α : Type} (l : List α) (i j : Nat) (x d : α) :
    (l.set i x).getD j d = if i = j ∧ j < l.length then x else l.getD j d := by
  by_cases h : i = j
  · subst h
    by_cases hl : i < l.length <;> simp [List.getD, hl]
  · simp [List.getD, h]

theorem getD_map_range {α : Type} (n j : Nat) (f : Nat → α) (d : α) :
    ((List.range n).map f).getD j d = if j < n then f j else d := by
  by_cases h : j < n <;> simp [List.getD, h]

theorem getD_replicate {α : Type} (n j : Nat) (x : α) : (List.replicate n x).getD j x = x := by
  by_cases h : j < n <;> simp [List.getD, h]

theorem getD_of_lt {α : Type} (l : List α) (d : α) {i : Nat} (h : i < l.length) : l.getD i d = l[i] := by
  rw [List.getD_eq_getElem?_getD, List.getElem?_eq_getElem h]
  rfl

theorem getD_of_ge {α : Type} (l : List α) (d : α) {i : Nat} (h : l.length ≤ i) : l.getD i d = d := by
  rw [List.getD_eq_getElem?_getD, List.getElem?_eq_none h]
  rfl

theorem getD_append_low {α : Type} (l k : List α) (d : α) (i : Nat) (h : i < l.length) : (l ++ k).getD i d = l.getD i d := by
  rw [List.getD_eq_getElem?_getD, List.getD_eq_getElem?_getD, List.getElem?_append_left h]

theorem getD_append_high {α : Type} (l k : List α) (d : α) (i : Nat) (h : l.length ≤ i) :
    (l ++ k).getD i d = k.getD (i - l.length) d := by
  rw [List.getD_eq_getElem?_getD, List.getD_eq_getElem?_getD, List.getElem?_append_right h]

theorem flatMap_agree {α β : Type} {l : List α} {f g : α → List β} (h : ∀ a ∈ l, f a = g a) : l.flatMap f = l.flatMap g := by
  rw [List.flatMap_def, List.flatMap_def, List.map_congr_left h]

theorem foldl_agree {α β : Type} (f g : β → α → β) (b : β) {l : List α} (h : ∀ b, ∀ a ∈ l, f b a = g b a) :
    l.foldl f b = l.foldl g b := by
  induction l generalizing b with
  | nil => rfl
  | cons a l ih =>
    rw [List.foldl_cons, List.foldl_cons, h b a List.mem_cons_self]
    exact ih _ fun b c hc => h b c (List.mem_cons_of_mem _ hc)

theorem getD_map_of_fixed {α : Type} (l : List α) (j : Nat) (f : α → α) (d : α) (h : f d = d) :
    (l.map f).getD j d = f (l.getD j d) := by
  by_cases hj : j < l.length <;> simp [List.getD, hj, h]

/-! ### The structural moves, field by field -/

theorem State.left_eq (s : State) : s.left = { s with seq := s.left.seq, circuits := s.left.circuits } := by
  unfold State.left
  split <;> rfl

theorem State.joined_eq (s : State) (n : Nat) :
    s.joined n = { s with seq := (s.joined n).seq, circuits := (s.joined n).circuits } := rfl

theorem State.released_eq (s : State) (n : Nat) :
    s.released n = { s with seq := (s.released n).seq, circuits := (s.released n).circuits } := rfl

theorem foldl_released_eq (l : List Nat) (s : State) : l.foldl State.released s =
    { s with seq := (l.foldl State.released s).seq, circuits := (l.foldl State.released s).circuits } := by
  induction l generalizing s with
  | nil => rfl
  | cons n l ih =>
    rw [List.foldl_cons]
    exact ih (s.released n)

theorem State.cleared_eq (s : State) : s.cleared = { s with seq := s.cleared.seq, circuits := s.cleared.circuits } :=
  congrArg (fun t : State => (t.setChain []).setRunning none) (foldl_released_eq s.seq.chain s)

theorem State.changedRole_eq (s : State) (carried : Bool) (r : Nat) (x : RoleRun) :
    s.changedRole carried r x = { s with
      roles := (s.changedRole carried r x).roles, lines := (s.changedRole carried r x).lines
      gate := { s.gate with slots := (s.changedRole carried r x).gate.slots } } := by
  unfold State.changedRole State.ownerOnly State.actOnTarget State.placeSub
  dsimp only
  repeat' split
  all_goals rfl

/-! ### The sizes of the part -/

theorem State.mappedCircuits_length (s : State) (f : CircuitEntry → CircuitRun → CircuitRun) :
    (s.mappedCircuits f).circuits.length = 6 := by simp [State.mappedCircuits]

/-- The Sequence Unit and the circuits have their sizes. -/
def State.chainSized (s : State) : Prop :=
  s.seq.runs.length = 12 ∧ s.seq.triggers.length = 12 ∧ s.circuits.length = 6

theorem State.left_chainSized {s : State} (h : s.chainSized) : s.left.chainSized := by
  obtain ⟨hr, ht, -⟩ := id h
  unfold State.left
  split
  · refine ⟨?_, ht, State.mappedCircuits_length _ _⟩
    simpa [State.mappedCircuits, State.discardSaved] using hr
  · exact h

theorem State.joined_chainSized {s : State} (n : Nat) (h : s.chainSized) : (s.joined n).chainSized := by
  obtain ⟨hr, ht, -⟩ := h
  exact ⟨hr, ht, State.mappedCircuits_length _ _⟩

theorem State.released_chainSized {s : State} (n : Nat) (h : s.chainSized) : (s.released n).chainSized := by
  obtain ⟨hr, ht, -⟩ := h
  refine ⟨?_, ht, State.mappedCircuits_length _ _⟩
  simpa [State.released, State.mappedCircuits, State.discardSaved] using hr

/-- What leaving keeps for each member, clearing the chain keeps. -/
theorem State.cleared_keeps {P : State → Prop} (hr : ∀ (s : State) (n : Nat), P s → P (s.released n))
    (he : ∀ s : State, P s → P ((s.setChain []).setRunning none)) {s : State} (h : P s) : P s.cleared := by
  have fold : ∀ (l : List Nat) (u : State), P u → P (l.foldl State.released u) := by
    intro l
    induction l with
    | nil => exact fun u hu => hu
    | cons n l ih => exact fun u hu => ih _ (hr u n hu)
  exact he _ (fold _ s h)

theorem State.cleared_chainSized {s : State} (h : s.chainSized) : s.cleared.chainSized :=
  State.cleared_keeps (P := State.chainSized) (fun _ n => State.released_chainSized n) (fun _ h => h) h

theorem State.changedRole_lengths (s : State) (carried : Bool) (r : Nat) (x : RoleRun) :
    let t := s.changedRole carried r x
    t.roles.length = s.roles.length ∧ t.lines.length = s.lines.length ∧ t.gate.slots.length = s.gate.slots.length := by
  unfold State.changedRole State.ownerOnly State.actOnTarget State.placeSub
  dsimp only
  repeat' split
  all_goals simp

theorem sized_of_chain {s : State} (h : s.sized) {u : SeqUnit} {c : List CircuitRun}
    (k : State.chainSized { s with seq := u, circuits := c }) : State.sized { s with seq := u, circuits := c } := by
  obtain ⟨p, q, -, -, -, r, l, rest⟩ := h
  obtain ⟨hr, ht, hc⟩ := k
  exact ⟨p, q, hr, ht, hc, r, l, rest⟩

theorem State.chainSized_of_sized {s : State} (h : s.sized) : s.chainSized := by
  obtain ⟨-, -, hr, ht, hc, -⟩ := h
  exact ⟨hr, ht, hc⟩

theorem State.left_sized {s : State} (h : s.sized) : s.left.sized := by
  have k := State.left_chainSized (State.chainSized_of_sized h)
  rw [State.left_eq] at k ⊢
  exact sized_of_chain h k

theorem State.joined_sized {s : State} (n : Nat) (h : s.sized) : (s.joined n).sized :=
  sized_of_chain h (State.joined_chainSized n (State.chainSized_of_sized h))

theorem State.cleared_sized {s : State} (h : s.sized) : s.cleared.sized := by
  have k := State.cleared_chainSized (State.chainSized_of_sized h)
  rw [State.cleared_eq] at k ⊢
  exact sized_of_chain h k

theorem State.changedRole_sized {s : State} (carried : Bool) (r : Nat) (x : RoleRun) (h : s.sized) :
    (s.changedRole carried r x).sized := by
  obtain ⟨hr, hl, hs⟩ := s.changedRole_lengths carried r x
  obtain ⟨p, q, a, b, c, roles, lines, sense, slots, rest⟩ := h
  rw [State.changedRole_eq]
  exact ⟨p, q, a, b, c, hr.trans roles, hl.trans lines, sense, hs.trans slots, rest⟩

theorem State.setPort_sized {s : State} (p : Port) (x : PortState) (h : s.sized) : (s.setPort p x).sized := by
  cases p <;> exact h

/-- Every move keeps the sizes. -/
theorem Move.sized {s t : State} (m : Move s t) (h : s.sized) : t.sized := by
  cases m with
  | enter n => exact State.joined_sized n (State.left_sized h)
  | call n => exact State.joined_sized n h
  | leave => exact State.left_sized h
  | clear => exact State.cleared_sized h
  | claims carried r x => exact State.changedRole_sized carried r x h
  | port p x => exact State.setPort_sized p x h
  | seq u k =>
    obtain ⟨-, runs, triggers⟩ := k
    obtain ⟨p, q, hr, ht, rest⟩ := h
    exact ⟨p, q, runs.trans hr, triggers ht, rest⟩
  | trace u k =>
    obtain ⟨p, q, a, b, c, d, e, f, g, i, mem, pos⟩ := h
    exact ⟨p, q, a, b, c, d, e, f, g, i, (k.sized ⟨mem, pos⟩)⟩
  | gate g k =>
    obtain ⟨p, q, a, b, c, d, e, f, slots, notices, rest⟩ := h
    exact ⟨p, q, a, b, c, d, e, f, k.slots.trans slots, k.notices.trans notices, rest⟩
  | marked =>
    obtain ⟨p, q, a, b, c, rest⟩ := h
    exact ⟨p, q, a, b, by simp [State.markedCircuits], rest⟩
  | blocked f k =>
    obtain ⟨p, q, a, b, c, rest⟩ := h
    exact ⟨p, q, a, b, State.mappedCircuits_length _ _, rest⟩
  | reading | ageing | cond | role | line => simpa [State.sized] using h
  | flue | fault | persist | pointTimer | frostTimer | assembly => exact h

/-- Every move keeps the bounds of the three queues. -/
theorem Move.queuesBounded {s t : State} (m : Move s t) (h : s.queuesBounded) : t.queuesBounded := by
  cases m with
  | enter n => rw [State.joined_eq, State.left_eq]; exact h
  | leave => rw [State.left_eq]; exact h
  | clear => rw [State.cleared_eq]; exact h
  | claims carried r x => rw [State.changedRole_eq]; exact h
  | port p x => cases p <;> exact h
  | gate g k =>
    obtain ⟨up, down, reply⟩ := h
    exact ⟨k.up up, k.down down, k.reply reply⟩
  | _ => exact h

end Sys2Proof.Machine
end

section
/-! SUPPORT. The sizes and the bounds of the queues, and the queue of commands: the laws O3 and O5. -/

namespace Sys2Proof.Machine

/-- A law that every move keeps, every change of `Start`, the passing of a decisecond and the taking of a command, every step
keeps. -/
theorem step_keeps {P : State → Prop} (hm : ∀ {s t : State}, Move s t → P s → P t)
    (hs : ∀ {s t : State}, Start s t → P s → P t) (tick : ∀ s, P s → P s.tick)
    (take : ∀ s rest, P s → P { s with pending := rest }) {s t : State} (h : step s = .next t) (hp : P s) : P t := by
  unfold step at h
  split at h
  · next c rest hq => exact (exec_ran h).keeps hm hs (take s rest hp)
  · cases h
    exact tick s hp

theorem State.tick_of_powered {s : State} (h : s.phase ≠ .off) : s.tick = { s with
      clock := s.clock + 1
      pointTimer := secondTick s.pointTimer
      conds := s.conds.mapIdx fun i c => c.tick (s.tables.cond i).hold
      flue := { s.flue with riseTimer := countDown s.flue.riseTimer }
      seq := { s.seq with running := s.seq.running.map Running.tick }
      frostTimer := secondTick s.frostTimer
      roles := s.roles.map RoleRun.tick
      lines := s.lines.map LineRun.tick
      gate := { s.gate with absence := countDown s.gate.absence }
      fault := { s.fault with regain := countDown s.fault.regain } } := if_neg h

/-- What a powered decisecond keeps, the passing of a decisecond keeps. -/
theorem State.tick_keeps {P : State → Prop} {s : State} (hp : P s) (h : s.phase ≠ .off → P s.tick) : P s.tick := by
  by_cases off : s.phase = .off
  · rw [State.tick, if_pos off]
    exact hp
  · exact h off

/-! ### The forms that the units take at their starts -/
theorem State.activated_eq (s : State) (t : Tables) : s.activated t = { s with
    phase := .normal, tables := t, staging := t, points := List.replicate 24 PointRun.empty
    conds := List.replicate 32 CondRun.reset, flue := FlueRun.reset, seq := SeqUnit.reset
    circuits := List.replicate 6 CircuitRun.reset, roles := (s.activated t).roles, lines := (s.activated t).lines
    gate := { s.gate with slots := (s.activated t).gate.slots } } := by
  dsimp only [State.activated, State.installRoles, State.freshUnits, State.emptyPoints, State.resetConds,
    State.setFlue, State.setSeq, State.setGate]

theorem State.fallen_eq (s : State) : s.fallen = { s with
    phase := .fallback, tables := Tables.initial, staging := Tables.initial, points := List.replicate 24 PointRun.empty
    conds := List.replicate 32 CondRun.reset, flue := FlueRun.reset, seq := SeqUnit.reset
    circuits := List.replicate 6 CircuitRun.reset
    lines := (List.range 8).map fun l => { commanded := decide (5 ≤ l), settle := none, mismatch := false } } := by
  dsimp only [State.fallen, State.fallbackLines, State.freshUnits, State.emptyPoints, State.resetConds,
    State.setFlue, State.setSeq, State.setGate]

theorem State.committed_eq (s : State) : s.committed = { s with
    phase := .normal, tables := s.staging, points := List.replicate 24 PointRun.empty
    conds := List.replicate 32 CondRun.reset, flue := FlueRun.reset, seq := s.committed.seq
    circuits := (List.range 6).map fun c => rederive (s.staging.circuit c) (s.circuit c)
    roles := s.committed.roles, lines := s.committed.lines
    gate := { s.gate with
      slots := s.committed.gate.slots, present := s.committed.gate.present, absence := s.committed.gate.absence }
    store := s.store.imageWritten s.staging s.fault.data } := by
  dsimp only [State.committed, State.commitPresence]
  split <;>
  dsimp only [State.installRoles, State.commitUnits, State.rederiveCircuits, State.emptyPoints, State.resetConds, State.setFlue, State.setSeq, State.setGate, State.circuit]


theorem State.committed_seq (s : State) : s.committed.seq =
    { SeqUnit.reset with demand := s.committed.seq.demand, purgeDue := s.seq.purgeDue } := by
  dsimp only [State.committed, State.commitPresence]
  split <;> rfl

theorem State.installRoles_eq (s : State) (base : Nat → RoleRun) (frost : Nat → Option Nat) (keep : Nat → Bool) :
    s.installRoles base frost keep = { s with
      roles := (s.installRoles base frost keep).roles, lines := (s.installRoles base frost keep).lines
      gate := { s.gate with slots := (s.installRoles base frost keep).gate.slots } } := rfl

theorem State.installRoles_lengths (s : State) (base : Nat → RoleRun) (frost : Nat → Option Nat) (keep : Nat → Bool) :
    (s.installRoles base frost keep).roles.length = 12 ∧ (s.installRoles base frost keep).lines.length = 8 ∧
      (s.installRoles base frost keep).gate.slots.length = 12 := by
  simp [State.installRoles]

theorem State.commitPresence_cases (s : State) (oldAddr : Nat) :
    s.commitPresence oldAddr = s ∨ s.commitPresence oldAddr =
      (s.setGate { s.gate with present := false, absence := none }).setSeq { s.seq with demand := false } := by
  unfold State.commitPresence
  split
  · exact .inr rfl
  · exact .inl rfl

theorem State.activated_sized {s : State} (t : Tables) (h : s.sized) : (s.activated t).sized := by
  obtain ⟨-, -, -, -, -, -, -, sense, -, notices, trace⟩ := h
  simp [State.sized, State.activated, State.installRoles, State.freshUnits, State.emptyPoints, State.resetConds, SeqUnit.reset,
    sense, notices, trace]

theorem State.fallen_sized {s : State} (h : s.sized) : s.fallen.sized := by
  obtain ⟨-, -, -, -, -, roles, -, sense, slots, notices, trace⟩ := h
  simp [State.sized, State.fallen, State.freshUnits, State.emptyPoints, State.resetConds, SeqUnit.reset, State.fallbackLines,
    roles, sense, slots, notices, trace]

theorem State.committed_sized {s : State} (h : s.sized) : s.committed.sized := by
  obtain ⟨-, -, -, -, -, -, -, sense, -, notices, trace⟩ := h
  unfold State.committed
  dsimp only
  rcases State.commitPresence_cases (s.commitUnits.installRoles (commitBase s s.commitUnits.tables) s.commitUnits.frostClaim
    (keepsMark s.tables s.commitUnits.tables)) s.tables.device.ctlAddr with e | e <;> rw [e]
  all_goals
    simp [State.sized, State.installRoles, State.commitUnits, State.rederiveCircuits, State.emptyPoints, State.resetConds,
      SeqUnit.committed, SeqUnit.reset, sense, notices, trace]

theorem State.reset_sized : State.reset.sized :=
  ⟨List.length_replicate, List.length_replicate, List.length_replicate, List.length_replicate, List.length_replicate,
    List.length_replicate, List.length_replicate, List.length_replicate, List.length_replicate, List.length_replicate,
    List.length_replicate, Nat.zero_lt_succ 511⟩

theorem sized_of_reset {s : State} (h : s.pins.sense.length = 8) (p : Pins) (hp : p = s.pins) (pending : List Instr)
    (order : HandoffOrder) (adr : Nat) (phase : Phase) (f : FaultUnit) (x : Store) :
    State.sized { State.reset with pending := pending, order := order, pins := p, mgmtAddr := adr, phase := phase, fault := f,
                                   store := x } := by
  subst hp
  obtain ⟨a, b, c, d, e, f, g, -, rest⟩ := State.reset_sized
  exact ⟨a, b, c, d, e, f, g, h, rest⟩

theorem writeCompleted_eq (s : State) : writeCompleted s = s.setStore (writeCompleted s).store := by
  unfold writeCompleted
  split <;> rfl

/-- Every change of `Start` keeps the sizes. -/
theorem Start.sized {s t : State} (m : Start s t) (h : s.sized) : t.sized := by
  cases m with
  | input p hs =>
    obtain ⟨a, b, c, d, e, f, g, sense, rest⟩ := h
    exact ⟨a, b, c, d, e, f, g, hs.trans sense, rest⟩
  | written => rw [writeCompleted_eq]; exact h
  | activated t => exact State.activated_sized t h
  | fallen => exact State.fallen_sized h
  | committed => exact State.committed_sized h
  | restarted adr => exact sized_of_reset h.2.2.2.2.2.2.2.1 _ rfl _ _ _ _ _ _
  | unpowered => exact sized_of_reset h.2.2.2.2.2.2.2.1 _ rfl _ _ _ _ _ _
  | _ => exact h

theorem Start.queuesBounded {s t : State} (m : Start s t) (h : s.queuesBounded) : t.queuesBounded := by
  cases m with
  | written => rw [writeCompleted_eq]; exact h
  | committed =>
    rw [State.committed_eq]
    exact h
  | activated t => rw [State.activated_eq]; exact h
  | fallen => rw [State.fallen_eq]; exact h
  | restarted adr => simp [State.queuesBounded, State.restarted, State.reset, Gate.reset]
  | unpowered => simp [State.queuesBounded, State.unpowered, State.reset, Gate.reset]
  | _ => exact h

theorem State.tick_sized {s : State} (h : s.sized) : s.tick.sized := by
  refine State.tick_keeps (P := State.sized) h fun on => ?_
  rw [State.tick_of_powered on]
  obtain ⟨a, b, c, d, e, f, g, rest⟩ := h
  exact ⟨a, List.length_mapIdx.trans b, c, d, e, List.length_map _ |>.trans f, List.length_map _ |>.trans g, rest⟩

theorem State.tick_queuesBounded {s : State} (h : s.queuesBounded) : s.tick.queuesBounded := by
  refine State.tick_keeps (P := State.queuesBounded) h fun on => ?_
  rw [State.tick_of_powered on]
  exact h

theorem step_sized {s t : State} (h : step s = .next t) (hs : s.sized) : t.sized :=
  step_keeps (P := State.sized) Move.sized Start.sized (fun _ => State.tick_sized) (fun _ _ h => h) h hs

/-! ### The queue of commands -/

theorem Start.queue {s t : State} (m : Start s t) : t.pending = s.pending ∧ t.order = s.order := by
  cases m with
  | written => rw [writeCompleted_eq]; exact ⟨rfl, rfl⟩
  | committed =>
    rw [State.committed_eq]
    exact ⟨rfl, rfl⟩
  | activated t => rw [State.activated_eq]; exact ⟨rfl, rfl⟩
  | fallen => rw [State.fallen_eq]; exact ⟨rfl, rfl⟩
  | _ => exact ⟨rfl, rfl⟩

end Sys2Proof.Machine

section
open Sys2Proof.Machine

/-- Settles O5: sizes and bounds, kept by every move and by every change with which a command begins. -/
theorem stepKeepsSizesAndQueues : Obligations.StepKeepsSizesAndQueues := by
  unfold Obligations.StepKeepsSizesAndQueues
  intro s t hs hq h
  exact ⟨step_sized h hs,
    step_keeps (P := State.queuesBounded) Move.queuesBounded Start.queuesBounded (fun _ => State.tick_queuesBounded)
      (fun _ _ h => h) h hq⟩

/-- Settles O3: no move and no change with which a command begins touches the queue or the free order. -/
theorem execKeepsQueue : Obligations.ExecKeepsQueue := by
  unfold Obligations.ExecKeepsQueue
  intro c s t h
  refine (exec_ran h).keeps (P := fun u => u.pending = s.pending ∧ u.order = s.order) ?_ ?_ ⟨rfl, rfl⟩
  · intro u v m k
    exact ⟨m.framed.pending.trans k.1, m.framed.order.trans k.2⟩
  · intro u v m k
    exact ⟨m.queue.1.trans k.1, m.queue.2.trans k.2⟩

end
end

section
/-! SUPPORT. The laws of the points (R10), of the lockout data (R145) and of the trace (R155), each kept by every step: O19, O48
and O50. -/

namespace Sys2Proof.Machine

/-! ### The window of a filtered value (R8 to R10) -/

theorem filterUpdate_between (k : Nat) (f v lo hi : Int) (hf : lo ≤ f ∧ f ≤ hi) (hv : lo ≤ v ∧ v ≤ hi) :
    lo ≤ filterUpdate k f v ∧ filterUpdate k f v ≤ hi := by
  have pos : (0 : Int) < 2 ^ k := Int.pow_pos (by decide)
  unfold filterUpdate
  rcases Int.le_total f v with h | h
  · have low : 0 ≤ (v - f).tdiv (2 ^ k) := Int.tdiv_nonneg (by omega) (Int.le_of_lt pos)
    have high : (v - f).tdiv (2 ^ k) ≤ v - f := Int.tdiv_le_self _ (by omega)
    omega
  · have low : 0 ≤ (f - v).tdiv (2 ^ k) := Int.tdiv_nonneg (by omega) (Int.le_of_lt pos)
    have high : (f - v).tdiv (2 ^ k) ≤ f - v := Int.tdiv_le_self _ (by omega)
    have flip : (v - f).tdiv (2 ^ k) = -(f - v).tdiv (2 ^ k) := by rw [← Int.neg_tdiv, Int.neg_sub]
    omega

/-- R10 for one record: a record that is not NONE has a filtered value within the window of its entry. -/
def PointRun.inWindow (e : PointEntry) (r : PointRun) : Prop :=
  r.quality ≠ .none → (r.filtered.any fun f => plausible e f) = true

theorem PointRun.inWindow_iff (e : PointEntry) (r : PointRun) : r.inWindow e ↔
    (r.quality ≠ .none → ∃ f, r.filtered = some f ∧ e.plausLo ≤ f ∧ f ≤ e.plausHi) := by
  unfold PointRun.inWindow
  cases r.filtered <;> simp [plausible]

theorem takeImplausible_inWindow {e : PointEntry} {r : PointRun} (c : Nat) (h : r.inWindow e) :
    (takeImplausible c r).inWindow e := by
  intro hq
  refine h fun none => hq ?_
  simp [takeImplausible, none]

theorem filteredAfter_between {e : PointEntry} {r : PointRun} {v : Int} (h : r.inWindow e) (hv : e.plausLo ≤ v ∧ v ≤ e.plausHi) :
    e.plausLo ≤ filteredAfter e r v ∧ filteredAfter e r v ≤ e.plausHi := by
  unfold filteredAfter
  split
  · next f hq hf =>
    obtain ⟨f', hf', hw⟩ := (PointRun.inWindow_iff e r).1 h (by rw [hq]; decide)
    rw [hf] at hf'
    cases hf'
    exact filterUpdate_between _ _ _ _ _ hw hv
  · exact hv

theorem afterReading_inWindow {e : PointEntry} {r : PointRun} (c : Nat)
    (he : e.kind = .contact → e.plausLo ≤ 0 ∧ 1 ≤ e.plausHi) (h : r.inWindow e) : (afterReading e r c).inWindow e := by
  unfold afterReading
  split
  · next hk =>
    refine (PointRun.inWindow_iff _ _).2 fun _ => ⟨contactValue c, rfl, ?_⟩
    obtain ⟨low, high⟩ := he hk
    unfold contactValue
    split <;> omega
  · split
    · next hp =>
      refine (PointRun.inWindow_iff _ _).2 fun _ => ⟨_, rfl, filteredAfter_between h ?_⟩
      simpa [plausible] using hp
    · exact takeImplausible_inWindow c h

theorem afterMark_inWindow {e : PointEntry} {r : PointRun} (h : r.inWindow e) : (afterMark e r).inWindow e := by
  unfold afterMark
  split
  · exact h
  · next hq => exact fun _ => h hq

theorem contact_of_windows {t : Tables} (h : t.contactWindows) (i : Nat) :
    (t.point i).kind = .contact → (t.point i).plausLo ≤ 0 ∧ 1 ≤ (t.point i).plausHi := by
  unfold Tables.point
  rw [List.getD_eq_getElem?_getD]
  intro hk
  cases hi : t.points[i]? with
  | none => rw [hi] at hk; cases hk
  | some e =>
    rw [hi] at hk
    exact h e (List.mem_of_getElem? hi) hk

theorem setPoint_filteredInWindow {s : State} {p : Nat} {x : PointRun} (h : s.filteredInWindow)
    (hx : p < 24 → x.inWindow (s.tables.point p)) : (s.setPoint p x).filteredInWindow := by
  intro i hi
  have e : (s.setPoint p x).point i = if p = i ∧ i < s.points.length then x else s.point i := getD_set _ _ _ _ _
  rw [e]
  split
  · next hc => obtain ⟨rfl, -⟩ := hc; exact hx hi
  · exact h i hi

/-- Every move keeps R10's law. -/
theorem Move.filteredInWindow {s t : State} (m : Move s t) (hc : s.tables.contactWindows) (h : s.filteredInWindow) :
    t.filteredInWindow := by
  cases m with
  | reading p c => exact setPoint_filteredInWindow h fun hp => afterReading_inWindow c (contact_of_windows hc p) (h p hp)
  | ageing p => exact setPoint_filteredInWindow h fun hp => afterMark_inWindow (h p hp)
  | enter n => rw [State.joined_eq, State.left_eq]; exact h
  | leave => rw [State.left_eq]; exact h
  | clear => rw [State.cleared_eq]; exact h
  | claims carried r x => rw [State.changedRole_eq]; exact h
  | port p x => cases p <;> exact h
  | _ => exact h

theorem emptyPoints_filteredInWindow {s : State} (h : s.points = List.replicate 24 PointRun.empty) : s.filteredInWindow := by
  intro i _ hq
  refine absurd ?_ hq
  unfold State.point
  rw [h, getD_replicate]
  rfl

theorem initial_contactWindows : Tables.initial.contactWindows := by
  intro e he hk
  rw [List.eq_of_mem_replicate he] at hk
  cases hk

theorem readPoint_contact {bs : List Byte} {e : PointEntry} (h : readPoint bs = some e) :
    e.kind = .contact → e.plausLo ≤ 0 ∧ 1 ≤ e.plausHi := by
  unfold readPoint at h
  split at h
  · split at h
    · dsimp only at h
      split at h
      · next hc =>
        cases h
        intro hk
        simp only [Bool.and_eq_true, Bool.or_eq_true, decide_eq_true_eq] at hc
        obtain ⟨-, hw⟩ := hc
        rcases hw with hw | hw
        · exact absurd hk (by simpa using hw)
        · exact hw
      · cases h
    · cases h
  · cases h

theorem stageEntry_contactWindows {t u : Tables} {k : TableKind} {i : Nat} {bs : List Byte} (h : stageEntry t k i bs = some u)
    (ht : t.contactWindows) : u.contactWindows := by
  unfold stageEntry at h
  split at h
  · cases h
  · split at h <;> obtain ⟨e, he, rfl⟩ := Option.map_eq_some_iff.1 h
    · intro x hx
      rcases List.mem_or_eq_of_mem_set hx with hx | rfl
      · exact ht x hx
      · exact readPoint_contact he
    all_goals exact ht

/-! ### What the store does with its image and its copies (R150, R166) -/

theorem Store.nextWrite_keeps (x : Store) (d : LockoutData) :
    (x.nextWrite d).image = x.image ∧ (x.nextWrite d).copy0 = x.copy0 ∧ (x.nextWrite d).copy1 = x.copy1 := by
  unfold Store.nextWrite
  split
  · exact ⟨rfl, rfl, rfl⟩
  · split
    · obtain ⟨image, copy0, copy1, -⟩ := Store.startWrite_keeps { x with again := false } d
      exact ⟨image, copy0, copy1⟩
    · exact ⟨rfl, rfl, rfl⟩

theorem Store.imageWritten_image (x : Store) (t : Tables) (d : LockoutData) : (x.imageWritten t d).image = some t :=
  (Store.nextWrite_keeps _ d).1

theorem Store.putCopy_image (x : Store) (w : CopyWrite) : (x.putCopy w).image = x.image := by
  unfold Store.putCopy
  split <;> rfl

theorem Store.lost_image (x : Store) : x.lost.image = x.image ∨ x.lost.image = none := by
  unfold Store.lost
  dsimp only
  split
  · exact .inl rfl
  · exact .inr rfl

/-- The image that a device reset finds: the one that stood, none, or the one being written (log 8). -/
theorem Store.aborted_image (x : Store) (staging : Tables) (fate : Nat) :
    (x.aborted staging fate).image = x.image ∨ (x.aborted staging fate).image = none ∨
      (x.commit = .writing ∧ (x.aborted staging fate).image = some staging) := by
  unfold Store.aborted
  dsimp only
  split
  · dsimp only
    split
    · exact .inr (.inl rfl)
    · exact .inl rfl
  · split
    · exact .inl rfl
    · by_cases hw : x.commit = .writing <;> cases x.write <;> simp [hw, Store.putCopy_image]

theorem Store.rewrite_image (x : Store) : x.rewrite.image = x.image := by
  unfold Store.rewrite
  split
  · rfl
  · exact (Store.startWrite_keeps x _).1

theorem writeCompleted_image (s : State) : (writeCompleted s).store.image = s.store.image := by
  unfold writeCompleted
  split
  · exact (Store.nextWrite_keeps _ _).1.trans (Store.putCopy_image _ _)
  · rfl

theorem State.resetStore_image (s : State) : s.resetStore.image = s.store.image ∨ s.resetStore.image = none ∨
    (s.store.commit = .writing ∧ s.phase ≠ .off ∧ s.resetStore.image = some s.staging) := by
  unfold State.resetStore
  split
  · exact .inl rfl
  · next on =>
    rcases s.store.aborted_image s.staging (Config.resetWriteFate s.clock) with h | h | ⟨h, h'⟩
    · exact .inl h
    · exact .inr (.inl h)
    · exact .inr (.inr ⟨h, on, h'⟩)

/-! ### R2 and R10 at every step -/

/-- R2 in all tables, and R10. -/
def State.windowsLaw (s : State) : Prop := s.contactWindows ∧ s.filteredInWindow

theorem Move.windowsLaw {s t : State} (m : Move s t) (h : s.windowsLaw) : t.windowsLaw := by
  obtain ⟨⟨active, staging, image⟩, filtered⟩ := h
  have f := m.framed
  refine ⟨⟨?_, ?_, ?_⟩, m.filteredInWindow active filtered⟩
  · rw [f.tables]; exact active
  · rw [f.staging]; exact staging
  · rw [f.image]; exact image

theorem Start.windowsLaw {s t : State} (m : Start s t) (h : s.windowsLaw) : t.windowsLaw := by
  obtain ⟨⟨active, staging, image⟩, filtered⟩ := id h
  cases m with
  | stage t k i bs hb => exact ⟨⟨active, stageEntry_contactWindows hb staging, image⟩, filtered⟩
  | discard => exact ⟨⟨active, active, image⟩, filtered⟩
  | written =>
    have e := writeCompleted_image s
    rw [writeCompleted_eq] at e ⊢
    exact ⟨⟨active, staging, e.symm ▸ image⟩, filtered⟩
  | activated t hp ht =>
    rw [State.activated_eq]
    exact ⟨⟨image t ht, image t ht, image⟩, emptyPoints_filteredInWindow rfl⟩
  | fallen =>
    rw [State.fallen_eq]
    exact ⟨⟨initial_contactWindows, initial_contactWindows, image⟩, emptyPoints_filteredInWindow rfl⟩
  | committed =>
    rw [State.committed_eq]
    refine ⟨⟨staging, staging, fun t ht => ?_⟩, emptyPoints_filteredInWindow rfl⟩
    rw [Store.imageWritten_image] at ht
    cases ht
    exact staging
  | restarted adr =>
    refine ⟨⟨initial_contactWindows, initial_contactWindows, fun t ht => ?_⟩, emptyPoints_filteredInWindow rfl⟩
    change s.resetStore.rewrite.image = some t at ht
    rw [Store.rewrite_image] at ht
    rcases s.resetStore_image with e | e | ⟨-, -, e⟩ <;> rw [e] at ht
    · exact image t ht
    · cases ht
    · cases ht; exact staging
  | unpowered =>
    refine ⟨⟨initial_contactWindows, initial_contactWindows, fun t ht => ?_⟩, emptyPoints_filteredInWindow rfl⟩
    change s.store.lost.image = some t at ht
    rcases s.store.lost_image with e | e <;> rw [e] at ht
    · exact image t ht
    · cases ht
  | _ => exact h

theorem State.tick_windowsLaw {s : State} (h : s.windowsLaw) : s.tick.windowsLaw := by
  refine State.tick_keeps (P := State.windowsLaw) h fun on => ?_
  rw [State.tick_of_powered on]
  exact h

/-! ### R155 at every step -/

theorem Move.traceLaw {s t : State} (m : Move s t) (h : s.traceLaw) : t.traceLaw := by
  cases m with
  | trace t k => exact k.lawful h
  | enter n => rw [State.joined_eq, State.left_eq]; exact h
  | leave => rw [State.left_eq]; exact h
  | clear => rw [State.cleared_eq]; exact h
  | claims carried r x => rw [State.changedRole_eq]; exact h
  | port p x => cases p <;> exact h
  | _ => exact h

theorem traceLaw_of_reset {s : State} (h : s.trace = TraceUnit.reset) : s.traceLaw := by
  unfold State.traceLaw
  rw [h]
  exact ⟨Nat.zero_lt_succ 511, rfl⟩

theorem Start.traceLaw {s t : State} (m : Start s t) (h : s.traceLaw) : t.traceLaw := by
  cases m with
  | written => rw [writeCompleted_eq]; exact h
  | activated t => rw [State.activated_eq]; exact h
  | fallen => rw [State.fallen_eq]; exact h
  | committed => rw [State.committed_eq]; exact h
  | restarted adr => exact traceLaw_of_reset rfl
  | unpowered => exact traceLaw_of_reset rfl
  | _ => exact h

theorem State.tick_traceLaw {s : State} (h : s.traceLaw) : s.tick.traceLaw := by
  refine State.tick_keeps (P := State.traceLaw) h fun on => ?_
  rw [State.tick_of_powered on]
  exact h

/-! ### R145 at every step -/

/-- R145 in what the store holds and writes. -/
structure Store.lawful (x : Store) : Prop where
  copy0 : ∀ c, x.copy0 = some c → c.data.lawful
  copy1 : ∀ c, x.copy1 = some c → c.data.lawful
  write : ∀ w, x.write = some w → w.copy.data.lawful

theorem initial_lawful : LockoutData.initial.lawful := ⟨Nat.zero_le 6, Nat.le_refl 3, Nat.zero_le 65535⟩

theorem Store.startWrite_lawful {x : Store} {d : LockoutData} (h : x.lawful) (hd : d.lawful) : (x.startWrite d).lawful := by
  obtain ⟨copy0, copy1, -⟩ := h
  unfold Store.startWrite
  split <;> exact ⟨copy0, copy1, fun w hw => by cases hw; exact hd⟩

theorem Store.nextWrite_lawful {x : Store} {d : LockoutData} (h : x.lawful) (hd : d.lawful) : (x.nextWrite d).lawful := by
  unfold Store.nextWrite
  split
  · exact ⟨h.copy0, h.copy1, h.write⟩
  · split
    · exact Store.startWrite_lawful ⟨h.copy0, h.copy1, h.write⟩ hd
    · exact h

theorem Store.imageWritten_lawful {x : Store} {d : LockoutData} (h : x.lawful) (t : Tables) (hd : d.lawful) :
    (x.imageWritten t d).lawful := by
  have image : Store.lawful { x with image := some t, commit := .none } := ⟨h.copy0, h.copy1, h.write⟩
  exact Store.nextWrite_lawful image hd

theorem Store.putCopy_lawful {x : Store} {w : CopyWrite} (h : x.lawful) (hw : w.copy.data.lawful) : (x.putCopy w).lawful := by
  unfold Store.putCopy
  split
  · exact ⟨fun c hc => by cases hc; exact hw, h.copy1, h.write⟩
  · exact ⟨h.copy0, fun c hc => by cases hc; exact hw, h.write⟩

theorem Store.lost_lawful {x : Store} (h : x.lawful) : x.lost.lawful := by
  obtain ⟨copy0, copy1, -⟩ := h
  refine ⟨fun c hc => ?_, fun c hc => ?_, fun w hw => nomatch hw⟩ <;> unfold Store.lost at hc <;> dsimp only at hc <;>
    split at hc
  · split at hc
    · cases hc
    · exact copy0 c hc
  · exact copy0 c hc
  · split at hc
    · exact copy1 c hc
    · cases hc
  · exact copy1 c hc

theorem Store.aborted_lawful {x : Store} (h : x.lawful) (staging : Tables) (fate : Nat) : (x.aborted staging fate).lawful := by
  have stopped : Store.lawful { x with write := none, again := false, commit := .none } :=
    ⟨h.copy0, h.copy1, fun w hw => nomatch hw⟩
  have written (y : Store) (hy : y.lawful) :
      (match x.write with | some w => y.putCopy w | none => y).lawful := by
    split
    · next w hw => exact Store.putCopy_lawful hy (h.write w hw)
    · exact hy
  unfold Store.aborted
  dsimp only
  split
  · exact ⟨(Store.lost_lawful h).copy0, (Store.lost_lawful h).copy1, (Store.lost_lawful h).write⟩
  · split
    · exact stopped
    · refine written _ ?_
      split
      · exact ⟨stopped.copy0, stopped.copy1, stopped.write⟩
      · exact stopped

theorem Store.newer_lawful {x : Store} (h : x.lawful) {i : Nat} {c : Copy} (hc : x.newer = some (i, c)) : c.data.lawful := by
  unfold Store.newer at hc
  split at hc
  · cases hc
  · next a ha hb => cases hc; exact h.copy0 _ ha
  · next b ha hb => cases hc; exact h.copy1 _ hb
  · next a b ha hb =>
    split at hc <;> cases hc
    · exact h.copy1 _ hb
    · exact h.copy0 _ ha

theorem Store.restored_lawful {x : Store} (h : x.lawful) : x.restored.lawful := by
  unfold Store.restored
  split
  · next hn => exact Store.newer_lawful h hn
  · exact initial_lawful

theorem Store.rewrite_lawful {x : Store} (h : x.lawful) : x.rewrite.lawful := by
  unfold Store.rewrite
  split
  · exact h
  · have k := Store.startWrite_lawful h initial_lawful
    exact ⟨k.copy0, k.copy1, k.write⟩

theorem State.lockoutLaw_iff (s : State) : s.lockoutLaw ↔ s.fault.data.lawful ∧ s.store.lawful :=
  ⟨fun ⟨d, a, b, w⟩ => ⟨d, a, b, w⟩, fun ⟨d, a, b, w⟩ => ⟨d, a, b, w⟩⟩

theorem State.requestPersist_lockoutLaw {s : State} (h : s.lockoutLaw) : s.requestPersist.lockoutLaw := by
  rw [State.lockoutLaw_iff] at h ⊢
  obtain ⟨hd, hx⟩ := h
  refine ⟨hd, ?_⟩
  change Store.lawful (if _ then _ else _)
  split
  · exact ⟨hx.copy0, hx.copy1, hx.write⟩
  · exact Store.startWrite_lawful hx hd

theorem Move.lockoutLaw {s t : State} (m : Move s t) (h : s.lockoutLaw) : t.lockoutLaw := by
  cases m with
  | fault f k => exact ⟨k h.1, h.2⟩
  | persist => exact State.requestPersist_lockoutLaw h
  | enter n => rw [State.joined_eq, State.left_eq]; exact h
  | leave => rw [State.left_eq]; exact h
  | clear => rw [State.cleared_eq]; exact h
  | claims carried r x => rw [State.changedRole_eq]; exact h
  | port p x => cases p <;> exact h
  | _ => exact h

theorem writeCompleted_lockoutLaw {s : State} (h : s.lockoutLaw) : (writeCompleted s).lockoutLaw := by
  rw [State.lockoutLaw_iff] at h
  obtain ⟨hd, hx⟩ := h
  unfold writeCompleted
  split
  · next w hw =>
    have idle : Store.lawful { s.store with write := none } := ⟨hx.copy0, hx.copy1, fun w hw => nomatch hw⟩
    exact (State.lockoutLaw_iff _).2 ⟨hd, Store.nextWrite_lawful (Store.putCopy_lawful idle (hx.write w hw)) hd⟩
  · exact (State.lockoutLaw_iff _).2 ⟨hd, hx⟩

theorem State.resetStore_lawful {s : State} (h : s.store.lawful) : s.resetStore.lawful := by
  unfold State.resetStore
  split
  · exact h
  · exact Store.aborted_lawful h _ _

theorem Start.lockoutLaw {s t : State} (m : Start s t) (h : s.lockoutLaw) : t.lockoutLaw := by
  obtain ⟨hd, hx⟩ := (State.lockoutLaw_iff s).1 h
  cases m with
  | written => exact writeCompleted_lockoutLaw h
  | commit => exact h
  | activated t => rw [State.activated_eq]; exact h
  | fallen => rw [State.fallen_eq]; exact h
  | committed =>
    rw [State.committed_eq]
    exact (State.lockoutLaw_iff _).2 ⟨hd, Store.imageWritten_lawful hx s.staging hd⟩
  | restarted adr =>
    have k := State.resetStore_lawful hx
    exact (State.lockoutLaw_iff _).2 ⟨Store.restored_lawful k, Store.rewrite_lawful k⟩
  | unpowered => exact (State.lockoutLaw_iff _).2 ⟨initial_lawful, Store.lost_lawful hx⟩
  | _ => exact h

theorem State.tick_lockoutLaw {s : State} (h : s.lockoutLaw) : s.tick.lockoutLaw := by
  refine State.tick_keeps (P := State.lockoutLaw) h fun on => ?_
  rw [State.tick_of_powered on]
  exact h

end Sys2Proof.Machine

section
open Sys2Proof.Machine

/-- Settles O19: a reading filters between two values of its window, and every table has its contact windows. -/
theorem stepKeepsFilteredInWindow : Obligations.StepKeepsFilteredInWindow := by
  unfold Obligations.StepKeepsFilteredInWindow
  intro s t hc hf h
  exact step_keeps (P := State.windowsLaw) Move.windowsLaw Start.windowsLaw (fun _ => State.tick_windowsLaw) (fun _ _ h => h) h
    ⟨hc, hf⟩

/-- Settles O48: every set of lockout data is made from a lawful one. -/
theorem stepKeepsLockoutLaw : Obligations.StepKeepsLockoutLaw := by
  unfold Obligations.StepKeepsLockoutLaw
  intro s t hs h
  exact step_keeps (P := State.lockoutLaw) Move.lockoutLaw Start.lockoutLaw (fun _ => State.tick_lockoutLaw) (fun _ _ h => h) h hs

/-- Settles O50: the Trace Unit alone changes the trace, and each of its changes keeps its law. -/
theorem stepKeepsTraceLaw : Obligations.StepKeepsTraceLaw := by
  unfold Obligations.StepKeepsTraceLaw
  intro s t hs h
  exact step_keeps (P := State.traceLaw) Move.traceLaw Start.traceLaw (fun _ => State.tick_traceLaw) (fun _ _ h => h) h hs

end
end

section
/-! SUPPORT. The laws of the chain and the circuits (R81, R104), of the roles (R116) and of the lines (R118), and the checks of the
tables (R165), each kept by every step: O33, O39, O41 and the first half of O55. -/

namespace Sys2Proof.Machine

/-! ### The circuits that fire (R104) -/

/-- Debts within their range, and a circuit in use FIRING only for a sequence of the list. -/
def State.firesFor (s : State) (l : List Nat) : Prop :=
  ∀ c, c < 6 → (s.circuit c).debt ≤ debtLimit ∧
    ((s.tables.circuit c).inUse = true → (s.circuit c).stage = .firing → ∃ n ∈ l, (s.tables.circuit c).tier2 = some n)

theorem tier2OnChain_eq_true_iff (s : State) (c : Nat) :
    s.tier2OnChain c = true ↔ ∃ n ∈ s.seq.chain, (s.tables.circuit c).tier2 = some n := by
  unfold State.tier2OnChain State.active
  split <;> simp_all

theorem State.frostLaw_iff (s : State) : s.frostLaw ↔ s.firesFor s.seq.chain := by
  simp only [State.frostLaw, State.firesFor, tier2OnChain_eq_true_iff]

theorem State.mappedCircuits_circuit (s : State) (f : CircuitEntry → CircuitRun → CircuitRun) {c : Nat} (hc : c < 6) :
    (s.mappedCircuits f).circuit c =
      if (s.tables.circuit c).inUse = true then f (s.tables.circuit c) (s.circuit c) else s.circuit c := by
  have e := getD_map_range 6 c (fun c =>
      if (s.tables.circuit c).inUse = true then f (s.tables.circuit c) (s.circuit c) else s.circuit c) CircuitRun.reset
  rw [if_pos hc] at e
  exact e

/-- A change of the circuits in use keeps the law when it keeps the debts and fires only for the new list. -/
theorem State.mappedCircuits_firesFor {s : State} {f : CircuitEntry → CircuitRun → CircuitRun} {l l' : List Nat}
    (debt : ∀ e c, (f e c).debt = c.debt)
    (stage : ∀ e c, (f e c).stage = .firing → (c.stage = .firing → ∃ n ∈ l, e.tier2 = some n) → ∃ n ∈ l', e.tier2 = some n)
    (h : s.firesFor l) : (s.mappedCircuits f).firesFor l' := by
  intro c hc
  obtain ⟨low, fires⟩ := h c hc
  rw [State.mappedCircuits_circuit s f hc]
  split
  · next used => exact ⟨(debt _ _).symm ▸ low, fun _ hf => stage _ _ hf (fires used)⟩
  · next unused => exact ⟨low, fun used => absurd used unused⟩

theorem releasedBy_firesFor {s : State} {n : Nat} {l : List Nat} (h : s.firesFor (n :: l)) :
    (s.mappedCircuits (releasedBy n)).firesFor l := by
  refine State.mappedCircuits_firesFor (fun e c => ?_) (fun e c hf old => ?_) h <;> unfold releasedBy at *
  · split <;> rfl
  · split at hf
    · cases hf
    · next other =>
      obtain ⟨m, hm, ht⟩ := old hf
      rcases List.mem_cons.1 hm with rfl | hm
      · exact absurd ⟨hf, ht⟩ other
      · exact ⟨m, hm, ht⟩

theorem firedBy_firesFor {s : State} {n : Nat} {l : List Nat} (h : s.firesFor l) :
    (s.mappedCircuits (firedBy n)).firesFor (n :: l) := by
  refine State.mappedCircuits_firesFor (fun e c => ?_) (fun e c hf old => ?_) h <;> unfold firedBy at *
  · split <;> rfl
  · split at hf
    · next hc => exact ⟨n, by simp, hc.2⟩
    · obtain ⟨m, hm, ht⟩ := old hf
      exact ⟨m, List.mem_cons_of_mem n hm, ht⟩

theorem foldl_released_firesFor (l : List Nat) {s : State} (h : s.firesFor l) : (l.foldl State.released s).firesFor [] := by
  induction l generalizing s with
  | nil => exact h
  | cons n l ih => exact ih (releasedBy_firesFor (s := s.discardSaved n) h)

theorem debtAfter_le {debt : Nat} (d : Int) (h : debt ≤ debtLimit) : debtAfter debt d ≤ debtLimit := by
  unfold debtAfter
  split
  · exact Nat.min_le_right _ _
  · omega

theorem stageAfter_firing_onChain {e : CircuitEntry} {stage : Stage} {debt : Nat} {v : Option Int} {onChain : Bool}
    (h : stageAfter e stage debt v onChain = .firing) : stage = .firing ∨ onChain = true := by
  cases stage with
  | firing => exact .inl rfl
  | quiet => unfold stageAfter at h; dsimp only at h; split at h <;> cases h
  | firingRequested => unfold stageAfter at h; dsimp only at h; split at h <;> cases h
  | circulate =>
    unfold stageAfter at h
    dsimp only at h
    split at h
    · cases onChain
      · cases h
      · exact .inr rfl
    · split at h <;> cases h

theorem markedCircuits_circuit (s : State) {c : Nat} (hc : c < 6) : s.markedCircuits.circuit c = s.markedCircuit c := by
  have e := getD_map_range 6 c s.markedCircuit CircuitRun.reset
  rw [if_pos hc] at e
  exact e

theorem markedCircuits_firesFor {s : State} (h : s.firesFor s.seq.chain) : s.markedCircuits.firesFor s.seq.chain := by
  intro c hc
  obtain ⟨low, fires⟩ := h c hc
  rw [markedCircuits_circuit s hc]
  unfold State.markedCircuit
  split
  · next used =>
    refine ⟨debtAfter_le _ low, fun _ hf => ?_⟩
    rcases stageAfter_firing_onChain hf with hs | hs
    · exact fires used hs
    · exact (tier2OnChain_eq_true_iff s c).1 hs
  · next unused => exact ⟨low, fun used => absurd used unused⟩

/-! ### The chain (R81) -/

/-- The laws of the chain and of the circuits together. -/
def State.unitsLaw (s : State) : Prop := s.chainLaw ∧ s.firesFor s.seq.chain

theorem State.left_unitsLaw {s : State} (h : s.unitsLaw) : s.left.unitsLaw := by
  obtain ⟨⟨short, nodup, used⟩, fires⟩ := id h
  unfold State.left
  split
  · next n rest hq =>
    rw [hq] at short nodup used fires
    have left := releasedBy_firesFor (s := ((s.discardSaved n).setChain rest).setRunning none) fires
    exact ⟨⟨Nat.le_of_succ_le short, nodup.of_cons, fun m hm => used m (List.mem_cons_of_mem n hm)⟩, left⟩
  · exact h

theorem State.left_chain (s : State) : s.left.seq.chain = s.seq.chain.tail := by
  unfold State.left
  split
  · next h => rw [h]; rfl
  · next h => rw [h]; rfl

theorem State.joined_unitsLaw {s : State} {n : Nat} (h : s.unitsLaw) (range : n < 12) (inUse : (s.tables.seq n).inUse = true)
    (off : n ∉ s.seq.chain) (room : s.seq.chain.length < 4) : (s.joined n).unitsLaw := by
  obtain ⟨⟨-, nodup, used⟩, fires⟩ := h
  have joined := firedBy_firesFor (n := n) (s := (s.setChain (n :: s.seq.chain)).setRunning none) fires
  refine ⟨⟨room, List.nodup_cons.2 ⟨off, nodup⟩, fun m hm => ?_⟩, joined⟩
  rcases List.mem_cons.1 hm with rfl | hm
  · exact ⟨range, inUse⟩
  · exact used m hm

theorem State.entered_unitsLaw {s : State} {n : Nat} (h : s.unitsLaw) (ok : s.admits n) : (s.left.joined n).unitsLaw := by
  have e := s.left_chain
  have room : s.left.seq.chain.length < 4 := by
    obtain ⟨⟨short, -⟩, -⟩ := h
    rw [e, List.length_tail]
    omega
  refine State.joined_unitsLaw (State.left_unitsLaw h) ok.range ?_ (fun hm => ok.off ?_) room
  · rw [s.left_fixed.tables]; exact ok.inUse
  · rw [e] at hm; exact List.mem_of_mem_tail hm

theorem unitsLaw_of_empty {s : State} (hc : s.seq.chain = []) (h : s.firesFor []) : s.unitsLaw := by
  refine ⟨⟨?_, ?_, ?_⟩, ?_⟩ <;> rw [hc]
  · exact Nat.zero_le 4
  · exact List.nodup_nil
  · exact fun n hn => nomatch hn
  · exact h

theorem State.cleared_unitsLaw {s : State} (h : s.unitsLaw) : s.cleared.unitsLaw :=
  unitsLaw_of_empty rfl (foldl_released_firesFor s.seq.chain h.2)

theorem Move.unitsLaw {s t : State} (m : Move s t) (h : s.unitsLaw) : t.unitsLaw := by
  cases m with
  | seq u k =>
    unfold State.unitsLaw State.chainLaw
    rw [State.setSeq_seq, k.chain]
    exact h
  | enter n ok => exact State.entered_unitsLaw h ok
  | call n ok room => exact State.joined_unitsLaw h ok.range ok.inUse ok.off room
  | leave => exact State.left_unitsLaw h
  | clear => exact State.cleared_unitsLaw h
  | marked => exact ⟨h.1, markedCircuits_firesFor h.2⟩
  | blocked f k =>
    refine ⟨h.1, State.mappedCircuits_firesFor (fun e c => (k e c).2) (fun e c hf old => ?_) h.2⟩
    rw [(k e c).1] at hf
    exact old hf
  | claims carried r x => rw [State.changedRole_eq]; exact h
  | port p x => cases p <;> exact h
  | _ => exact h

theorem firesFor_of_reset {s : State} (h : s.circuits = List.replicate 6 CircuitRun.reset) : s.firesFor [] := by
  intro c _
  have e : s.circuit c = CircuitRun.reset := by
    unfold State.circuit
    rw [h, getD_replicate]
  rw [e]
  exact ⟨Nat.zero_le _, fun _ hf => nomatch hf⟩

theorem rederive_debt_le {e : CircuitEntry} {c : CircuitRun} (h : c.debt ≤ debtLimit) : (rederive e c).debt ≤ debtLimit := by
  unfold rederive
  split
  · exact h
  · exact Nat.zero_le _

theorem rederive_stage (e : CircuitEntry) (c : CircuitRun) : (rederive e c).stage ≠ .firing := by
  unfold rederive
  split
  · dsimp only
    split <;> decide
  · decide

theorem Start.unitsLaw {s t : State} (m : Start s t) (h : s.unitsLaw) : t.unitsLaw := by
  cases m with
  | written => rw [writeCompleted_eq]; exact h
  | activated t => rw [State.activated_eq]; exact unitsLaw_of_empty rfl (firesFor_of_reset rfl)
  | fallen => rw [State.fallen_eq]; exact unitsLaw_of_empty rfl (firesFor_of_reset rfl)
  | committed =>
    refine unitsLaw_of_empty (by rw [State.committed_seq]; rfl) fun c hc => ?_
    have e : s.committed.circuit c = rederive (s.staging.circuit c) (s.circuit c) := by
      have k := getD_map_range 6 c (fun c => rederive (s.staging.circuit c) (s.circuit c)) CircuitRun.reset
      rw [if_pos hc] at k
      rw [State.committed_eq]
      exact k
    rw [e]
    exact ⟨rederive_debt_le (h.2 c hc).1, fun _ hf => absurd hf (rederive_stage _ _)⟩
  | restarted adr => exact unitsLaw_of_empty rfl (firesFor_of_reset rfl)
  | unpowered => exact unitsLaw_of_empty rfl (firesFor_of_reset rfl)
  | _ => exact h

theorem State.tick_unitsLaw {s : State} (h : s.unitsLaw) : s.tick.unitsLaw := by
  refine State.tick_keeps (P := State.unitsLaw) h fun on => ?_
  rw [State.tick_of_powered on]
  exact h

/-! ### The roles (R116) -/

/-- The law of R116 on one role. -/
def RoleRun.lawful (x : RoleRun) : Prop := (x.owner, x.applied) = x.claim

theorem RoleRun.recompute_lawful (x : RoleRun) : x.recompute.lawful := rfl

theorem RoleRun.reset_lawful : RoleRun.reset.lawful := rfl

theorem ClaimsKept.lawful {x y : RoleRun} (k : ClaimsKept x y) (h : x.lawful) : y.lawful := by
  unfold RoleRun.lawful
  rw [k.owner, k.applied, k.claim]
  exact h

theorem ClaimsKept.refl (x : RoleRun) : ClaimsKept x x := ⟨rfl, rfl, rfl, rfl, rfl, rfl, rfl⟩

theorem ClaimsKept.trans {x y z : RoleRun} (h : ClaimsKept x y) (k : ClaimsKept y z) : ClaimsKept x z :=
  ⟨k.claim.trans h.claim, k.owner.trans h.owner, k.applied.trans h.applied, k.limit.trans h.limit, k.lockout.trans h.lockout,
    k.sequence.trans h.sequence, k.frost.trans h.frost⟩

theorem State.role_lawful {s : State} (h : s.appliedLaw) (r : Nat) : (s.role r).lawful := by
  unfold State.role
  rw [List.getD_eq_getElem?_getD]
  cases hr : s.roles[r]? with
  | none => exact RoleRun.reset_lawful
  | some x => exact h x (List.mem_of_getElem? hr)

theorem State.role_setRole_self {s : State} {r : Nat} (h : r < s.roles.length) (x : RoleRun) : (s.setRole r x).role r = x :=
  (getD_set _ _ _ _ _).trans (if_pos ⟨rfl, h⟩)

/-- The record of role `r` after its claims have become those of `x` and its target has been acted on (R116, R122, R124). -/
def State.actedRole (s : State) (carried : Bool) (r : Nat) (x : RoleRun) : RoleRun :=
  if x.recompute.applied = (s.role r).applied then
    if s.tables.isField r then
      { x.recompute with refresh := refreshAfter s.tables.device.refresh false (s.role r).owner x.recompute }
    else x.recompute
  else
    match (s.tables.role r).target with
    | .field _ _ =>
      let y := x.recompute.restart (s.tables.role r).confirmWindow
      { y with refresh := refreshAfter s.tables.device.refresh (!carried) (s.role r).owner y }
    | _ => x.recompute

theorem State.actedRole_claims (s : State) (carried : Bool) (r : Nat) (x : RoleRun) :
    ClaimsKept x.recompute (s.actedRole carried r x) := by
  unfold State.actedRole
  split
  · split
    · exact ⟨rfl, rfl, rfl, rfl, rfl, rfl, rfl⟩
    · exact ClaimsKept.refl _
  · split
    · exact ⟨rfl, rfl, rfl, rfl, rfl, rfl, rfl⟩
    · exact ClaimsKept.refl _

theorem State.changedRole_roles (s : State) (carried : Bool) {r : Nat} (x : RoleRun) (hr : r < s.roles.length) :
    (s.changedRole carried r x).roles = s.roles.set r (s.actedRole carried r x) := by
  have self := State.role_setRole_self hr x.recompute
  unfold State.changedRole State.actedRole
  split
  · unfold State.ownerOnly
    rw [self, State.setRole_tables]
    split
    · simp only [State.setRole_roles, List.set_set]
    · rfl
  · unfold State.actOnTarget State.placeSub
    rw [self, State.setRole_tables]
    dsimp only
    cases (s.tables.role r).target with
    | none => rfl
    | line l => rfl
    | field n c =>
      dsimp only
      split
      · simp only [State.setRole_roles, List.set_set]
      · split <;> simp only [State.setSlot_roles, State.setRole_roles, List.set_set]

theorem State.changedRole_role (s : State) (carried : Bool) {r : Nat} (x : RoleRun) (hr : r < s.roles.length) (q : Nat) :
    (s.changedRole carried r x).role q = if q = r then s.actedRole carried r x else s.role q := by
  unfold State.role
  rw [State.changedRole_roles s carried x hr, getD_set]
  by_cases h : r = q
  · subst h; simp [hr]
  · rw [if_neg (fun k => h k.1), if_neg (fun k => h k.symm)]

/-- A change of the claims of a role past the last does nothing to the roles. -/
theorem State.changedRole_roles_of_ge (s : State) (carried : Bool) {r : Nat} (x : RoleRun) (hr : s.roles.length ≤ r) :
    (s.changedRole carried r x).roles = s.roles := by
  have past (l : List RoleRun) (hl : l.length = s.roles.length) (y : RoleRun) : l.set r y = l :=
    List.set_eq_of_length_le (by omega)
  unfold State.changedRole State.ownerOnly State.actOnTarget State.placeSub
  dsimp only
  repeat' split
  all_goals simp [past]

theorem State.changedRole_appliedLaw {s : State} (h : s.appliedLaw) (carried : Bool) (r : Nat) (x : RoleRun) :
    (s.changedRole carried r x).appliedLaw := by
  intro y hy
  rcases Nat.lt_or_ge r s.roles.length with hr | hr
  · rw [State.changedRole_roles s carried x hr] at hy
    rcases List.mem_or_eq_of_mem_set hy with hy | rfl
    · exact h y hy
    · exact (s.actedRole_claims carried r x).lawful x.recompute_lawful
  · rw [State.changedRole_roles_of_ge s carried x hr] at hy
    exact h y hy

theorem setRole_appliedLaw {s : State} (h : s.appliedLaw) {r : Nat} {x : RoleRun} (k : ClaimsKept (s.role r) x) :
    (s.setRole r x).appliedLaw := by
  intro y hy
  rcases List.mem_or_eq_of_mem_set hy with hy | rfl
  · exact h y hy
  · exact k.lawful (State.role_lawful h r)

theorem Move.appliedLaw {s t : State} (m : Move s t) (h : s.appliedLaw) : t.appliedLaw := by
  cases m with
  | role r x k => exact setRole_appliedLaw h k
  | claims carried r x => exact State.changedRole_appliedLaw h carried r x
  | enter n => rw [State.joined_eq, State.left_eq]; exact h
  | leave => rw [State.left_eq]; exact h
  | clear => rw [State.cleared_eq]; exact h
  | port p x => cases p <;> exact h
  | _ => exact h

theorem installedRole_lawful (s : State) (frost : Option Nat) (r : Nat) (x : RoleRun) : (s.installedRole frost r x).lawful := by
  unfold State.installedRole
  dsimp only
  split <;> exact RoleRun.recompute_lawful _

theorem installRoles_appliedLaw (s : State) (base : Nat → RoleRun) (frost : Nat → Option Nat) (keep : Nat → Bool) :
    (s.installRoles base frost keep).appliedLaw := by
  intro x hx
  obtain ⟨r, -, rfl⟩ := List.mem_map.1 hx
  exact installedRole_lawful _ _ _ _

theorem State.committed_appliedLaw (s : State) : s.committed.appliedLaw := by
  have installed := installRoles_appliedLaw s.commitUnits (commitBase s s.commitUnits.tables) s.commitUnits.frostClaim
    (keepsMark s.tables s.commitUnits.tables)
  unfold State.committed State.commitPresence
  dsimp only
  split <;> exact installed

theorem appliedLaw_of_reset {s : State} (h : s.roles = List.replicate 12 RoleRun.reset) : s.appliedLaw := by
  intro x hx
  rw [h] at hx
  rw [List.eq_of_mem_replicate hx]
  exact RoleRun.reset_lawful

theorem Start.appliedLaw {s t : State} (m : Start s t) (h : s.appliedLaw) : t.appliedLaw := by
  cases m with
  | written => rw [writeCompleted_eq]; exact h
  | activated t => exact installRoles_appliedLaw _ _ _ _
  | fallen => rw [State.fallen_eq]; exact h
  | committed => exact State.committed_appliedLaw s
  | restarted adr => exact appliedLaw_of_reset rfl
  | unpowered => exact appliedLaw_of_reset rfl
  | _ => exact h

theorem State.tick_appliedLaw {s : State} (h : s.appliedLaw) : s.tick.appliedLaw := by
  refine State.tick_keeps (P := State.appliedLaw) h fun on => ?_
  rw [State.tick_of_powered on]
  intro x hx
  obtain ⟨y, hy, rfl⟩ := List.mem_map.1 hx
  exact h y hy

/-! ### The tables (R165) -/

theorem Move.tablesChecked {s t : State} (m : Move s t) (h : s.tablesChecked) : t.tablesChecked := by
  have f := m.framed
  unfold State.tablesChecked State.committing
  rw [f.phase, f.tables, f.image, f.staging, f.commit]
  exact h

theorem Store.startWrite_commit (x : Store) (d : LockoutData) : (x.startWrite d).commit = x.commit :=
  (Store.startWrite_keeps x d).2.2.2

theorem Store.nextWrite_committing (x : Store) (d : LockoutData) :
    ((x.nextWrite d).commit != .none) = (x.commit != .none) := by
  unfold Store.nextWrite
  split
  · next h => rw [h]; rfl
  · split
    · rw [Store.startWrite_commit]
    · rfl

theorem Store.imageWritten_commit (x : Store) (t : Tables) (d : LockoutData) : (x.imageWritten t d).commit = .none := by
  have h := Store.nextWrite_committing { x with image := some t, commit := .none } d
  simpa [Store.imageWritten] using h

theorem Store.putCopy_commit (x : Store) (w : CopyWrite) : (x.putCopy w).commit = x.commit := by
  unfold Store.putCopy
  split <;> rfl

theorem writeCompleted_committing (s : State) : (writeCompleted s).committing = s.committing := by
  unfold writeCompleted State.committing
  split
  · exact (Store.nextWrite_committing _ _).trans (by rw [Store.putCopy_commit])
  · rfl

theorem Store.aborted_commit (x : Store) (staging : Tables) (fate : Nat) : (x.aborted staging fate).commit = .none := by
  unfold Store.aborted
  dsimp only
  split
  · rfl
  · split
    · rfl
    · by_cases hw : x.commit = .writing <;> cases x.write <;> simp [hw, Store.putCopy_commit]

theorem Store.rewrite_commit (x : Store) : x.rewrite.commit = x.commit := by
  unfold Store.rewrite
  split
  · rfl
  · exact Store.startWrite_commit x _

theorem Start.tablesChecked {s t : State} (m : Start s t) (h : s.tablesChecked) : t.tablesChecked := by
  obtain ⟨active, image, staged, early⟩ := id h
  cases m with
  | stage t k i bs hb hc => exact ⟨active, image, fun hw => absurd (hc.symm.trans hw) Bool.false_ne_true, early⟩
  | discard hc => exact ⟨active, image, fun hw => absurd (hc.symm.trans hw) Bool.false_ne_true, early⟩
  | commit ok hc hs =>
    refine ⟨active, image, fun _ => ok, fun hp => ?_⟩
    rcases hp with hp | hp <;> simp [State.serving, show s.phase = _ from hp] at hs
  | written =>
    have i := writeCompleted_image s
    have c := writeCompleted_committing s
    rw [writeCompleted_eq] at i c ⊢
    unfold State.tablesChecked
    rw [i, c]
    exact h
  | activated t hp ht =>
    rw [State.activated_eq]
    have idle := early (.inr hp)
    refine ⟨fun _ => image t ht, image, fun hw => ?_, fun hn => ?_⟩
    · exact absurd (idle.symm.trans hw) Bool.false_ne_true
    · rcases hn with hn | hn <;> cases hn
  | fallen hp =>
    rw [State.fallen_eq]
    have idle := early (.inr hp)
    exact ⟨fun hn => (nomatch hn), image, fun hw => absurd (idle.symm.trans hw) Bool.false_ne_true, fun _ => idle⟩
  | committed hw =>
    have checked : crossCheck s.staging = none := staged (by simp [State.committing, hw])
    rw [State.committed_eq]
    refine ⟨fun _ => checked, fun t ht => ?_, fun _ => checked, fun hn => ?_⟩
    · rw [Store.imageWritten_image] at ht
      cases ht
      exact checked
    · rcases hn with hn | hn <;> cases hn
  | restarted adr =>
    have idle : (s.restarted s.resetStore adr).committing = false := by
      change (s.resetStore.rewrite.commit != .none) = false
      rw [Store.rewrite_commit]
      unfold State.resetStore
      split
      · next off => exact early (.inl off)
      · rw [Store.aborted_commit]; rfl
    refine ⟨fun hn => (nomatch hn), fun t ht => ?_, fun hw => ?_, fun _ => idle⟩
    · change s.resetStore.rewrite.image = some t at ht
      rw [Store.rewrite_image] at ht
      rcases s.resetStore_image with e | e | ⟨hw, -, e⟩ <;> rw [e] at ht
      · exact image t ht
      · cases ht
      · cases ht; exact staged (by simp [State.committing, hw])
    · rw [idle] at hw; cases hw
  | unpowered =>
    refine ⟨fun hn => (nomatch hn), fun t ht => ?_, fun hw => (nomatch hw), fun _ => rfl⟩
    change s.store.lost.image = some t at ht
    rcases s.store.lost_image with e | e <;> rw [e] at ht
    · exact image t ht
    · cases ht
  | _ => exact h

theorem State.tick_tablesChecked {s : State} (h : s.tablesChecked) : s.tick.tablesChecked := by
  refine State.tick_keeps (P := State.tablesChecked) h fun on => ?_
  rw [State.tick_of_powered on]
  exact h

theorem step_tablesChecked {s t : State} (h : step s = .next t) (hs : s.tablesChecked) : t.tablesChecked :=
  step_keeps (P := State.tablesChecked) Move.tablesChecked Start.tablesChecked (fun _ => State.tick_tablesChecked)
    (fun _ _ h => h) h hs

end Sys2Proof.Machine

section
open Sys2Proof.Machine

/-- Settles O33: a sequence joins the chain only through its checks, and a circuit fires only for a member. -/
theorem stepKeepsChainAndFrostLaws : Obligations.StepKeepsChainAndFrostLaws := by
  unfold Obligations.StepKeepsChainAndFrostLaws
  intro s t hc hf h
  obtain ⟨chain, fires⟩ := step_keeps (P := State.unitsLaw) Move.unitsLaw Start.unitsLaw (fun _ => State.tick_unitsLaw)
    (fun _ _ h => h) h ⟨hc, (State.frostLaw_iff s).1 hf⟩
  exact ⟨chain, (State.frostLaw_iff t).2 fires⟩

/-- Settles O39: every change of a role's claims recomputes its owner and applied value. -/
theorem stepKeepsAppliedLaw : Obligations.StepKeepsAppliedLaw := by
  unfold Obligations.StepKeepsAppliedLaw
  intro s t hs h
  exact step_keeps (P := State.appliedLaw) Move.appliedLaw Start.appliedLaw (fun _ => State.tick_appliedLaw) (fun _ _ h => h) h hs

end
end

section
/-! SUPPORT. What COMMIT checks, entry by entry (R165): each check says what its kind must meet, and the first entry that fails is
the one that is answered. -/

namespace Sys2Proof.Machine

/-! ### The steps that are reached (R60 check 4) -/

theorem length_le_of_nodup_lt {l : List Nat} {n : Nat} (h : l.Nodup) (hl : ∀ k ∈ l, k < n) : l.length ≤ n := by
  induction n generalizing l with
  | zero =>
    cases l with
    | nil => exact Nat.le_refl 0
    | cons k l => exact absurd (hl k List.mem_cons_self) (Nat.not_lt_zero k)
  | succ n ih =>
    by_cases last : n ∈ l
    · have below : ∀ k ∈ l.erase n, k < n := fun k hk => by
        obtain ⟨other, member⟩ := (List.Nodup.mem_erase_iff h).1 hk
        have := hl k member
        omega
      have shorter := ih (h.erase n) below
      rw [List.length_erase_of_mem last] at shorter
      omega
    · have below : ∀ k ∈ l, k < n := fun k hk => by
        have other : k ≠ n := fun e => last (e ▸ hk)
        have := hl k hk
        omega
      exact Nat.le_succ_of_le (ih h below)

/-- Where a list holds a value once, what stands before it is determined. -/
theorem front_of_once {α : Type} {q : α} {b b' a a' : List α} (hb : q ∉ b) (ha : q ∉ a) (e : b ++ q :: a = b' ++ q :: a') : b = b' := by
  induction b generalizing b' with
  | nil =>
    cases b' with
    | nil => rfl
    | cons x b' =>
      obtain ⟨-, tail⟩ := List.cons.inj e
      exact absurd (by rw [tail]; exact List.mem_append_right _ List.mem_cons_self) ha
  | cons x b ih =>
    cases b' with
    | nil =>
      obtain ⟨head, -⟩ := List.cons.inj e
      exact absurd (by rw [head]; exact List.mem_cons_self) hb
    | cons y b' =>
      obtain ⟨head, tail⟩ := List.cons.inj e
      rw [head, ih (fun k => hb (List.mem_cons_of_mem _ k)) tail]

/-- The list that `reach` answers with enough fuel holds its work list and everything that a step in it names. -/
theorem reach_closed {t : Tables} (named : ∀ k, t.stepUsed k = true → ∀ j ∈ (t.step k).successors, t.stepUsed j = true) :
    ∀ (n : Nat) (work seen : List Nat), seen.Nodup → (∀ k ∈ seen, t.stepUsed k = true) → (∀ k ∈ work, t.stepUsed k = true) →
      (∀ k ∈ seen, ∀ j ∈ (t.step k).successors, j ∈ seen ∨ j ∈ work) → work.length + 2 * (96 - seen.length) ≤ n →
      (∀ k ∈ work, k ∈ reach t n work seen) ∧
        ∀ k ∈ reach t n work seen, ∀ j ∈ (t.step k).successors, j ∈ reach t n work seen := by
  intro n
  induction n with
  | zero =>
    intro work seen _ _ _ closed fuel
    obtain rfl : work = [] := List.length_eq_zero_iff.1 (by omega)
    exact ⟨fun k hk => (nomatch hk), fun k hk j hj => (closed k hk j hj).resolve_right (List.not_mem_nil)⟩
  | succ n ih =>
    intro work seen nodup used waiting closed fuel
    cases work with
    | nil => exact ⟨fun k hk => (nomatch hk), fun k hk j hj => (closed k hk j hj).resolve_right (List.not_mem_nil)⟩
    | cons k rest =>
      simp only [reach]
      split
      · next hk =>
        have hk : k ∈ seen := by simpa using hk
        have closed' : ∀ i ∈ seen, ∀ j ∈ (t.step i).successors, j ∈ seen ∨ j ∈ rest := by
          intro i hi j hj
          rcases closed i hi j hj with h | h
          · exact .inl h
          · rcases List.mem_cons.1 h with rfl | h
            · exact .inl hk
            · exact .inr h
        obtain ⟨all, closes⟩ := ih rest seen nodup used (fun i hi => waiting i (by simp [hi])) closed'
          (by rw [List.length_cons] at fuel; omega)
        refine ⟨fun i hi => ?_, closes⟩
        rcases List.mem_cons.1 hi with rfl | hi
        · exact reach_seen t n rest seen i hk
        · exact all i hi
      · next hk =>
        have hk : k ∉ seen := by simpa using hk
        have kUsed := waiting k (by simp)
        have nodup' : (k :: seen).Nodup := List.nodup_cons.2 ⟨hk, nodup⟩
        have used' : ∀ i ∈ k :: seen, t.stepUsed i = true := by
          intro i hi
          rcases List.mem_cons.1 hi with rfl | hi
          · exact kUsed
          · exact used i hi
        have waiting' : ∀ i ∈ (t.step k).successors ++ rest, t.stepUsed i = true := by
          intro i hi
          rcases List.mem_append.1 hi with hi | hi
          · exact named k kUsed i hi
          · exact waiting i (by simp [hi])
        have closed' : ∀ i ∈ k :: seen, ∀ j ∈ (t.step i).successors,
            j ∈ k :: seen ∨ j ∈ (t.step k).successors ++ rest := by
          intro i hi j hj
          rcases List.mem_cons.1 hi with rfl | hi
          · exact .inr (by simp [hj])
          · rcases closed i hi j hj with h | h
            · exact .inl (by simp [h])
            · rcases List.mem_cons.1 h with rfl | h
              · exact .inl (by simp)
              · exact .inr (by simp [h])
        have room := length_le_of_nodup_lt nodup' (fun i hi => ((stepUsed_iff t i).1 (used' i hi)).1)
        have few := successors_length (t.step k)
        obtain ⟨all, closes⟩ := ih ((t.step k).successors ++ rest) (k :: seen) nodup' used' waiting' closed' (by
          rw [List.length_cons] at fuel room ⊢
          rw [List.length_append]
          omega)
        refine ⟨fun i hi => ?_, closes⟩
        rcases List.mem_cons.1 hi with rfl | hi
        · exact reach_seen t n _ _ i (by simp)
        · exact all i (by simp [hi])

/-- Where every step in use names steps in use, `reach` answers exactly what is reached. -/
theorem mem_reach_iff {t : Tables} (named : ∀ k, t.stepUsed k = true → ∀ j ∈ (t.step k).successors, t.stepUsed j = true)
    {k : Nat} (hk : t.stepUsed k = true) (i : Nat) : i ∈ reach t 256 [k] [] ↔ ∃ m, t.reaches m k i := by
  constructor
  · intro h
    rcases reach_sound t 256 [k] [] i h with h | ⟨j, hj, h⟩
    · exact nomatch h
    · cases List.mem_singleton.1 hj
      exact h
  · rintro ⟨m, h⟩
    obtain ⟨all, closes⟩ := reach_closed named 256 [k] [] List.nodup_nil (fun _ h => nomatch h)
      (fun j hj => by cases List.mem_singleton.1 hj; exact hk) (fun _ h => nomatch h) (by simp)
    have follow : ∀ (m j : Nat), j ∈ reach t 256 [k] [] → t.reaches m j i → i ∈ reach t 256 [k] [] := by
      intro m
      induction m with
      | zero =>
        intro j hj h
        cases h
        exact hj
      | succ m ih =>
        rintro j hj ⟨l, hl, h⟩
        exact ih l (closes j hj l ((mem_successors _ _).2 hl)) h
    exact follow m k (all k (by simp)) h

/-! ### Each check (R2, R21, R39, R58, R60, R99, R115) -/

/-- The check that COMMIT makes of entry `i` of a kind. -/
def Tables.check (t : Tables) (kind : TableKind) (i : Nat) : Bool :=
  match kind with
  | .point => pointCheck t i
  | .condition => condCheck t i
  | .flue => flueCheck t
  | .role => roleCheck t i
  | .step => stepCheck t i
  | .sequence => seqCheck t i
  | .device => deviceCheck t
  | .circuit => circuitCheck t i

theorem pointCheck_iff (t : Tables) (i : Nat) : pointCheck t i = true ↔ t.passes .point i := by
  cases h : (t.point i).inUse <;> simp [pointCheck, Tables.passes, h]

theorem condCheck_iff (t : Tables) (i : Nat) : condCheck t i = true ↔ t.passes .condition i := by
  cases h : (t.cond i).inUse <;> cases hk : (t.cond i).kind <;>
    simp [condCheck, Tables.passes, h, hk, pointOf_iff, condUsed_iff, and_assoc]

theorem flueCheck_iff (t : Tables) (i : Nat) : flueCheck t = true ↔ t.passes .flue i := by
  have apart : (t.flue.spillPt.isNone || t.flue.spillPt != t.flue.roomPt) = true ↔
      ∀ p ∈ t.flue.spillPt, ∀ q ∈ t.flue.roomPt, p ≠ q := by
    cases t.flue.spillPt <;> cases t.flue.roomPt <;> simp
  unfold flueCheck
  dsimp only
  simp only [Bool.and_eq_true, apart]
  simp [Tables.passes, optPointOf_iff, and_assoc]

theorem roleCheck_iff (t : Tables) (i : Nat) : roleCheck t i = true ↔ t.passes .role i := by
  have small : i < 3 ↔ i = 0 ∨ i = 1 ∨ i = 2 := by omega
  have four : (i = 0 ∨ i = 1 ∨ i = 2 ∨ i = 4) ↔ (i < 3 ∨ i = 4) := by omega
  have line : (!decide (i < 3) || decide ((t.role i).kind = .switched) && (t.role i).target.fuelLine) = true ↔
      (i = 0 ∨ i = 1 ∨ i = 2 → (t.role i).kind = .switched ∧ ∃ l, l ≤ 4 ∧ (t.role i).target = .line l) := by
    rw [← small, ← fuelLine_iff]
    by_cases h : i < 3 <;> simp [h]
  unfold roleCheck
  dsimp only
  rw [Bool.and_eq_true, Bool.and_eq_true, line]
  unfold Tables.passes
  dsimp only
  rw [and_assoc]
  refine and_congr ?_ (and_congr Iff.rfl ?_)
  · by_cases h : (t.role i).target = .none <;> simp [h]
  · rw [four]
    by_cases h : i < 3 ∨ i = 4
    · have k : i = 0 ∨ i = 1 ∨ i = 2 ∨ i = 4 := four.2 h
      rcases k with rfl | rfl | rfl | rfl <;> simp
    · have k : ¬ (i = 0 ∨ i = 1 ∨ i = 2 ∨ i = 4) := fun k => h (four.1 k)
      simp only [h, false_implies, iff_true]
      simp only [not_or] at k
      obtain ⟨k0, k1, k2, k4⟩ := k
      simp [k0, k1, k2, k4]

theorem stepCheck_iff (t : Tables) (i : Nat) : stepCheck t i = true ↔ t.passes .step i := by
  cases h : (t.step i).inUse with
  | false => simp [stepCheck, Tables.passes, h]
  | true =>
    have fuelled : (!(decide (((t.step i).output 0).mode = .on) || decide (((t.step i).output 1).mode = .on)) ||
          (t.step i).proving.isNone || decide (0 < (t.step i).maxDwell)) = true ↔
        (((t.step i).output 0).mode = .on ∨ ((t.step i).output 1).mode = .on → (t.step i).proving ≠ none →
          0 < (t.step i).maxDwell) := by
      by_cases a : ((t.step i).output 0).mode = .on <;> by_cases b : ((t.step i).output 1).mode = .on <;>
        cases (t.step i).proving <;> simp [a, b]
    unfold stepCheck Tables.passes
    dsimp only
    simp only [h, Bool.not_true, Bool.false_or, Bool.and_eq_true, fuelled, and_assoc, forall_const]
    refine and_congr ?_ (and_congr ?_ (and_congr ?_ (and_congr ?_ (and_congr ?_ Iff.rfl))))
    · cases (t.step i).proving <;> simp [condUsed_iff]
    · simp [condUsed_iff]
    · simp [stepUsed_iff, mem_successors]
    · cases (t.step i).call <;> simp
    · simp [levelFits_iff]

theorem deviceCheck_iff (t : Tables) (i : Nat) : deviceCheck t = true ↔ t.passes .device i := by
  simp [deviceCheck, Tables.passes, seqOf_iff]

theorem tierFits_iff (t : Tables) (o : Option TierRole) :
    tierFits t o = true ↔ ∀ x ∈ o, x.output.mode = .level → (t.role x.role).kind = .level := by
  cases o <;> simp [tierFits, levelFits_iff]

theorem circuitCheck_iff (t : Tables) (i : Nat) : circuitCheck t i = true ↔ t.passes .circuit i := by
  cases h : (t.circuit i).inUse <;>
    simp [circuitCheck, Tables.passes, h, pointOf_iff, tierFits_iff, optSeqOf_iff, and_assoc]

/-- Under steps that pass, a step in use names steps in use. -/
theorem named_of_steps {t : Tables} (h : ∀ k, k < 96 → t.passes .step k) :
    ∀ k, t.stepUsed k = true → ∀ j ∈ (t.step k).successors, t.stepUsed j = true := by
  intro k hk j hj
  obtain ⟨range, used⟩ := (stepUsed_iff t k).1 hk
  obtain ⟨-, -, next, -⟩ := h k range used
  exact (stepUsed_iff t j).2 (next j ((mem_successors _ _).1 hj))

theorem reachesRecycle_iff {t : Tables} (steps : ∀ k, k < 96 → t.passes .step k) {k : Nat} (hk : t.stepUsed k = true) :
    reachesRecycle t k = true ↔ ∃ m i, t.reaches m k i ∧ (t.step i).faultClass = .recycle := by
  unfold reachesRecycle
  simp only [List.any_eq_true, decide_eq_true_eq, mem_reach_iff (named_of_steps steps) hk]
  exact ⟨fun ⟨i, ⟨m, h⟩, hc⟩ => ⟨m, i, h, hc⟩, fun ⟨m, i, h, hc⟩ => ⟨i, ⟨m, h⟩, hc⟩⟩

theorem needsController_iff (c : SeqClass) : c.needsController = true ↔ c = .heat ∨ c = .service := by
  cases c <;> simp [SeqClass.needsController]

/-- The check of a sequence, once every step has passed its own. -/
theorem seqCheck_iff {t : Tables} (steps : ∀ k, k < 96 → t.passes .step k) (i : Nat) :
    seqCheck t i = true ↔ t.passes .sequence i := by
  cases h : (t.seq i).inUse with
  | false => simp [seqCheck, Tables.passes, h]
  | true =>
    have stop : (!(t.seq i).cls.needsController || (t.seq i).stopLink.isSome) = true ↔
        ((t.seq i).cls = .heat ∨ (t.seq i).cls = .service → (t.seq i).stopLink ≠ none) := by
      rw [← needsController_iff]
      cases (t.seq i).cls.needsController <;> cases (t.seq i).stopLink <;> simp
    unfold seqCheck Tables.passes
    dsimp only
    simp only [h, Bool.not_true, Bool.false_or, Bool.and_eq_true, stop, and_assoc, forall_const]
    rw [stepUsed_iff, and_assoc]
    refine and_congr_right fun range => and_congr_right fun used => ?_
    have recycle : (!reachesRecycle t (t.seq i).entryStep || (t.seq i).recoveryLink.isSome) = true ↔
        ∀ m k, t.reaches m (t.seq i).entryStep k → (t.step k).faultClass = .recycle → (t.seq i).recoveryLink ≠ none := by
      have e := reachesRecycle_iff steps ((stepUsed_iff t _).2 ⟨range, used⟩)
      cases hl : (t.seq i).recoveryLink with
      | some n => simp
      | none =>
        cases hr : reachesRecycle t (t.seq i).entryStep with
        | true =>
          obtain ⟨m, k, hk, hc⟩ := e.1 hr
          exact ⟨fun h => by simp at h, fun h => absurd rfl (h m k hk hc)⟩
        | false =>
          refine ⟨fun _ m k hk hc => ?_, fun _ => by simp⟩
          have := e.2 ⟨m, k, hk, hc⟩
          rw [hr] at this
          cases this
    rw [recycle, optSeqOf_iff, optSeqOf_iff]
    refine and_congr_right fun _ => and_congr_right fun _ => and_congr_right fun _ => and_congr_right fun _ => and_congr ?_ ?_
    · cases (t.seq i).trigger <;> simp [condUsed_iff, triggered_iff, and_assoc]
    · simp

/-! ### The first failure (R165) -/

theorem findSome?_cons_or {α β : Type} (f : α → Option β) (a : α) (l : List α) :
    (a :: l).findSome? f = (f a).or (l.findSome? f) := by
  cases h : f a <;> simp [h]

theorem crossCheck_eq (t : Tables) :
    crossCheck t = checkOrder.findSome? fun k => (firstFailing k.size (t.check k)).map fun i => (k, i) := by
  simp only [checkOrder, findSome?_cons_or, List.findSome?_nil, Option.or_none]
  rfl

/-- A check says what its kind must meet; that of a sequence does so once the steps have passed. -/
theorem check_iff {t : Tables} {k : TableKind} (steps : k = .sequence → ∀ i, i < 96 → t.passes .step i) (i : Nat) :
    t.check k i = true ↔ t.passes k i := by
  cases k with
  | point => exact pointCheck_iff t i
  | condition => exact condCheck_iff t i
  | flue => exact flueCheck_iff t i
  | role => exact roleCheck_iff t i
  | step => exact stepCheck_iff t i
  | sequence => exact seqCheck_iff (steps rfl) i
  | device => exact deviceCheck_iff t i
  | circuit => exact circuitCheck_iff t i

theorem mem_checkOrder (k : TableKind) : k ∈ checkOrder := by cases k <;> decide

theorem checkOrder_nodup : checkOrder.Nodup := by decide

/-- The steps are checked before the sequences. -/
theorem step_before_sequence {before after : List TableKind} {k : TableKind} (h : checkOrder = before ++ k :: after)
    (hk : TableKind.sequence ∈ before ∨ k = .sequence) : TableKind.step ∈ before := by
  have prefixes : ∀ n, n < 8 → (TableKind.sequence ∈ checkOrder.take n ∨ checkOrder[n]? = some .sequence) →
      TableKind.step ∈ checkOrder.take n := by decide
  have len : before.length < 8 := by
    have e := congrArg List.length h
    rw [List.length_append, List.length_cons] at e
    have : checkOrder.length = 8 := rfl
    omega
  have e := prefixes before.length len
  rw [h, List.take_left, List.getElem?_append_right (Nat.le_refl _), Nat.sub_self, List.getElem?_cons_zero] at e
  exact e (hk.imp_right fun h => by rw [h])

/-- The checks of all kinds before some kind pass when everything they say holds. -/
theorem checks_before_iff {t : Tables} {before after : List TableKind} {k : TableKind} (h : checkOrder = before ++ k :: after) :
    (∀ q ∈ before, ∀ j, j < q.size → t.check q j = true) ↔ ∀ q ∈ before, ∀ j, j < q.size → t.passes q j := by
  constructor
  · intro all q hq j hj
    refine (check_iff (fun hs i hi => ?_) j).1 (all q hq j hj)
    subst hs
    exact (stepCheck_iff t i).1 (all .step (step_before_sequence h (.inl hq)) i hi)
  · intro all q hq j hj
    refine (check_iff (fun hs i hi => ?_) j).2 (all q hq j hj)
    subst hs
    exact all .step (step_before_sequence h (.inl hq)) i hi

theorem kindFailing_eq_none (t : Tables) (k : TableKind) :
    ((firstFailing k.size (t.check k)).map fun i => (k, i)) = none ↔ ∀ j, j < k.size → t.check k j = true := by
  rw [Option.map_eq_none_iff, firstFailing_eq_none]

theorem crossCheck_eq_none_iff (t : Tables) :
    crossCheck t = none ↔ ∀ (k : TableKind) (i : Nat), i < k.size → t.passes k i := by
  rw [crossCheck_eq, List.findSome?_eq_none_iff]
  simp only [kindFailing_eq_none]
  constructor
  · intro all k i hi
    have steps := fun i hi => (stepCheck_iff t i).1 (all .step (mem_checkOrder _) i hi)
    exact (check_iff (fun _ => steps) i).1 (all k (mem_checkOrder k) i hi)
  · intro all k _ i hi
    exact (check_iff (fun _ i hi => all .step i hi) i).2 (all k i hi)

theorem crossCheck_eq_some_iff (t : Tables) (k : TableKind) (i : Nat) : crossCheck t = some (k, i) ↔ t.failsFirst k i := by
  have first (steps : k = .sequence → ∀ i, i < 96 → t.passes .step i) :
      firstFailing k.size (t.check k) = some i ↔ i < k.size ∧ ¬ t.passes k i ∧ ∀ j, j < i → t.passes k j := by
    rw [firstFailing_eq_some]
    simp only [← check_iff steps, Bool.not_eq_true]
  rw [crossCheck_eq, List.findSome?_eq_some_iff]
  simp only [kindFailing_eq_none]
  constructor
  · rintro ⟨before, q, after, order, failing, passed⟩
    obtain ⟨i', hi', e⟩ := Option.map_eq_some_iff.1 failing
    obtain ⟨rfl, rfl⟩ := Prod.mk.inj e
    have earlier := (checks_before_iff order).1 passed
    obtain ⟨range, fails, least⟩ := (first fun hs j hj =>
      earlier .step (step_before_sequence order (.inr hs)) j hj).1 hi'
    refine ⟨range, fails, least, fun before' after' order' => ?_⟩
    have nodup := checkOrder_nodup
    have once : q ∉ before ∧ q ∉ after := by
      rw [order, List.nodup_append] at nodup
      obtain ⟨-, cons, apart⟩ := nodup
      exact ⟨fun hm => apart q hm q (by simp) rfl, (List.nodup_cons.1 cons).1⟩
    obtain ⟨absent, absent'⟩ := once
    cases front_of_once absent absent' (order.symm.trans order')
    exact earlier
  · rintro ⟨range, fails, least, earlier⟩
    obtain ⟨before, after, order⟩ := List.append_of_mem (mem_checkOrder k)
    have passed := earlier before after order
    refine ⟨before, k, after, order, ?_, (checks_before_iff order).2 passed⟩
    rw [(first fun hs j hj => passed .step (step_before_sequence order (.inr hs)) j hj).2 ⟨range, fails, least⟩]
    rfl

/-! ### The lines (R118) -/

/-- Under tables that pass their checks, at most one role has a line. -/
theorem roleOfLine_eq_some {t : Tables} (h : crossCheck t = none) {r l : Nat} (hr : r < 12) (ht : (t.role r).target = .line l) :
    t.roleOfLine l = some r := by
  unfold Tables.roleOfLine
  rw [List.find?_range_eq_some]
  refine ⟨by simpa using ht, List.mem_range.2 hr, fun q hq => ?_⟩
  obtain ⟨apart, -⟩ := (crossCheck_eq_none_iff t).1 h .role r hr
  have := apart (by rw [ht]; exact fun k => nomatch k) q hq
  rw [ht] at this
  simpa using this

theorem target_of_roleOfLine {t : Tables} {r l : Nat} (h : t.roleOfLine l = some r) : r < 12 ∧ (t.role r).target = .line l := by
  unfold Tables.roleOfLine at h
  rw [List.find?_range_eq_some] at h
  obtain ⟨ht, hr, -⟩ := h
  exact ⟨List.mem_range.1 hr, by simpa using ht⟩

/-- R118 on one line: ON while its role's applied value is nonzero, and OFF without a role. -/
def State.lineOrdered (s : State) (l : Nat) : Bool :=
  match s.tables.roleOfLine l with
  | some r => (s.role r).applied != 0
  | none => false

theorem State.actedRole_applied (s : State) (carried : Bool) (r : Nat) (x : RoleRun) :
    (s.actedRole carried r x).applied = x.claim.2 := (s.actedRole_claims carried r x).applied

/-- The command of a line after a change of the claims of role `r`. -/
theorem State.changedRole_commanded (s : State) (carried : Bool) {r : Nat} (x : RoleRun) (hr : r < s.roles.length) (l : Nat) :
    ((s.changedRole carried r x).line l).commanded =
      if x.claim.2 ≠ (s.role r).applied ∧ (s.tables.role r).target = .line l ∧ l < s.lines.length then x.claim.2 != 0
      else (s.line l).commanded := by
  have self := State.role_setRole_self hr x.recompute
  have applied : x.recompute.applied = x.claim.2 := rfl
  unfold State.changedRole
  rw [applied]
  by_cases same : x.claim.2 = (s.role r).applied
  · rw [if_pos same, if_neg fun h => h.1 same]
    unfold State.ownerOnly
    split <;> rfl
  · rw [if_neg same]
    unfold State.actOnTarget State.placeSub
    rw [self, State.setRole_tables]
    dsimp only
    cases ht : (s.tables.role r).target with
    | none => exact (if_neg fun h => nomatch h.2.1).symm
    | field n c =>
      refine Eq.trans ?_ (if_neg fun h => nomatch h.2.1).symm
      dsimp only
      split
      · rfl
      · split <;> rfl
    | line m =>
      have e : ∀ (y : LineRun), ((s.setRole r x.recompute).setLine m y).line l =
          if m = l ∧ l < s.lines.length then y else s.line l := fun y => getD_set _ _ _ _ _
      dsimp only
      rw [e]
      by_cases h : m = l ∧ l < s.lines.length
      · obtain ⟨rfl, hl⟩ := h
        rw [if_pos ⟨rfl, hl⟩, if_pos ⟨same, rfl, hl⟩, applied]
        unfold LineRun.command
        split
        · next hc => exact hc
        · rfl
      · rw [if_neg h, if_neg fun k => h ⟨by injection k.2.1, k.2.2⟩]

/-- R118 with what it rests on: the sizes of the part, and tables that have passed their checks. -/
def State.linesKept (s : State) : Prop := s.sized ∧ s.tablesChecked ∧ s.linesLaw

theorem State.linesLaw_iff (s : State) :
    s.linesLaw ↔ (s.phase = .normal → ∀ l, l < 8 → (s.line l).commanded = s.lineOrdered l) := Iff.rfl

theorem State.changedRole_linesLaw {s : State} (h : s.linesKept) (carried : Bool) {r : Nat} (hr : r < 12) (x : RoleRun) :
    (s.changedRole carried r x).linesLaw := by
  obtain ⟨sized, checked, lines⟩ := h
  have roles : s.roles.length = 12 := by obtain ⟨-, -, -, -, -, roles, -⟩ := sized; exact roles
  have length : s.lines.length = 8 := by obtain ⟨-, -, -, -, -, -, length, -⟩ := sized; exact length
  have hr' : r < s.roles.length := by omega
  rw [State.linesLaw_iff]
  intro normal l hl
  have normal : s.phase = .normal := by rw [State.changedRole_eq] at normal; exact normal
  have old := (State.linesLaw_iff s).1 lines normal l hl
  rw [State.changedRole_commanded s carried x hr' l]
  unfold State.lineOrdered at old ⊢
  rw [show (s.changedRole carried r x).tables = s.tables by rw [State.changedRole_eq]]
  by_cases ht : (s.tables.role r).target = .line l
  · have owns := roleOfLine_eq_some (checked.1 normal) hr ht
    rw [owns] at old ⊢
    dsimp only at old ⊢
    rw [State.changedRole_role s carried x hr', if_pos rfl, State.actedRole_applied]
    by_cases same : x.claim.2 = (s.role r).applied
    · rw [if_neg fun k => k.1 same, same]; exact old
    · rw [if_pos ⟨same, ht, by omega⟩]
  · rw [if_neg fun k => ht k.2.1, old]
    cases hq : s.tables.roleOfLine l with
    | none => rfl
    | some q =>
      have other : q ≠ r := by
        rintro rfl
        exact ht (target_of_roleOfLine hq).2
      dsimp only
      rw [State.changedRole_role s carried x hr', if_neg other]

theorem setRole_linesLaw {s : State} (h : s.linesLaw) {r : Nat} {x : RoleRun} (k : x.applied = (s.role r).applied) :
    (s.setRole r x).linesLaw := by
  intro normal l hl
  refine (h normal l hl).trans ?_
  change s.lineOrdered l = (s.setRole r x).lineOrdered l
  unfold State.lineOrdered
  rw [State.setRole_tables]
  cases s.tables.roleOfLine l with
  | none => rfl
  | some q =>
    have e : (s.setRole r x).role q = if r = q ∧ q < s.roles.length then x else s.role q := getD_set _ _ _ _ _
    dsimp only
    rw [e]
    split
    · next hq => rw [k, hq.1]
    · rfl

theorem setLine_linesLaw {s : State} (h : s.linesLaw) {l : Nat} {x : LineRun} (k : x.commanded = (s.line l).commanded) :
    (s.setLine l x).linesLaw := by
  intro normal m hm
  refine Eq.trans ?_ (h normal m hm)
  have e : (s.setLine l x).line m = if l = m ∧ m < s.lines.length then x else s.line m := getD_set _ _ _ _ _
  rw [e]
  split
  · next hq => rw [k, hq.1]
  · rfl

theorem Move.linesKept {s t : State} (m : Move s t) (h : s.linesKept) : t.linesKept := by
  refine ⟨m.sized h.1, m.tablesChecked h.2.1, ?_⟩
  obtain ⟨-, -, lines⟩ := id h
  cases m with
  | claims carried r x hr => exact State.changedRole_linesLaw h carried hr x
  | role r x k => exact setRole_linesLaw lines k.applied
  | line l x k => exact setLine_linesLaw lines k
  | enter n => rw [State.joined_eq, State.left_eq]; exact lines
  | leave => rw [State.left_eq]; exact lines
  | clear => rw [State.cleared_eq]; exact lines
  | port p x => cases p <;> exact lines
  | _ => exact lines

theorem installRoles_linesLaw (s : State) (base : Nat → RoleRun) (frost : Nat → Option Nat) (keep : Nat → Bool) :
    (s.installRoles base frost keep).linesLaw := by
  intro _ l hl
  have e := getD_map_range 8 l (fun l => State.installedLine
    { s with roles := (List.range 12).map fun r => s.installedRole (frost r) r (base r) } keep l) LineRun.reset
  rw [if_pos hl] at e
  exact congrArg LineRun.commanded e

theorem State.committed_linesLaw (s : State) : s.committed.linesLaw := by
  have installed := installRoles_linesLaw s.commitUnits (commitBase s s.commitUnits.tables) s.commitUnits.frostClaim
    (keepsMark s.tables s.commitUnits.tables)
  unfold State.committed State.commitPresence
  dsimp only
  split <;> exact installed

theorem Start.linesKept {s t : State} (m : Start s t) (h : s.linesKept) : t.linesKept := by
  refine ⟨m.sized h.1, m.tablesChecked h.2.1, ?_⟩
  obtain ⟨-, -, lines⟩ := h
  cases m with
  | written => rw [writeCompleted_eq]; exact lines
  | activated t => exact installRoles_linesLaw _ _ _ _
  | fallen => rw [State.fallen_eq]; exact fun normal => nomatch normal
  | committed => exact State.committed_linesLaw s
  | restarted adr => exact fun normal => nomatch normal
  | unpowered => exact fun normal => nomatch normal
  | _ => exact lines

theorem State.tick_linesLaw {s : State} (h : s.linesLaw) : s.tick.linesLaw := by
  refine State.tick_keeps (P := State.linesLaw) h fun on => ?_
  rw [State.tick_of_powered on]
  intro normal l hl
  have line := getD_map_of_fixed s.lines l LineRun.tick LineRun.reset rfl
  have role (r : Nat) := getD_map_of_fixed s.roles r RoleRun.tick RoleRun.reset rfl
  have old := h normal l hl
  change ((s.lines.map LineRun.tick).getD l LineRun.reset).commanded = match s.tables.roleOfLine l with
    | some r => ((s.roles.map RoleRun.tick).getD r RoleRun.reset).applied != 0
    | none => false
  rw [line]
  refine old.trans ?_
  cases s.tables.roleOfLine l with
  | none => rfl
  | some r =>
    dsimp only
    rw [role]
    rfl

end Sys2Proof.Machine

section
open Sys2Proof.Machine

/-- Settles O41: a role that changes commands its line, and no other role has that line. -/
theorem stepKeepsLinesLaw : Obligations.StepKeepsLinesLaw := by
  unfold Obligations.StepKeepsLinesLaw
  intro s t hs hc hl h
  exact (step_keeps (P := State.linesKept) Move.linesKept Start.linesKept
    (fun s h => ⟨State.tick_sized h.1, State.tick_tablesChecked h.2.1, State.tick_linesLaw h.2.2⟩) (fun _ _ h => h) h
    ⟨hs, hc, hl⟩).2.2

/-- Settles O55: only checked images are written or made active, and the checks say what R165 lists. -/
theorem stepKeepsTablesChecked : Obligations.StepKeepsTablesChecked := by
  unfold Obligations.StepKeepsTablesChecked
  exact ⟨fun s t hs h => step_tablesChecked h hs, crossCheck_eq_none_iff⟩

/-- Settles O4: each unit's reset form meets its law. -/
theorem resetHoldsInvariants : Obligations.ResetHoldsInvariants := by
  unfold Obligations.ResetHoldsInvariants
  have units : State.reset.unitsLaw := unitsLaw_of_empty rfl (firesFor_of_reset rfl)
  have lockout : State.reset.lockoutLaw :=
    (State.lockoutLaw_iff _).2 ⟨initial_lawful, ⟨fun _ h => (nomatch h), fun _ h => (nomatch h), fun w hw => by
      cases hw
      exact initial_lawful⟩⟩
  refine ⟨State.reset_sized, ⟨Nat.zero_le 8, Nat.zero_le 8, Nat.zero_le 4⟩, emptyPoints_filteredInWindow rfl,
    ⟨initial_contactWindows, initial_contactWindows, fun _ h => (nomatch h)⟩, units.1, (State.frostLaw_iff _).2 units.2,
    appliedLaw_of_reset rfl, fun h => (nomatch h), fun h => (nomatch h), lockout, traceLaw_of_reset rfl,
    ⟨fun h => (nomatch h), fun _ h => (nomatch h), fun h => (nomatch h), fun _ => rfl⟩⟩

end
end

section
/-! SUPPORT. The interface, the ports and the frames that the gate forwards: O1, O2, O6, O7, O11, O12, O13, and the safety of the
fuel roles, O42. -/

namespace Sys2Proof.Machine

/-! ### Sending (R161) -/

theorem State.transmitStart_of_ready {s : State} {p : Port} (hand : (s.port p).hand.isSome = true)
    (sending : (s.port p).sending = false) (ready : (s.port p).hearing = .ready) :
    s.transmitStart p = s.setPort p { s.port p with sending := true, hearing := .waiting } := by
  simp [State.transmitStart, hand, sending, ready]

theorem State.transmitStart_of_not {s : State} {p : Port}
    (h : (s.port p).hand = none ∨ (s.port p).sending = true ∨ (s.port p).hearing ≠ .ready) : s.transmitStart p = s := by
  refine if_neg fun k => ?_
  simp only [Bool.and_eq_true, decide_eq_true_eq, Bool.not_eq_true'] at k
  obtain ⟨⟨hand, sending⟩, ready⟩ := k
  rcases h with h | h | h
  · rw [h] at hand; cases hand
  · rw [h] at sending; cases sending
  · exact h ready

theorem State.losesTo_of_hand {s : State} {p : Port} {h : InHand} (hh : (s.port p).hand = some h) (winner : Byte) :
    s.losesTo p winner = decide (winner.toNat < h.frame.src.toNat) := by
  unfold State.losesTo
  rw [hh]

theorem State.frameSent_of_idle {s : State} {p : Port} (h : (s.port p).sending = false ∨ (s.port p).hand = none) :
    s.frameSent p = s := by
  unfold State.frameSent
  rcases h with h | h <;> rw [h]
  · rfl
  · exact ite_self _

theorem State.frameSent_of_hand {s : State} {p : Port} {h : InHand} (sending : (s.port p).sending = true)
    (hand : (s.port p).hand = some h) : s.frameSent p =
      (s.setPort p { hearing := .waiting, sending := false, hand := none, lastSent := frameBytes h.frame }).clearSent h.tag := by
  unfold State.frameSent
  rw [sending, hand]
  rfl

theorem State.setPort_gate (s : State) (p : Port) (x : PortState) : (s.setPort p x).gate = s.gate := by
  cases p <;> rfl

theorem State.setPort_slot (s : State) (p : Port) (x : PortState) (r : Nat) : (s.setPort p x).slot r = s.slot r := by
  cases p <;> rfl

theorem State.setPort_notice (s : State) (p : Port) (x : PortState) (k : NoticeKind) :
    (s.setPort p x).notice k = s.notice k := by
  cases p <;> rfl

theorem State.clearSent_substitution_none {s : State} {r : Nat} (h : s.slot r = none) :
    s.clearSent (.substitution r) = s := by
  unfold State.clearSent
  dsimp only
  rw [h]

theorem State.clearSent_substitution {s : State} {r : Nat} {x : Slot} (h : s.slot r = some x) :
    s.clearSent (.substitution r) = s.setSlot r (some { x with pending := x.newer }) := by
  unfold State.clearSent
  dsimp only
  rw [h]

theorem State.clearSent_notice {s : State} {k : NoticeKind} (h : k ≠ .drive) :
    s.clearSent (.notice k) = s.setNotice k { s.notice k with flag := (s.notice k).newer } := if_neg h

/-! ### Frames that the gate forwards or leaves (R128, R129) -/

theorem isRequest_of_kind {s : State} {f : Frame} (h : frameKind f.kind ≠ .manage) : s.isRequest f = false := by
  simp [State.isRequest, h]

/-- A frame of the control segment that is no request goes its way by Table 36. -/
theorem exec_controlFrame_other {s : State} {f : Frame} (hs : s.serving = true) (hr : s.receives .control = true)
    (h0 : f.src ≠ 0) (hl : f.payload.length ≤ 24) (hk : frameKind f.kind ≠ .manage) :
    exec (.controlFrame f) s = finish (controlOther f (Work.idle (s.heardFrom f.src))) := by
  have src : f.src.toNat ≠ 0 := fun h => h0 (BitVec.eq_of_toNat_eq h)
  have e : exec (.controlFrame f) s = finish (receive .control f controlArrival s) := rfl
  rw [e, receive_control hs hr src hl, isRequest_of_kind hk]
  rfl

theorem exec_fieldFrame {s : State} {f : Frame} (hs : s.serving = true) (hr : s.receives .field = true) (h0 : f.src ≠ 0)
    (hl : f.payload.length ≤ 24) :
    exec (.fieldFrame f) s = finish (fieldArrival f (Work.idle (s.hear .field .waiting))) := by
  have src : f.src.toNat ≠ 0 := fun h => h0 (BitVec.eq_of_toNat_eq h)
  have e : exec (.fieldFrame f) s = finish (receive .field f fieldArrival s) := rfl
  rw [e, receive_field hs hr src hl]

theorem fieldAddress_iff (d : Byte) : fieldAddress d = true ↔ 2 ≤ d.toNat ∧ d.toNat ≤ 47 := by
  simp [fieldAddress, within]

theorem upAddress_iff (d : Byte) : upAddress d = true ↔ d.toNat = 0 ∨ 48 ≤ d.toNat ∧ d.toNat ≤ 63 := by
  simp [upAddress, within]

/-- What Table 36 does with a GENERAL frame of the control segment. -/
theorem controlOther_general {f : Frame} (h : frameKind f.kind = .general) (w : Work) :
    controlOther f w = if f.dst.toNat = 0 ∨ 2 ≤ f.dst.toNat ∧ f.dst.toNat ≤ 47 then w.withSt (w.st.forwardDown f) else w := by
  unfold controlOther
  rw [h]
  simp only [Bool.or_eq_true, decide_eq_true_eq, fieldAddress_iff]

theorem controlOther_left {f : Frame} (h : frameKind f.kind = .sample ∨ frameKind f.kind = .state ∨ frameKind f.kind = .reply ∨
    frameKind f.kind = .notice) (w : Work) : controlOther f w = w := by
  unfold controlOther
  rcases h with h | h | h | h <;> rw [h]

/-- A frame of the field segment that is not tapped. -/
theorem fieldArrival_untapped {f : Frame} (hs : frameKind f.kind ≠ .sample) (ht : frameKind f.kind ≠ .state) (s : State) :
    fieldArrival f (Work.idle s) = Work.idle (if frameKind f.kind = .general ∧ upAddress f.dst = true then s.forwardUp f else s) := by
  unfold fieldArrival tap
  dsimp only
  cases h : frameKind f.kind <;> simp_all [FrameKind.goesUp, Work.withSt, Work.emit, Work.idle]

theorem State.forwardDown_eq (s : State) (f : Frame) : s.forwardDown f =
    s.setGate { s.gate with down := if s.gate.down.length < 8 then s.gate.down ++ [f] else s.gate.down } := rfl

theorem State.forwardUp_eq (s : State) (f : Frame) : s.forwardUp f =
    s.setGate { s.gate with up := if s.gate.up.length < 8 then s.gate.up ++ [f] else s.gate.up } := rfl

/-! ### The clock -/

theorem State.tick_cond {s : State} (h : s.phase ≠ .off) {c : Nat} (hc : c < s.conds.length) :
    s.tick.cond c = { s.cond c with
      timer := (s.cond c).timer.map fun t => if t < (s.tables.cond c).hold then t + 1 else t } := by
  rw [State.tick_of_powered h]
  change (s.conds.mapIdx fun i x => x.tick (s.tables.cond i).hold).getD c CondRun.reset = _
  unfold State.cond
  simp [List.getD, hc, CondRun.tick]

/-! ### The slots and the safety roles (R116, R120) -/

theorem RoleRun.applied_of_limit {x : RoleRun} (h : x.lawful) {v : Nat} (hl : x.limit = some v) : x.applied = v := by
  have e : x.applied = x.claim.2 := congrArg Prod.snd h
  rw [e]
  simp [RoleRun.claim, hl]

theorem RoleRun.applied_of_lockout {x : RoleRun} (h : x.lawful) {v : Nat} (hl : x.limit = none) (hk : x.lockout = some v) :
    x.applied = v := by
  have e : x.applied = x.claim.2 := congrArg Prod.snd h
  rw [e]
  simp [RoleRun.claim, hl, hk]

end Sys2Proof.Machine

section
open Sys2Proof Sys2Proof.Machine

/-- Settles O1: by the definition of a step. -/
theorem stepRunsFront : Obligations.StepRunsFront := by
  unfold Obligations.StepRunsFront
  intro c rest s h
  unfold step
  rw [h]

/-- Settles O2: what `State.tick` writes out, unit by unit. -/
theorem idleStepCountsTime : Obligations.IdleStepCountsTime := by
  unfold Obligations.IdleStepCountsTime
  intro s h
  refine ⟨by unfold step; rw [h], fun off => if_pos off, fun on => ⟨_, State.tick_of_powered on, ?_, ?_⟩⟩
  · exact List.length_mapIdx
  · exact fun c hc => State.tick_cond on hc

/-- Settles O6: each port command is its own change of the port, and then the arbiters choose. -/
theorem sendersBeginAndStop : Obligations.SendersBeginAndStop := by
  unfold Obligations.SendersBeginAndStop
  intro p winner s
  have transmit : exec (.transmitStart p) s = .next (s.transmitStart p).arbitrate := rfl
  have lost : exec (.arbitrationLost p winner) s =
      .next (if (s.port p).sending && s.losesTo p winner then s.stopSending p else s).arbitrate := rfl
  have collision : exec (.collision p) s = .next (if (s.port p).sending then s.stopSending p else s).arbitrate := rfl
  refine ⟨fun ⟨hand, sending, ready⟩ => ?_, fun h => ?_, fun h sending hand lower => ?_, fun sending => ?_, fun idle => ⟨?_, ?_⟩⟩
  · rw [transmit, State.transmitStart_of_ready hand sending ready]
  · rw [transmit, State.transmitStart_of_not h]
  · rw [lost, sending, State.losesTo_of_hand hand, decide_eq_true lower]
    rfl
  · rw [collision, sending]
    rfl
  · rw [lost, idle]
    rfl
  · rw [collision, idle]
    rfl

/-- Settles O7: FRAME_SENT frees the port, and clears what its frame stood for. -/
theorem frameSentClears : Obligations.FrameSentClears := by
  unfold Obligations.FrameSentClears
  have sent (p : Port) (s : State) : exec (.frameSent p) s = .next (s.frameSent p).arbitrate := rfl
  refine ⟨fun p s h => ?_, fun p s h sending hand => ?_⟩
  · rw [sent, State.frameSent_of_idle h]
  · dsimp only
    rw [sent, State.frameSent_of_hand sending hand]
    refine ⟨fun r tag slot => ?_, fun tag => ?_, fun r x tag slot => ?_, fun k tag other => ?_, fun tag => ?_⟩
    · rw [tag, State.clearSent_substitution_none ((State.setPort_slot ..).trans slot)]
    · rcases tag with tag | tag <;> rw [tag] <;> rfl
    · rw [tag, State.clearSent_substitution ((State.setPort_slot ..).trans slot)]
    · rw [tag, State.clearSent_notice other, State.setPort_notice]
    · rw [tag, ← State.setPort_notice s p
        { hearing := .waiting, sending := false, hand := none, lastSent := frameBytes h.frame } .drive]
      rfl

/-- Settles O11: a GENERAL frame goes down by its destination, and four kinds are left. -/
theorem controlFrameForwardedDown : Obligations.ControlFrameForwardedDown := by
  unfold Obligations.ControlFrameForwardedDown
  intro f s hs hr h0 hl
  dsimp only
  refine ⟨fun kind goes => ?_, fun kind stays => ?_, fun kind => ?_⟩
  · rw [exec_controlFrame_other hs hr h0 hl (by rw [kind]; decide), controlOther_general kind, if_pos goes]
    exact finish_idle rfl
  · rw [exec_controlFrame_other hs hr h0 hl (by rw [kind]; decide), controlOther_general kind, if_neg (by omega)]
    exact finish_idleState _
  · rw [exec_controlFrame_other hs hr h0 hl (by rcases kind with k | k | k | k <;> rw [k] <;> decide), controlOther_left kind]
    exact finish_idleState _

/-- Settles O12: a GENERAL frame goes up by its destination, and five kinds are left. -/
theorem fieldFrameForwardedUp : Obligations.FieldFrameForwardedUp := by
  unfold Obligations.FieldFrameForwardedUp
  intro f s hs hr h0 hl
  dsimp only
  rw [exec_fieldFrame hs hr h0 hl]
  refine ⟨fun kind goes => ?_, fun kind stays => ?_, fun kind => ?_⟩
  · rw [fieldArrival_untapped (by rw [kind]; decide) (by rw [kind]; decide), if_pos ⟨kind, (upAddress_iff _).2 goes⟩]
    exact finish_idleState _
  · rw [fieldArrival_untapped (by rw [kind]; decide) (by rw [kind]; decide), if_neg]
    · exact finish_idleState _
    · rw [upAddress_iff]; omega
  · rw [fieldArrival_untapped (by rcases kind with k | k | k | k | k <;> rw [k] <;> decide)
      (by rcases kind with k | k | k | k | k <;> rw [k] <;> decide), if_neg]
    · exact finish_idleState _
    · rcases kind with k | k | k | k | k <;> rw [k] <;> simp

/-- Settles O13: LINKRESET is a frame to 0 that Table 36 has the part take. -/
theorem linkResetTaken : Obligations.LinkResetTaken := by
  unfold Obligations.LinkResetTaken
  intro src sub s hs hr h0
  dsimp only
  have src0 : src.toNat ≠ 0 := fun h => h0 (BitVec.eq_of_toNat_eq h)
  let f : Frame := { src := src, dst := 0, kind := kindByte 7 sub.toNat, payload := [] }
  have e : exec (.linkreset src sub) s = finish (receive .control f controlArrival s) := rfl
  have kind : frameKind f.kind = .linkreset := by
    unfold frameKind
    rw [kindByte_code (show 7 < 16 by omega) sub.isLt]
    rfl
  rw [e, receive_control (f := f) hs hr src0 (Nat.zero_le 24), isRequest_of_kind (by rw [kind]; decide), if_neg Bool.false_ne_true]
  unfold controlOther
  rw [kind]
  refine (finish_idle rfl).trans ?_
  rw [State.heardFrom_eq]
  rfl

/-- Settles O42: the highest claims on the safety roles are those of LIMIT and of the lockout state. -/
theorem lockedOrLimitHoldsFuelOff : Obligations.LockedOrLimitHoldsFuelOff := by
  unfold Obligations.LockedOrLimitHoldsFuelOff
  intro s normal _ applied slots
  have claims (r : Nat) (hr : r < 12) := slots normal r hr
  have opened (r : Nat) (hr : r < 3) (h : s.pins.limitClosed = false) : (s.role r).applied = 0 := by
    obtain ⟨limit, -⟩ := claims r (by omega)
    exact RoleRun.applied_of_limit (State.role_lawful applied r) (by rw [limit]; simp [State.limitSlot, limitClaim, h, hr])
  have locked (r v : Nat) (hr : r < 12) (h : s.locked = true) (claim : lockoutClaim r = some v) (low : r < 3 → v = 0) :
      (s.role r).applied = v := by
    obtain ⟨limit, lockout, -⟩ := claims r hr
    have lockout : (s.role r).lockout = some v := by rw [lockout]; simp [State.lockoutSlot, h, claim]
    cases hl : s.limitSlot r with
    | none => exact RoleRun.applied_of_lockout (State.role_lawful applied r) (limit.trans hl) lockout
    | some z =>
      have zero : z = 0 ∧ r < 3 := by
        unfold State.limitSlot limitClaim at hl
        split at hl
        · cases hl
        · split at hl
          · next h3 => cases hl; exact ⟨rfl, h3⟩
          · cases hl
      obtain ⟨rfl, h3⟩ := zero
      rw [low h3]
      exact RoleRun.applied_of_limit (State.role_lawful applied r) (limit.trans hl)
  refine ⟨fun h => ⟨?_, ?_, ?_, ?_, ?_⟩, fun h => ⟨opened 0 (by omega) h, opened 1 (by omega) h, opened 2 (by omega) h⟩⟩
  · exact locked 0 0 (by omega) h rfl fun _ => rfl
  · exact locked 1 0 (by omega) h rfl fun _ => rfl
  · exact locked 2 0 (by omega) h rfl fun _ => rfl
  · exact locked 4 0 (by omega) h rfl fun _ => rfl
  · exact locked 7 1000 (by omega) h rfl fun h => absurd h (by omega)

end
end

section
/-! SUPPORT. The bytes of a frame, the unlock conditions, the regain timer, the end of a persistence write, and the answers of
DISCARD and COMMIT: O9, O43, O45, O51 and O59. -/

namespace Sys2Proof.Machine

/-! ### The bytes of a frame (R160) -/

theorem u16_length (n : Nat) : (u16 n).length = 2 := rfl

theorem receiveBytes_frameBytes {f : Frame} (h0 : f.src ≠ 0) (hl : f.payload.length ≤ 24) :
    receiveBytes (frameBytes f) = some f := by
  have len : (u8 f.payload.length).toNat = f.payload.length := toNat_u8 (by omega)
  have taken : (f.payload ++ u16 (crc16 (frameBody f)).toNat).take f.payload.length = f.payload := List.take_left
  have rest : (f.payload ++ u16 (crc16 (frameBody f)).toNat).drop f.payload.length = u16 (crc16 (frameBody f)).toNat :=
    List.drop_left
  have e : frameBytes f =
      f.src :: f.dst :: f.kind :: u8 f.payload.length :: (f.payload ++ u16 (crc16 (frameBody f)).toNat) := rfl
  rw [e]
  unfold receiveBytes
  dsimp only
  rw [len, taken, rest, if_pos ⟨hl, by rw [List.length_append, u16_length], h0⟩, if_pos rfl]

theorem frameBytes_of_receiveBytes {bs : List Byte} {f : Frame} (h : receiveBytes bs = some f) :
    bs = frameBytes f ∧ f.src ≠ 0 ∧ f.payload.length ≤ 24 := by
  unfold receiveBytes at h
  split at h
  · next src dst kind len rest =>
    split at h
    · next ok =>
      obtain ⟨short, length, src0⟩ := ok
      dsimp only at h
      split at h
      · next crc =>
        cases h
        have taken : (rest.take len.toNat).length = len.toNat := by rw [List.length_take]; omega
        refine ⟨?_, src0, by simpa [taken] using short⟩
        have split := List.take_append_drop len.toNat rest
        rw [crc] at split
        unfold frameBytes
        rw [show frameBody { src := src, dst := dst, kind := kind, payload := rest.take len.toNat } =
          src :: dst :: kind :: len :: rest.take len.toNat by unfold frameBody; dsimp only; rw [taken, u8_self]; rfl] at split ⊢
        rw [List.cons_append, List.cons_append, List.cons_append, List.cons_append, split]
      · cases h
    · cases h
  · cases h

/-! ### The management requests that end with their answer (R133, R163) -/

/-- A request that the part reads and takes now is performed on the state that has heard it. -/
theorem request_performed {s : State} {src : Byte} (h : s.manages src) {sub : Nat} (hs : sub < 16) {p : List Byte}
    (hp : p.length ≤ 24) {q : Request} (hq : readRequest sub p = some q) (hb : s.committing = false ∨ q.always = true) :
    request src sub p s = finish (perform src q (Work.idle (s.heardFrom src))) := by
  rw [request_taken h hs hp, handle_perform hq]
  rw [Work.idle_st, State.heardFrom_eq]
  exact hb

theorem finish_idle_answer (s : State) (dst : Byte) (r : Result) :
    finish ((Work.idle s).answer dst r) = .next (s.reply dst r).arbitrate := finish_idle rfl

/-! ### The unlock conditions (R147) -/

theorem unlockRefusal_heardFrom (s : State) (src : Byte) : (s.heardFrom src).unlockRefusal = s.unlockRefusal := by
  rw [State.heardFrom_eq]
  rfl

theorem unlockRefusal_setUnlock (s : State) (b : Bool) : (s.setUnlock b).unlockRefusal = s.unlockRefusal := rfl

theorem doUnlock_refused {dst : Byte} {w : Work} {reason : Nat} (h : w.st.unlockRefusal = some reason) :
    doUnlock dst w = w.answer dst (.refused reason []) := by
  unfold doUnlock
  rw [h]
  rfl

theorem doUnlock_accepted {dst : Byte} {w : Work} (h : w.st.unlockRefusal = none) :
    doUnlock dst w = acceptUnlock (w.answer dst (.ok [])) := by
  unfold doUnlock
  rw [h]
  rfl

theorem exec_unlock {s : State} {src : Byte} (h : s.manages src) (hc : s.committing = false) :
    exec (.unlock src) s = finish (doUnlock src (Work.idle (s.heardFrom src))) :=
  request_performed (p := []) h (by omega) (Nat.zero_le 24) readRequest_unlock (.inl hc)

theorem exec_unlockEdge {s : State} (hs : s.serving = true) (hu : s.unlockActive = false) :
    exec .unlockEdge s = finish (edgeRequest (s.setUnlock true)) := by
  have e : exec .unlockEdge s = if s.unlockActive then finishState s
      else if s.serving then finish (edgeRequest (s.setUnlock true)) else finishState (s.setUnlock true) := rfl
  rw [e, hu, hs]
  rfl

/-! ### The regain timer (R149) and the writes (R150) -/

theorem regained_of_ranOut {s : State} (h : s.fault.regain = some 0) : regained s =
    (s.setFault { s.fault with
      data := { s.fault.data with allowance := min (s.fault.data.allowance + 1) 3 }
      regain := if min (s.fault.data.allowance + 1) 3 < 3 then some 12000 else none }).requestPersist := by
  unfold regained
  rw [if_pos (by simp [ranOut, h])]
  rfl

theorem regained_of_running {s : State} (h : s.fault.regain ≠ some 0) : regained s = s := if_neg (by simpa [ranOut] using h)

theorem writeCompleted_of_none {s : State} (h : s.store.write = none) : writeCompleted s = s := by
  unfold writeCompleted
  rw [h]

/-- The store when the copy of a write has taken its place (R150). -/
def Store.copied (x : Store) (w : CopyWrite) : Store :=
  { x with copy0 := if w.target = 0 then some w.copy else x.copy0
           copy1 := if w.target = 0 then x.copy1 else some w.copy
           write := none }

theorem writeCompleted_of_some {s : State} {w : CopyWrite} (h : s.store.write = some w) :
    writeCompleted s = s.setStore ((s.store.copied w).nextWrite s.fault.data) := by
  have copied : Store.putCopy { s.store with write := none } w = s.store.copied w := by
    unfold Store.putCopy Store.copied
    split <;> rfl
  unfold writeCompleted
  rw [h]
  dsimp only
  rw [copied]

theorem Store.nextWrite_waiting {x : Store} (d : LockoutData) (h : x.commit = .waiting) :
    x.nextWrite d = { x with commit := .writing } := by
  unfold Store.nextWrite
  rw [h]

theorem Store.nextWrite_other {x : Store} (d : LockoutData) (h : x.commit ≠ .waiting) :
    x.nextWrite d = if x.again then Store.startWrite { x with again := false } d else x := by
  unfold Store.nextWrite
  split
  · next hw => exact absurd hw h
  · rfl

theorem Store.startWrite_newer {x : Store} {i : Nat} {c : Copy} (d : LockoutData) (h : x.newer = some (i, c)) :
    x.startWrite d =
      { x with write := some { target := 1 - i, copy := { data := d, generation := (c.generation + 1) % 65536 } } } := by
  unfold Store.startWrite
  rw [h]

/-! ### COMMIT (R165) -/

theorem doCommit_of_chain {s : State} (h : s.seq.chain ≠ []) : doCommit s = (s, .refused reasonChainBusy []) :=
  if_pos (by simpa using h)

theorem doCommit_of_failure {s : State} {k : TableKind} {i : Nat} (h : s.seq.chain = [])
    (hf : crossCheck s.staging = some (k, i)) :
    doCommit s = (s, .refused reasonCheckFailed [u8 (codeOf TableKind.all k), u8 i]) := by
  unfold doCommit
  rw [h, hf]
  rfl

theorem doCommit_of_passed {s : State} (h : s.seq.chain = []) (hp : crossCheck s.staging = none) :
    doCommit s = (({ s with assembly := none } : State).setStore s.store.startImage, .ok []) := by
  unfold doCommit
  rw [h, hp]
  rfl

theorem exec_commit {s : State} {src : Byte} (h : s.manages src) (hc : s.committing = false) :
    exec (.commit src) s = .next (State.reply (doCommit (s.heardFrom src)).1 src (doCommit (s.heardFrom src)).2).arbitrate := by
  have e : exec (.commit src) s = _ :=
    request_performed (p := []) h (by omega) (Nat.zero_le 24) readRequest_commit (.inl hc)
  rw [e]
  exact finish_idle rfl

theorem exec_discard {s : State} {src : Byte} (h : s.manages src) (hc : s.committing = false) :
    exec (.discard src) s = .next (State.reply (doDiscard (s.heardFrom src)).1 src (doDiscard (s.heardFrom src)).2).arbitrate := by
  have e : exec (.discard src) s = _ :=
    request_performed (p := []) h (by omega) (Nat.zero_le 24) readRequest_discard (.inl hc)
  rw [e]
  exact finish_idle rfl

/-! ### Demand that waits, or is only cleared (R75 to R77) -/

/-- Demand that is not served now leaves the work as it is. -/
theorem actExamineDemand_waits {w : Work}
    (h : w.st.demandServed = false ∨ (w.st.switchCheck w.st.tables.device.startSeq .demand).isSome = true) :
    actExamineDemand w = w := by
  refine if_neg fun k => ?_
  rw [Bool.and_eq_true] at k
  obtain ⟨served, free⟩ := k
  rcases h with h | h
  · rw [h] at served; cases served
  · rw [Option.isNone_iff_eq_none] at free
    rw [free] at h
    cases h

theorem heatTop_iff (s : State) : s.heatTop = true ↔ ∃ t, s.top = some t ∧ (s.tables.seq t).cls = .heat := by
  unfold State.heatTop
  cases s.top <;> simp

/-- Without a HEAT top, DEMAND OFF clears the flag and no more. -/
theorem clearDemand_of_no_heat {w : Work} (h : w.st.heatTop = false) :
    clearDemand false w = w.withSt (w.st.setSeq { w.st.seq with demand := false }) := by
  unfold clearDemand
  dsimp only
  split
  · next t ht =>
    split
    · next hc => rw [(heatTop_iff w.st).2 ⟨t, ht, hc⟩] at h; cases h
    · rfl
    · rfl
  · rfl

end Sys2Proof.Machine

section
open Sys2Proof Sys2Proof.Machine

/-- Settles O9: header, payload and CRC are read back as they were written. -/
theorem frameBytesRoundTrip : Obligations.FrameBytesRoundTrip := by
  unfold Obligations.FrameBytesRoundTrip
  exact ⟨fun f h0 hl => receiveBytes_frameBytes h0 hl, fun bs f h => frameBytes_of_receiveBytes h⟩

/-- Settles O43: the five conditions in their order, and the two ways in which a request for unlock comes. -/
theorem unlockConditions : Obligations.UnlockConditions := by
  unfold Obligations.UnlockConditions
  intro s
  refine ⟨fun h => ?_, fun h ha => ?_, fun h ha hl => ?_, fun h ha hl hp => ?_, fun h ha hl hc hp => ?_, fun src hm hc => ⟨?_, ?_⟩,
    fun hs hu => ⟨?_, ?_⟩⟩
  · simp [State.unlockRefusal, h]
  · simp [State.unlockRefusal, h, ha]
  · simp [State.unlockRefusal, h, hl, Nat.ne_of_gt ha]
  · rcases hp with hp | hp <;> simp [State.unlockRefusal, h, hl, hp, Nat.ne_of_gt ha]
  · simp [State.unlockRefusal, h, hl, hc, hp, Nat.ne_of_gt ha]
  · intro reason hr
    rw [exec_unlock hm hc, doUnlock_refused ((unlockRefusal_heardFrom s src).trans hr)]
    exact finish_idle_answer _ _ _
  · intro hr
    rw [exec_unlock hm hc, doUnlock_accepted ((unlockRefusal_heardFrom s src).trans hr)]
  · intro reason hr
    rw [exec_unlockEdge hs hu, edgeRequest, unlockRefusal_setUnlock, hr]
    exact finish_idle rfl
  · intro hr
    rw [exec_unlockEdge hs hu, edgeRequest, unlockRefusal_setUnlock, hr]

/-- Settles O45: the regain timer at its end, and the level of the UNLOCK input. -/
theorem regainAndUnlockInput : Obligations.RegainAndUnlockInput := by
  unfold Obligations.RegainAndUnlockInput
  intro s
  have e : exec .regainExpiry s = .next (regained s).arbitrate := rfl
  refine ⟨fun h => ?_, fun h => ?_, rfl, ?_⟩
  · rw [e, regained_of_ranOut h]
  · rw [e, regained_of_running h]
  · simp [State.unlockActive]

/-- Settles O51: the copy takes its place, and then at most one further write begins. -/
theorem persistenceWriteCompletes : Obligations.PersistenceWriteCompletes := by
  unfold Obligations.PersistenceWriteCompletes
  intro s
  have e : exec .persistenceWriteComplete s = .next (writeCompleted s).arbitrate := rfl
  refine ⟨fun h => by rw [e, writeCompleted_of_none h], fun w h => ?_⟩
  dsimp only
  rw [e, writeCompleted_of_some h]
  have again : (s.store.copied w).again = s.store.again := rfl
  refine ⟨fun hc => ?_, fun hc ha => ?_, fun i c hc ha hn => ?_⟩
  · rw [Store.nextWrite_waiting (x := s.store.copied w) _ hc]
    rfl
  · rw [Store.nextWrite_other (x := s.store.copied w) _ hc, if_neg (by rw [again, ha]; decide)]
    rfl
  · rw [Store.nextWrite_other (x := s.store.copied w) _ hc, if_pos (again.trans ha),
      Store.startWrite_newer (x := { s.store.copied w with again := false }) s.fault.data hn]
    rfl

/-- Settles O28: demand that must wait sets its flag, and DEMAND OFF without a HEAT top clears it. -/
theorem demandWaitsOrIsCleared : Obligations.DemandWaitsOrIsCleared := by
  unfold Obligations.DemandWaitsOrIsCleared
  intro s src hm hc
  dsimp only
  have heat : (s.heardFrom src).heatOnChain = s.heatOnChain := by rw [State.heardFrom_eq]; rfl
  refine ⟨fun waits => ?_, fun cold => ?_⟩
  · have e : exec (.demandOn src) s = finish (doDemandOn src (Work.idle (s.heardFrom src))) :=
      request_performed (p := []) hm (by omega) (Nat.zero_le 24) readRequest_demandOn (.inl hc)
    have device : (s.heardFrom src).tables.device.startSeq = s.tables.device.startSeq := by rw [State.heardFrom_eq]
    rw [e, ← heat]
    unfold doDemandOn
    dsimp only
    rw [← device] at waits
    have entered : ((((s.heardFrom src).setSeq { (s.heardFrom src).seq with demand := true }).demandServed) &&
        (((s.heardFrom src).setSeq { (s.heardFrom src).seq with demand := true }).switchCheck
          (s.heardFrom src).tables.device.startSeq .demand).isNone) = false := by
      rw [Bool.and_eq_false_iff]
      rcases waits with h | h
      · exact .inl h
      · exact .inr (by rw [Option.isNone_eq_false_iff]; exact h)
    rw [actExamineDemand_waits (by exact waits)]
    refine (finish_idle rfl).trans ?_
    simp only [Work.idle_st, Work.withSt_st, State.setSeq_tables, entered, Bool.false_or]
    rfl
  · have e : exec (.demandOff src) s = finish (doDemandOff src (Work.idle (s.heardFrom src))) :=
      request_performed (p := []) hm (by omega) (Nat.zero_le 24) readRequest_demandOff (.inl hc)
    have cold' : (s.heardFrom src).heatTop = false := by
      rw [State.heardFrom_eq]
      exact cold
    rw [e, ← heat]
    unfold doDemandOff
    rw [clearDemand_of_no_heat (by exact cold'), Work.idle_st, cold']
    refine (finish_idle rfl).trans ?_
    cases (s.heardFrom src).heatOnChain <;> rfl

/-- Settles O59: the first failing entry is the one that `crossCheck` answers, and the two requests answer by it. -/
theorem discardAndCommitAnswered : Obligations.DiscardAndCommitAnswered := by
  unfold Obligations.DiscardAndCommitAnswered
  refine ⟨fun t => ⟨crossCheck_eq_none_iff t, crossCheck_eq_some_iff t⟩, fun s src hm hc => ?_⟩
  have chain : (s.heardFrom src).seq.chain = s.seq.chain := by rw [State.heardFrom_eq]
  have staging : (s.heardFrom src).staging = s.staging := by rw [State.heardFrom_eq]
  have tables : (s.heardFrom src).tables = s.tables := by rw [State.heardFrom_eq]
  have store : (s.heardFrom src).store = s.store := by rw [State.heardFrom_eq]
  dsimp only
  refine ⟨?_, fun hchain => ?_, fun k i hchain hf => ?_, fun hchain hp => ?_⟩
  · rw [exec_discard hm hc, doDiscard, tables]
    rfl
  · rw [exec_commit hm hc, doCommit_of_chain (fun k => hchain (chain.symm.trans k))]
  · rw [exec_commit hm hc, doCommit_of_failure (chain.trans hchain) (by rw [staging, hf])]
  · rw [exec_commit hm hc, doCommit_of_passed (chain.trans hchain) (by rw [staging, hp]), store]
    rfl

end
end

section
/-! SUPPORT. Cascades without a consumer: the condition walks and flue inputs that one event emits are taken one after the other,
each to its end, and nothing else follows: O23, O34 and O35. -/

namespace Sys2Proof.Machine

/-! ### One work leading to another -/

/-- In `m` actions the cascade of `w` comes to `w'`. -/
def Leads (m : Nat) (w w' : Work) : Prop := ∀ k, runWork (m + k) w = runWork k w'

theorem Leads.refl (w : Work) : Leads 0 w w := fun k => by rw [Nat.zero_add]

theorem Leads.trans {m n : Nat} {a b c : Work} (h : Leads m a b) (g : Leads n b c) : Leads (m + n) a c := fun k => by
  rw [Nat.add_assoc, h (n + k), g k]

theorem Leads.take {w w' : Work} {a : Act} (h : w.take = some (a, w')) : Leads 1 w (act a w') := fun k => by
  rw [Nat.add_comm 1 k, runWork_take k h]

theorem Leads.finish {m : Nat} {w w' : Work} (h : Leads m w w') (hm : m ≤ Config.cascadeLimit) (he : w'.take = none) :
    finish w = .next w'.st.arbitrate :=
  finish_next hm ((h 0).trans (runWork_done 0 he))

/-- The work between two events: the events that wait, in a state. -/
def Work.waiting (s : State) (l : List Act) : Work := { st := s, stack := [], fins := [], emitted := [], queue := l }

@[simp] theorem Work.waiting_st (s : State) (l : List Act) : (Work.waiting s l).st = s := rfl

theorem Work.take_waiting (s : State) (a : Act) (l : List Act) : (Work.waiting s (a :: l)).take = some (a, Work.waiting s l) := rfl

theorem Work.take_waiting_nil (s : State) : (Work.waiting s []).take = none := rfl

/-- When an event is complete, its hand-offs go before the events that wait (log 4). -/
theorem Leads.emitted {w : Work} (hs : w.stack = []) (hf : w.fins = []) :
    Leads 0 w (Work.waiting w.st (w.emitted ++ w.queue)) := by
  intro k
  have none_iff : w.take = none ↔ (Work.waiting w.st (w.emitted ++ w.queue)).take = none := by
    unfold Work.take Work.waiting
    rw [hs, hf]
    dsimp only
    cases h : w.emitted ++ w.queue <;> simp
  rw [Nat.zero_add]
  cases h : w.emitted ++ w.queue with
  | nil =>
    rw [h] at none_iff
    rw [runWork_done k (none_iff.2 rfl), runWork_done k rfl]
    rfl
  | cons a l =>
    have e : w.take = some (a, Work.waiting w.st l) := by
      unfold Work.take
      rw [hs, hf]
      dsimp only
      rw [h]
      rfl
    cases k with
    | zero => simp only [runWork, e, Work.take_waiting]
    | succ k => rw [runWork_take k e, runWork_take k (Work.take_waiting w.st a l)]

theorem Leads.of_take {w w' : Work} {a : Act} (h : w.take = some (a, w')) (hs : (act a w').stack = [])
    (hf : (act a w').fins = []) :
    Leads 1 w (Work.waiting (act a w').st ((act a w').emitted ++ (act a w').queue)) := by
  have := (Leads.take h).trans (Leads.emitted hs hf)
  simpa using this

/-- What an event of one action hands on waits with the events that waited. -/
theorem Leads.emit (s t : State) (acts l : List Act) :
    Leads 0 (((Work.waiting s l).withSt t).emit acts) (Work.waiting t (acts ++ l)) := Leads.emitted rfl rfl

/-! ### What a walk changes -/

theorem walkAt_eq (i : CondInput) (acc : State × List Nat) (c : Nat) :
    (walkAt i acc c).1 = { acc.1 with conds := (walkAt i acc c).1.conds } := by
  unfold walkAt
  dsimp only
  split <;> rfl

theorem foldl_walkAt_eq (i : CondInput) (l : List Nat) (acc : State × List Nat) :
    (l.foldl (walkAt i) acc).1 = { acc.1 with conds := (l.foldl (walkAt i) acc).1.conds } := by
  induction l generalizing acc with
  | nil => rfl
  | cons c l ih =>
    rw [List.foldl_cons]
    have rest := ih (walkAt i acc c)
    rw [walkAt_eq i acc c] at rest
    exact rest

theorem walk_eq (i : CondInput) (s : State) (changed : List Nat) :
    (walk i s changed).1 = { s with conds := (walk i s changed).1.conds } := by
  unfold walk
  exact foldl_walkAt_eq i (List.range 32) (s, changed)

theorem State.walked_eq (s : State) (i : CondInput) : s.walked i = { s with conds := (s.walked i).conds } := by
  unfold State.walked
  exact walk_eq i s []

theorem expireHold_eq (c : Nat) (s : State) : (expireHold c s).1 = { s with conds := (expireHold c s).1.conds } := by
  unfold expireHold
  split <;> rfl

theorem walkStart_eq (i : CondInput) (s : State) : (walkStart i s).1 = { s with conds := (walkStart i s).1.conds } := by
  unfold walkStart
  split
  · exact expireHold_eq _ s
  · rfl

/-- The state after the walk of an event, a hold expiry taken first. -/
def State.walkedFrom (s : State) (i : CondInput) : State := (walk i (walkStart i s).1 (walkStart i s).2).1

theorem State.walkedFrom_eq (s : State) (i : CondInput) : s.walkedFrom i = { s with conds := (s.walkedFrom i).conds } := by
  unfold State.walkedFrom
  have e := walk_eq i (walkStart i s).1 (walkStart i s).2
  generalize hs : (walkStart i s).1 = start at e ⊢
  have start_eq := walkStart_eq i s
  rw [hs] at start_eq
  rw [e, start_eq]

theorem State.walkedFrom_of_no_hold {s : State} {i : CondInput} (h : ∀ c, i ≠ .hold c) : s.walkedFrom i = s.walked i := by
  unfold State.walkedFrom State.walked walkStart
  split
  · next c => exact absurd rfl (h c)
  · rfl

/-! ### Walks and flue inputs that no consumer follows -/

theorem unheeded_of_eq {s t : State} (h : s.unheeded) (ht : t.tables = s.tables) (hs : t.seq = s.seq) : t.unheeded := by
  unfold State.unheeded
  rw [ht, hs]
  exact h

theorem unheeded_of_conds_eq {s t : State} {c : List CondRun} (h : s.unheeded) (e : t = { s with conds := c }) : t.unheeded := by
  subst e
  exact h

theorem phase_of_conds_eq {s t : State} {c : List CondRun} (e : t = { s with conds := c }) : t.phase = s.phase := by
  subst e
  rfl

theorem State.walkedFrom_unheeded {s : State} (h : s.unheeded) (i : CondInput) : (s.walkedFrom i).unheeded :=
  unheeded_of_conds_eq h (State.walkedFrom_eq s i)

theorem State.walked_phase (s : State) (i : CondInput) : (s.walked i).phase = s.phase := phase_of_conds_eq (State.walked_eq s i)

theorem State.walked_unheeded {s : State} (h : s.unheeded) (i : CondInput) : (s.walked i).unheeded :=
  unheeded_of_conds_eq h (State.walked_eq s i)

theorem handoff_leads {s : State} (h : s.unheeded) (set : List (Nat × Tri)) (l : List Act) :
    Leads 2 (Work.waiting s (.handoff set :: l)) (Work.waiting s l) := by
  have handed : act (.handoff set) (Work.waiting s l) = (Work.waiting s l).push [.applyTriggers set] := actHandoff_unheeded h set
  have applied : act (.applyTriggers set) (Work.waiting s l) = Work.waiting s l := actApplyTriggers_unheeded h set
  have first := Leads.take (Work.take_waiting s (.handoff set) l)
  have second : Leads 1 ((Work.waiting s l).push [.applyTriggers set]) (act (.applyTriggers set) (Work.waiting s l)) :=
    Leads.take rfl
  rw [handed] at first
  rw [applied] at second
  exact first.trans second

theorem actCondWalk_of_normal {w : Work} (hn : w.st.phase = .normal) (i : CondInput) :
    act (.condWalk i) w =
      if (walk i (walkStart i w.st).1 (walkStart i w.st).2).2.isEmpty then w.withSt (w.st.walkedFrom i)
      else (w.withSt (w.st.walkedFrom i)).emit
        [.handoff (handoffSet (w.st.walkedFrom i) (walk i (walkStart i w.st).1 (walkStart i w.st).2).2)] :=
  if_pos (by simp [State.normal, hn])

/-- A condition walk is taken to its end before the events that wait. -/
theorem condWalk_leads {s : State} (hn : s.phase = .normal) (h : s.unheeded) (i : CondInput) (l : List Act) :
    ∃ m, m ≤ 3 ∧ Leads m (Work.waiting s (.condWalk i :: l)) (Work.waiting (s.walkedFrom i) l) := by
  have first := Leads.take (Work.take_waiting s (.condWalk i) l)
  rw [actCondWalk_of_normal (w := Work.waiting s l) hn] at first
  split at first
  · exact ⟨1, by omega, first⟩
  · have emitted := first.trans (Leads.emit s (s.walkedFrom i) _ l)
    exact ⟨1 + 0 + 2, by omega, emitted.trans (handoff_leads (State.walkedFrom_unheeded h i) _ l)⟩

theorem condWalks_lead {s : State} (hn : s.phase = .normal) (h : s.unheeded) (rs : List CondInput)
    (hi : ∀ i ∈ rs, ∀ c, i ≠ .hold c) (l : List Act) :
    ∃ m, m ≤ 3 * rs.length ∧ Leads m (Work.waiting s (rs.map .condWalk ++ l)) (Work.waiting (rs.foldl State.walked s) l) := by
  induction rs generalizing s with
  | nil => exact ⟨0, Nat.zero_le _, Leads.refl _⟩
  | cons i rs ih =>
    obtain ⟨m, hm, first⟩ := condWalk_leads hn h i (rs.map .condWalk ++ l)
    rw [State.walkedFrom_of_no_hold (hi i (by simp))] at first
    have normal : (s.walked i).phase = .normal := by rw [State.walked_phase, hn]
    obtain ⟨n, hn', rest⟩ := ih normal (State.walked_unheeded h i)
      (fun j hj => hi j (by simp [hj]))
    rw [List.foldl_cons, List.map_cons, List.cons_append]
    exact ⟨m + n, by rw [List.length_cons]; omega, first.trans rest⟩

/-- A flue input, with the walk that it causes, is taken to its end before the events that wait. -/
theorem flueInput_leads {s : State} (hn : s.phase = .normal) (h : s.unheeded) (p : Nat) (sample : Option Int) (l : List Act) :
    ∃ m, m ≤ 4 ∧ Leads m (Work.waiting s (.flueInput p sample :: l)) (Work.waiting (s.tookFlue p sample) l) := by
  have first := Leads.take (Work.take_waiting s (.flueInput p sample) l)
  change Leads 1 _ (actFlueInput p sample (Work.waiting s l)) at first
  rw [actFlueInput_of_normal p sample (w := Work.waiting s l) hn] at first
  have kinds : flueChanges s.flue (flueAfter s p sample) =
      [FlueKind.draught, .blocked, .spill, .rise].filter fun k => s.flue.value k != (flueAfter s p sample).value k := rfl
  unfold State.tookFlue
  dsimp only
  rw [← kinds]
  split
  · next none =>
    rw [Work.waiting_st, Work.setFlue_of_same (w := Work.waiting s l) none] at first
    exact ⟨1, by omega, first⟩
  · next some =>
    rw [Work.waiting_st, Work.setFlue_of_changed (w := Work.waiting s l) some, Work.waiting_st] at first
    have emitted := first.trans (Leads.emit s (s.setFlue (flueAfter s p sample)) _ l)
    obtain ⟨m, hm, walk⟩ := condWalk_leads (s := s.setFlue (flueAfter s p sample)) hn h
      (.flue (flueChanges s.flue (flueAfter s p sample))) l
    rw [State.walkedFrom_of_no_hold (fun c => by simp)] at walk
    exact ⟨1 + 0 + m, by omega, emitted.trans walk⟩

/-- A work of nothing but walks ends with the walks taken in turn. -/
theorem finish_condWalks {w : Work} (hn : w.st.phase = .normal) (h : w.st.unheeded) (hs : w.stack = []) (hf : w.fins = [])
    (hq : w.queue = []) {rs : List CondInput} (he : w.emitted = rs.map .condWalk) (hi : ∀ i ∈ rs, ∀ c, i ≠ .hold c)
    (hl : rs.length ≤ 1000) : finish w = .next (rs.foldl State.walked w.st).arbitrate := by
  obtain ⟨m, hm, walks⟩ := condWalks_lead hn h rs hi []
  have start := Leads.emitted hs hf
  rw [he, hq] at start
  exact (start.trans walks).finish (by unfold Config.cascadeLimit; omega) rfl

/-! ### The rise window, the timers of the roles, the lines -/

theorem exec_riseWindowExpiry (s : State) : exec .riseWindowExpiry s =
    if s.normal then finish ((Work.idle s).setFlue (expiredFlue s.flue)) else finishState s := rfl

theorem expiredFlue_of_not {f : FlueRun} (h : f.rise ≠ .armed ∨ f.riseTimer ≠ some 0) : expiredFlue f = f := by
  refine if_neg fun k => ?_
  obtain ⟨armed, out⟩ := k
  rcases h with h | h
  · exact h armed
  · exact h (by simpa [ranOut] using out)

theorem flueChanges_self (f : FlueRun) : flueChanges f f = [] := (flueChanges_eq_nil f f).2 fun _ => rfl

theorem flueChanges_expired {f : FlueRun} (h : f.rise = .armed) :
    flueChanges f { f with rise := .failed, riseTimer := none } = [.rise] := by
  simp [flueChanges, FlueRun.value, h, RiseState.value]

theorem placeSub_field {s : State} {r n c : Nat} (h : (s.tables.role r).target = .field n c) (v : Nat) :
    s.placeSub r v = s.setSlot r (some { node := n, channel := c, last := some v, pending := true, newer := true }) := by
  unfold State.placeSub
  rw [h]
  rfl

theorem ranOut_iff (t : Option Nat) : ranOut t = true ↔ t = some 0 := by simp [ranOut]

theorem State.normal_of_phase {s : State} (h : s.phase = .normal) : s.normal = true := by simp [State.normal, h]

theorem confirmExpired_of_ranOut {r : Nat} {w : Work} (hn : w.st.phase = .normal) (h : (w.st.role r).confirm = some 0) :
    confirmExpired r w = (w.withSt (w.st.setRole r { w.st.role r with confirm := none })).emit [.condWalk (.role r)] :=
  if_pos (by rw [State.normal_of_phase hn, (ranOut_iff _).2 h]; rfl)

theorem confirmExpired_of_running {r : Nat} {w : Work} (h : (w.st.role r).confirm ≠ some 0) : confirmExpired r w = w :=
  if_neg (by simp [ranOut, h])

/-- What the role of a line hands on when the line's readback has changed (R28, R119). -/
def State.lineWalked (s : State) (l : Nat) : State := ((s.tables.roleOfLine l).map fun r => s.walked (.role r)).getD s

theorem finish_lineToConditions {w : Work} {l : Nat} {t : Tables} (hn : w.st.phase = .normal) (h : w.st.unheeded)
    (hs : w.stack = []) (hf : w.fins = []) (hq : w.queue = []) (ht : w.st.tables = t)
    (he : w.emitted = (match t.roleOfLine l with | some r => [.condWalk (.role r)] | none => [])) :
    finish w = .next (w.st.lineWalked l).arbitrate := by
  subst ht
  unfold State.lineWalked
  cases hr : w.st.tables.roleOfLine l with
  | none =>
    rw [hr] at he
    exact finish_condWalks hn h hs hf hq (rs := []) he (fun _ hi => nomatch hi) (Nat.zero_le _)
  | some r =>
    rw [hr] at he
    exact finish_condWalks hn h hs hf hq (rs := [.role r]) he
      (fun i hi c => by cases List.mem_singleton.1 hi; exact fun k => nomatch k) (by simp)

theorem arrange_first (o : HandoffOrder) (l : List Act) : arrange o l [] [] = l := by
  cases o <;> simp [arrange]

theorem State.mismatchFault_of_quiet {s : State} {l : Nat}
    (h : s.sense l = (s.line l).commanded ∨ (s.line l).mismatch = true) : s.mismatchFault l = [] := by
  refine if_neg fun k => ?_
  rw [Bool.and_eq_true, Bool.not_eq_true'] at k
  obtain ⟨disagrees, clear⟩ := k
  rcases h with h | h
  · rw [State.disagrees, h] at disagrees
    simp at disagrees
  · rw [h] at clear; cases clear

/-- A comparison that raises no fault hands the line's role on, and no more. -/
theorem compareLine_of_quiet {w : Work} {l : Nat}
    (h : w.st.sense l = (w.st.line l).commanded ∨ (w.st.line l).mismatch = true) :
    compareLine l w = (w.withSt (w.st.compared l)).emit (w.st.lineToConditions l) := by
  unfold compareLine
  rw [State.mismatchFault_of_quiet h, arrange_first]

theorem State.line_setLine {s : State} {l : Nat} (h : l < s.lines.length) (x : LineRun) : (s.setLine l x).line l = x :=
  (getD_set _ _ _ _ _).trans (if_pos ⟨rfl, h⟩)

theorem State.setLine_setLine (s : State) (l : Nat) (x y : LineRun) : (s.setLine l x).setLine l y = s.setLine l y := by
  unfold State.setLine
  simp only [List.set_set]

theorem State.sense_setSense {s : State} {l : Nat} (h : l < s.pins.sense.length) (on : Bool) : (s.setSense l on).sense l = on :=
  (getD_set _ _ _ _ _).trans (if_pos ⟨rfl, h⟩)

end Sys2Proof.Machine

section
open Sys2Proof Sys2Proof.Machine

/-- Settles O23: the expiry changes FLUE_RISE alone, which the conditions take by their walk. -/
theorem riseWindowExpiryFails : Obligations.RiseWindowExpiryFails := by
  unfold Obligations.RiseWindowExpiryFails
  intro s
  refine ⟨fun hn armed out h => ?_, fun h => ?_⟩
  · have expired : expiredFlue s.flue = { s.flue with rise := .failed, riseTimer := none } := if_pos ⟨armed, (ranOut_iff _).2 out⟩
    have changed : flueChanges s.flue { s.flue with rise := .failed, riseTimer := none } = [.rise] := flueChanges_expired armed
    rw [exec_riseWindowExpiry, if_pos (State.normal_of_phase hn), expired,
      Work.setFlue_of_changed (w := Work.idle s) (by rw [Work.idle_st, changed]; exact List.cons_ne_nil _ _), Work.idle_st, changed]
    exact finish_condWalks (rs := [.flue [.rise]]) hn h rfl rfl rfl rfl
      (fun i hi c => by cases List.mem_singleton.1 hi; exact fun k => nomatch k) (by simp)
  · have same : (Work.idle s).setFlue s.flue = Work.idle s := Work.setFlue_of_same (flueChanges_self _)
    rw [exec_riseWindowExpiry, expiredFlue_of_not h, same]
    split
    · exact finish_idleState _
    · rfl

/-- Settles O34: each of a role's three timers at its end, and a timer that is not there. -/
theorem fieldRoleTimersExpire : Obligations.FieldRoleTimersExpire := by
  unfold Obligations.FieldRoleTimersExpire
  intro r s
  have refresh : exec (.refreshExpiry r) s = .next (refreshExpired r s).arbitrate := rfl
  have confirm : exec (.confirmExpiry r) s = finish (confirmExpired r (Work.idle s)) := rfl
  have heard : exec (.heardTimerExpiry r) s = .next (heardExpired r s).arbitrate := rfl
  refine ⟨fun n c hn out target => ?_, fun running => ?_, fun hn out h => ?_, fun running => ?_, fun out => ?_, fun running => ?_⟩
  · have e : refreshExpired r s = (s.setRole r { (s.role r).renew (s.tables.role r).confirmWindow with
        refresh := some (s.tables.device.refresh * 10) }).placeSub r ((s.role r).renew (s.tables.role r).confirmWindow).applied :=
      if_pos (by rw [State.normal_of_phase hn, (ranOut_iff _).2 out]; rfl)
    rw [refresh, e, placeSub_field (s := s.setRole r _) target]
    unfold RoleRun.renew
    dsimp only
    split <;> rfl
  · rw [refresh, refreshExpired, if_neg (by simp [ranOut, running])]
  · rw [confirm, confirmExpired_of_ranOut (w := Work.idle s) hn out]
    exact finish_condWalks (rs := [.role r]) hn h rfl rfl rfl rfl
      (fun i hi c => by cases List.mem_singleton.1 hi; exact fun k => nomatch k) (by simp)
  · rw [confirm, confirmExpired_of_running (w := Work.idle s) running]
    exact finish_idleState _
  · rw [heard, heardExpired, if_pos ((ranOut_iff _).2 out)]
  · rw [heard, heardExpired, if_neg (by simp [ranOut, running])]

/-- Settles O35: a comparison without a fault sets the mark, and the line's role is handed on. -/
theorem readbackCompared : Obligations.ReadbackCompared := by
  unfold Obligations.ReadbackCompared
  intro l s hl hn sized h
  have length : s.lines.length = 8 := by obtain ⟨-, -, -, -, -, -, length, -⟩ := sized; exact length
  have pins : s.pins.sense.length = 8 := by obtain ⟨-, -, -, -, -, -, -, pins, -⟩ := sized; exact pins
  have settle : exec (.settleExpiry l) s = finish (settleExpired l (Work.idle s)) := rfl
  have sense (on : Bool) : exec (.senseChange l on) s = finish (senseChanged l on (Work.idle s)) := if_pos hl
  have changes (on : Bool) (k : s.sense l = !on) : s.sense l ≠ on := by rw [k]; cases on <;> decide
  refine ⟨fun out quiet => ?_, fun running => ?_, fun on other settling => ?_, fun on other settled quiet => ?_⟩
  · have line := State.line_setLine (s := s) (l := l) (by omega) { s.line l with settle := none }
    have e : settleExpired l (Work.idle s) = compareLine l ((Work.idle s).withSt (s.setLine l { s.line l with settle := none })) :=
      if_pos (by rw [Work.idle_st, State.normal_of_phase hn, (ranOut_iff _).2 out]; rfl)
    rw [settle, e, compareLine_of_quiet (by rw [Work.withSt_st, line]; exact quiet)]
    refine (finish_lineToConditions hn h rfl rfl rfl rfl rfl).trans ?_
    rw [Work.emit_st, Work.withSt_st, Work.withSt_st, State.compared, State.setLine_setLine, line, State.disagrees, line]
    rfl
  · rw [settle, settleExpired, if_neg (by simp [ranOut, running])]
    exact finish_idleState _
  · have line : ((Work.idle s).withSt (s.setSense l on)).st.line l = s.line l := rfl
    rw [sense, senseChanged, Work.idle_st, if_neg (changes on other)]
    dsimp only
    rw [if_pos (by exact State.normal_of_phase hn), if_pos (by rw [line]; exact settling)]
    exact finish_lineToConditions hn h rfl rfl rfl rfl rfl
  · have now : ((Work.idle s).withSt (s.setSense l on)).st.sense l = on := State.sense_setSense (s := s) (l := l) (by omega) on
    have line : ((Work.idle s).withSt (s.setSense l on)).st.line l = s.line l := rfl
    rw [sense, senseChanged, Work.idle_st, if_neg (changes on other)]
    dsimp only
    rw [if_pos (by exact State.normal_of_phase hn), if_neg (by rw [line, settled]; decide),
      compareLine_of_quiet (by rw [now, line]; exact quiet)]
    refine (finish_lineToConditions hn h rfl rfl rfl rfl rfl).trans ?_
    rw [Work.emit_st, Work.withSt_st, State.compared, State.disagrees, now, line]
    rfl

end
end

section
/-! SUPPORT. Readings, settings and second marks while no consumer follows: what each hands on is taken to its end before
what waits, whatever the trace, the gate and the field port hold. -/

namespace Sys2Proof.Machine

/-! ### What the Condition Unit and the Flue Unit do not look at -/

/-- The state with another Trace Unit, gate and field port: none of them is evidence. -/
def State.aside (s : State) (t : TraceUnit) (g : Gate) (p : PortState) : State := { s with trace := t, gate := g, fieldPort := p }

theorem State.aside_aside (s : State) (t t' : TraceUnit) (g g' : Gate) (p p' : PortState) :
    (s.aside t g p).aside t' g' p' = s.aside t' g' p' := rfl

theorem State.aside_self (s : State) : s.aside s.trace s.gate s.fieldPort = s := rfl

theorem State.aside_unheeded {s : State} (h : s.unheeded) (t : TraceUnit) (g : Gate) (p : PortState) : (s.aside t g p).unheeded := h

theorem rawValue_aside (s : State) (t : TraceUnit) (g : Gate) (p : PortState) (e : CondEntry) (v : Tri) :
    rawValue (s.aside t g p) e v = rawValue s e v := by
  unfold rawValue
  cases e.kind <;> rfl

theorem walkAt_aside (i : CondInput) (s : State) (changed : List Nat) (t : TraceUnit) (g : Gate) (p : PortState) (c : Nat) :
    walkAt i (s.aside t g p, changed) c = ((walkAt i (s, changed) c).1.aside t g p, (walkAt i (s, changed) c).2) := by
  unfold walkAt
  dsimp only
  rw [rawValue_aside]
  by_cases h : ((s.tables.cond c).inUse && (marks i (s.tables.cond c) || marksCombination changed (s.tables.cond c))) = true
  · rw [if_pos h]; exact if_pos h
  · rw [if_neg h]; exact if_neg h

theorem foldl_walkAt_aside (i : CondInput) (l : List Nat) (s : State) (changed : List Nat) (t : TraceUnit) (g : Gate)
    (p : PortState) : l.foldl (walkAt i) (s.aside t g p, changed) =
      ((l.foldl (walkAt i) (s, changed)).1.aside t g p, (l.foldl (walkAt i) (s, changed)).2) := by
  induction l generalizing s changed with
  | nil => rfl
  | cons c l ih => rw [List.foldl_cons, List.foldl_cons, walkAt_aside, ih]

theorem State.walked_aside (s : State) (i : CondInput) (t : TraceUnit) (g : Gate) (p : PortState) :
    (s.aside t g p).walked i = (s.walked i).aside t g p := by
  unfold State.walked walk
  rw [foldl_walkAt_aside]

theorem flueAfter_aside (s : State) (t : TraceUnit) (g : Gate) (p : PortState) (i : Nat) (sample : Option Int) :
    flueAfter (s.aside t g p) i sample = flueAfter s i sample := rfl

theorem State.tookFlue_aside (s : State) (i : Nat) (sample : Option Int) (t : TraceUnit) (g : Gate) (p : PortState) :
    (s.aside t g p).tookFlue i sample = (s.tookFlue i sample).aside t g p := by
  have setFlue (f : FlueRun) : (s.aside t g p).setFlue f = (s.setFlue f).aside t g p := rfl
  have flue : (s.aside t g p).flue = s.flue := rfl
  unfold State.tookFlue
  dsimp only
  rw [flueAfter_aside, setFlue, State.walked_aside, flue]
  split <;> rfl

/-! ### The three hand-offs of a point -/

/-- What the Condition Unit does with point `p`, whose record has changed from `old` to `new` (R13). -/
def State.tookPoint (s : State) (p : Nat) (old new : PointRun) : State := if pointChanged old new then s.walked (.point p) else s

/-- What the Flue Unit does with a point that the flue record names (R14). -/
def State.tookNamed (s : State) (p : Nat) (old new : PointRun) (sample : Option Int) : State :=
  if flueNames s.tables.flue p && (sample.isSome || old.quality != new.quality) then s.tookFlue p sample else s

/-- The state with other conditions and another flue. -/
def State.sensed (s : State) (c : List CondRun) (f : FlueRun) : State := { s with conds := c, flue := f }

/-- Only the conditions and the flue differ. -/
def OnlySensed (s t : State) : Prop := t = s.sensed t.conds t.flue

theorem OnlySensed.refl (s : State) : OnlySensed s s := rfl

theorem OnlySensed.trans {s t u : State} (h : OnlySensed s t) (g : OnlySensed t u) : OnlySensed s u := by
  unfold OnlySensed at *
  rw [h] at g
  exact g

theorem OnlySensed.tables {s t : State} (h : OnlySensed s t) : t.tables = s.tables := by rw [h]; rfl
theorem OnlySensed.phase {s t : State} (h : OnlySensed s t) : t.phase = s.phase := by rw [h]; rfl
theorem OnlySensed.seq {s t : State} (h : OnlySensed s t) : t.seq = s.seq := by rw [h]; rfl
theorem OnlySensed.order {s t : State} (h : OnlySensed s t) : t.order = s.order := by rw [h]; rfl

theorem OnlySensed.unheeded {s t : State} (h : OnlySensed s t) (hs : s.unheeded) : t.unheeded :=
  unheeded_of_eq hs h.tables h.seq

theorem onlySensed_of_conds {s t : State} {c : List CondRun} (e : t = { s with conds := c }) : OnlySensed s t := by
  subst e
  rfl

theorem onlySensed_walked (s : State) (i : CondInput) : OnlySensed s (s.walked i) := onlySensed_of_conds (State.walked_eq s i)

theorem onlySensed_setFlue (s : State) (f : FlueRun) : OnlySensed s (s.setFlue f) := rfl

theorem onlySensed_tookFlue (s : State) (p : Nat) (sample : Option Int) : OnlySensed s (s.tookFlue p sample) := by
  unfold State.tookFlue
  dsimp only
  split
  · exact onlySensed_setFlue s _
  · exact (onlySensed_setFlue s _).trans (onlySensed_walked _ _)

theorem onlySensed_tookPoint (s : State) (p : Nat) (old new : PointRun) : OnlySensed s (s.tookPoint p old new) := by
  unfold State.tookPoint
  split
  · exact onlySensed_walked s _
  · exact OnlySensed.refl s

theorem onlySensed_tookNamed (s : State) (p : Nat) (old new : PointRun) (sample : Option Int) :
    OnlySensed s (s.tookNamed p old new sample) := by
  unfold State.tookNamed
  split
  · exact onlySensed_tookFlue s p sample
  · exact OnlySensed.refl s

theorem State.tookPoint_aside (s : State) (i : Nat) (old new : PointRun) (t : TraceUnit) (g : Gate) (p : PortState) :
    (s.aside t g p).tookPoint i old new = (s.tookPoint i old new).aside t g p := by
  unfold State.tookPoint
  rw [State.walked_aside]
  split <;> rfl

theorem State.tookNamed_aside (s : State) (i : Nat) (old new : PointRun) (sample : Option Int) (t : TraceUnit) (g : Gate)
    (p : PortState) : (s.aside t g p).tookNamed i old new sample = (s.tookNamed i old new sample).aside t g p := by
  have tables : (s.aside t g p).tables = s.tables := rfl
  unfold State.tookNamed
  rw [State.tookFlue_aside, tables]
  split <;> rfl

theorem tookPoint_eq_ite (s : State) (p : Nat) (old new : PointRun) : s.tookPoint p old new =
    if old.filtered ≠ new.filtered ∨ old.quality ≠ new.quality then s.walked (.point p) else s := by
  simp only [State.tookPoint, pointChanged, Bool.or_eq_true, bne_iff_ne]

theorem tookNamed_eq_ite (s : State) (p : Nat) (old new : PointRun) (sample : Option Int) : s.tookNamed p old new sample =
    if (s.tables.flue.draughtPt = some p ∨ s.tables.flue.fluePt = some p ∨ s.tables.flue.spillPt = some p ∨
        s.tables.flue.roomPt = some p) ∧ (sample.isSome = true ∨ old.quality ≠ new.quality) then s.tookFlue p sample else s := by
  simp only [State.tookNamed, flueNames, Bool.and_eq_true, Bool.or_eq_true, bne_iff_ne, decide_eq_true_eq, or_assoc]

theorem State.handedOn_eq (s : State) (p : Nat) (old new : PointRun) (sample : Option Int) :
    s.handedOn p old new sample =
      if s.order = .conditionFlueTrace ∨ s.order = .conditionTraceFlue ∨ s.order = .traceConditionFlue then
        (s.tookPoint p old new).tookNamed p old new sample
      else (s.tookNamed p old new sample).tookPoint p old new := by
  unfold State.handedOn
  dsimp only
  rw [tookNamed_eq_ite (s.tookPoint p old new), (onlySensed_tookPoint s p old new).tables, tookPoint_eq_ite s,
    tookPoint_eq_ite (s.tookNamed p old new sample), tookNamed_eq_ite s]

theorem onlySensed_handedOn (s : State) (p : Nat) (old new : PointRun) (sample : Option Int) :
    OnlySensed s (s.handedOn p old new sample) := by
  rw [State.handedOn_eq]
  split
  · exact (onlySensed_tookPoint s p old new).trans (onlySensed_tookNamed _ p old new sample)
  · exact (onlySensed_tookNamed s p old new sample).trans (onlySensed_tookPoint _ p old new)

theorem State.handedOn_aside (s : State) (i : Nat) (old new : PointRun) (sample : Option Int) (t : TraceUnit) (g : Gate)
    (p : PortState) : (s.aside t g p).handedOn i old new sample = (s.handedOn i old new sample).aside t g p := by
  have order : (s.aside t g p).order = s.order := rfl
  rw [State.handedOn_eq, State.handedOn_eq, order, State.tookPoint_aside, State.tookNamed_aside, State.tookNamed_aside,
    State.tookPoint_aside]
  split <;> rfl

/-! ### Notices of the trace -/

/-- The state with other notices. -/
def State.withNotices (s : State) (n : List Notice) : State := s.setGate { s.gate with notices := n }

/-- The work at the end of an event whose TRACE notices are due. -/
def Work.ending (s : State) (halves : List Nat) (l : List Act) : Work :=
  { st := s, stack := [], fins := halves.map .traceNotice, emitted := [], queue := l }

theorem ending_leads (s : State) (halves : List Nat) (l : List Act) :
    ∃ n, Leads halves.length (Work.ending s halves l) (Work.waiting (s.withNotices n) l) := by
  induction halves generalizing s with
  | nil => exact ⟨s.gate.notices, Leads.refl _⟩
  | cons h halves ih =>
    obtain ⟨n, rest⟩ := ih (s.raiseNotice .trace (s.traceContent h))
    have first : Leads 1 (Work.ending s (h :: halves) l) (Work.ending (s.raiseNotice .trace (s.traceContent h)) halves l) :=
      Leads.take (a := .traceNotice h) (w' := Work.ending s halves l) rfl
    exact ⟨n, by rw [List.length_cons, Nat.add_comm]; exact first.trans rest⟩

theorem setTrace_waiting (s : State) (t : TraceUnit) (l : List Act) :
    ∃ halves : List Nat, halves.length ≤ 2 ∧ (Work.waiting s l).setTrace t = Work.ending (s.setTrace t) halves l := by
  unfold Work.setTrace
  by_cases h0 : (t.ready0 && !s.trace.ready0) = true <;> by_cases h1 : (t.ready1 && !s.trace.ready1) = true
  · exact ⟨[0, 1], Nat.le_refl _, by dsimp only; rw [Work.waiting_st, if_pos h0, if_pos h1]; rfl⟩
  · exact ⟨[0], by simp, by dsimp only; rw [Work.waiting_st, if_pos h0, if_neg h1]; rfl⟩
  · exact ⟨[1], by simp, by dsimp only; rw [Work.waiting_st, if_neg h0, if_pos h1]; rfl⟩
  · exact ⟨[], by simp, by dsimp only; rw [Work.waiting_st, if_neg h0, if_neg h1]; rfl⟩

theorem setTrace_leads (s : State) (t : TraceUnit) (l : List Act) :
    ∃ m n, m ≤ 2 ∧ Leads m ((Work.waiting s l).setTrace t) (Work.waiting (s.aside t { s.gate with notices := n } s.fieldPort) l) := by
  obtain ⟨halves, few, e⟩ := setTrace_waiting s t l
  obtain ⟨n, leads⟩ := ending_leads (s.setTrace t) halves l
  rw [e]
  exact ⟨halves.length, n, few, leads⟩

/-- The trace after a sample of point `p`, when the open record takes it (R15, R154). -/
def State.sampledTrace (s : State) (p : Nat) (v : Int) : TraceUnit := if tracesPoint s p then s.traced [.sample p v] else s.trace

theorem trace_waiting (s : State) (k : TraceKind) (l : List Act) :
    (Work.waiting s l).trace k = (Work.waiting s l).setTrace (s.traced [k]) ∨
      (Work.waiting s l).trace k = Work.waiting s l ∧ s.traced [k] = s.trace := by
  unfold State.traced
  rw [List.foldl_cons, List.foldl_nil]
  cases ho : s.trace.opened with
  | none => exact .inr ⟨Work.trace_none ho k, by rw [Work.trace_none (w := Work.idle s) ho]; rfl⟩
  | some r =>
    cases he : r.ended with
    | some offset => exact .inr ⟨Work.trace_ended ho he k, by rw [Work.trace_ended (w := Work.idle s) ho he]; rfl⟩
    | none =>
      left
      rw [Work.trace_open (w := Work.waiting s l) ho he, Work.trace_open (w := Work.idle s) ho he, Work.setTrace_st]
      rfl

theorem traceSample_leads (s : State) (p : Nat) (v : Int) (l : List Act) :
    ∃ m n, m ≤ 3 ∧ Leads m (Work.waiting s (.traceSample p v :: l))
      (Work.waiting (s.aside (s.sampledTrace p v) { s.gate with notices := n } s.fieldPort) l) := by
  have first : Leads 1 (Work.waiting s (.traceSample p v :: l)) (actTraceSample p v (Work.waiting s l)) :=
    Leads.take (Work.take_waiting s (.traceSample p v) l)
  unfold State.sampledTrace
  unfold actTraceSample at first
  rw [Work.waiting_st] at first
  split
  · next h =>
    rw [if_pos h] at first
    rcases trace_waiting s (.sample p v) l with e | ⟨e, same⟩
    · obtain ⟨m, n, hm, rest⟩ := setTrace_leads s (s.traced [.sample p v]) l
      rw [e] at first
      exact ⟨1 + m, n, by omega, first.trans rest⟩
    · rw [e] at first
      rw [same]
      exact ⟨1, s.gate.notices, by omega, first⟩
  · next h =>
    rw [if_neg h] at first
    exact ⟨1, s.gate.notices, by omega, first⟩

/-! ### The hand-offs of one point, in the free order of log 3 -/

/-- Actions that change only what is sensed, by `F`, in any state under the tables of `s`, within `n` actions. -/
structure Sensing (n : Nat) (s : State) (acts : List Act) (F : State → State) : Prop where
  leads : ∀ (u : State) (l : List Act), u.phase = .normal → u.unheeded → u.tables = s.tables →
    ∃ m, m ≤ n ∧ Leads m (Work.waiting u (acts ++ l)) (Work.waiting (F u) l)
  only : ∀ u, OnlySensed u (F u)
  aside : ∀ (u : State) (t : TraceUnit) (g : Gate) (p : PortState), F (u.aside t g p) = (F u).aside t g p

theorem Sensing.nil (s : State) : Sensing 0 s [] id where
  leads _ _ _ _ _ := ⟨0, Nat.le_refl _, Leads.refl _⟩
  only u := OnlySensed.refl u
  aside _ _ _ _ := rfl

theorem Sensing.append {n k : Nat} {s : State} {a b : List Act} {F G : State → State} (h : Sensing n s a F)
    (g : Sensing k s b G) : Sensing (n + k) s (a ++ b) (G ∘ F) where
  leads u l hn hu ht := by
    obtain ⟨m, hm, first⟩ := h.leads u (b ++ l) hn hu ht
    obtain ⟨m', hm', rest⟩ := g.leads (F u) l ((h.only u).phase.trans hn) ((h.only u).unheeded hu) ((h.only u).tables.trans ht)
    rw [List.append_assoc]
    exact ⟨m + m', by omega, first.trans rest⟩
  only u := (h.only u).trans (g.only _)
  aside u t x p := by rw [Function.comp, h.aside, g.aside]; rfl

theorem sensing_tookPoint (s : State) (p : Nat) (old new : PointRun) :
    Sensing 3 s (pointToConditions p old new) (fun u => u.tookPoint p old new) where
  leads u l hn hu _ := by
    unfold pointToConditions State.tookPoint
    split
    · obtain ⟨m, hm, leads⟩ := condWalk_leads hn hu (.point p) l
      rw [State.walkedFrom_of_no_hold (fun c => by simp)] at leads
      exact ⟨m, hm, leads⟩
    · exact ⟨0, Nat.zero_le _, Leads.refl _⟩
  only u := onlySensed_tookPoint u p old new
  aside u := State.tookPoint_aside u p old new

theorem sensing_tookNamed (s : State) (p : Nat) (old new : PointRun) {ok : Bool} (h : ok = true → new.filtered.isSome = true) :
    Sensing 4 s (pointToFlue s p old new ok) (fun u => u.tookNamed p old new (if ok then new.filtered else none)) where
  leads u l hn hu ht := by
    have sample : (if ok then new.filtered else none).isSome = ok := by cases ok <;> simp_all
    unfold pointToFlue State.tookNamed
    rw [ht, sample]
    split
    · exact flueInput_leads hn hu p _ l
    · exact ⟨0, Nat.zero_le _, Leads.refl _⟩
  only u := onlySensed_tookNamed u p old new _
  aside u := State.tookNamed_aside u p old new _

/-- What an entry makes of the trace depends on the Trace Unit and the clock. -/
theorem State.traced_of_eq {s t : State} (ht : t.trace = s.trace) (hc : t.clock = s.clock) (k : TraceKind) :
    t.traced [k] = s.traced [k] := by
  have entry (r : OpenRecord) : traceEntry t r k = traceEntry s r k := by simp only [traceEntry, offsetOf, ht, hc]
  unfold State.traced
  rw [List.foldl_cons, List.foldl_nil, List.foldl_cons, List.foldl_nil]
  unfold Work.trace
  rw [Work.idle_st, Work.idle_st, ht]
  cases s.trace.opened with
  | none => exact ht
  | some r =>
    dsimp only
    split
    · rw [Work.setTrace_st, Work.setTrace_st, entry]; rfl
    · exact ht

theorem State.sampledTrace_of_eq {s t : State} (ht : t.trace = s.trace) (hc : t.clock = s.clock) (hb : t.tables = s.tables)
    (p : Nat) (v : Int) : t.sampledTrace p v = s.sampledTrace p v := by
  unfold State.sampledTrace tracesPoint
  rw [State.traced_of_eq ht hc, ht, hb]

theorem OnlySensed.sampledTrace {s t : State} (h : OnlySensed s t) (p : Nat) (v : Int) : t.sampledTrace p v = s.sampledTrace p v :=
  State.sampledTrace_of_eq (by rw [h]; rfl) (by rw [h]; rfl) h.tables p v

/-- The trace after a point's hand-offs: the sample that a plausible reading of a traced point gives. -/
def State.tracedReading (s : State) (acts : List Act) (p : Nat) (v : Int) : TraceUnit := if acts = [] then s.trace else s.sampledTrace p v

theorem OnlySensed.tracedReading {s t : State} (h : OnlySensed s t) (acts : List Act) (p : Nat) (v : Int) :
    t.tracedReading acts p v = s.tracedReading acts p v := by
  unfold State.tracedReading
  rw [h.sampledTrace, show t.trace = s.trace by rw [h]; rfl]

theorem pointToTrace_leads (s u : State) (p : Nat) (new : PointRun) (ok : Bool) (l : List Act) :
    ∃ m n, m ≤ 3 ∧ Leads m (Work.waiting u (pointToTrace s p new ok ++ l))
      (Work.waiting (u.aside (u.tracedReading (pointToTrace s p new ok) p (new.filtered.getD 0)) { u.gate with notices := n }
        u.fieldPort) l) := by
  unfold State.tracedReading pointToTrace
  split
  · exact traceSample_leads u p _ l
  · exact ⟨0, u.gate.notices, Nat.zero_le _, Leads.refl _⟩

/-- The trace takes its sample somewhere among what is sensed. -/
theorem Sensing.around {n k : Nat} {s : State} {a b : List Act} {F G : State → State} (h : Sensing n s a F) (g : Sensing k s b G)
    {u : State} (hn : u.phase = .normal) (hu : u.unheeded) (ht : u.tables = s.tables) (p : Nat) (new : PointRun) (ok : Bool)
    (l : List Act) :
    ∃ m x, m ≤ n + k + 3 ∧ Leads m (Work.waiting u (a ++ pointToTrace s p new ok ++ b ++ l))
      (Work.waiting ((G (F u)).aside (u.tracedReading (pointToTrace s p new ok) p (new.filtered.getD 0))
        { u.gate with notices := x } u.fieldPort) l) := by
  obtain ⟨m₁, hm₁, first⟩ := h.leads u (pointToTrace s p new ok ++ (b ++ l)) hn hu ht
  have only := h.only u
  obtain ⟨m₂, x, hm₂, second⟩ := pointToTrace_leads s (F u) p new ok (b ++ l)
  rw [only.tracedReading, show (F u).gate = u.gate by rw [only]; rfl, show (F u).fieldPort = u.fieldPort by rw [only]; rfl]
    at second
  obtain ⟨m₃, hm₃, third⟩ := g.leads ((F u).aside (u.tracedReading (pointToTrace s p new ok) p (new.filtered.getD 0))
    { u.gate with notices := x } u.fieldPort) l (only.phase.trans hn) (only.unheeded hu) (only.tables.trans ht)
  rw [g.aside] at third
  rw [List.append_assoc, List.append_assoc]
  exact ⟨m₁ + m₂ + m₃, x, by omega, (first.trans second).trans third⟩

/-- What a point hands on, its record having gone from `old` to `new`. -/
def State.handOffs (s : State) (p : Nat) (old new : PointRun) (ok : Bool) : List Act :=
  arrange s.order (pointToConditions p old new) (pointToFlue s p old new ok) (pointToTrace s p new ok)

theorem handOffs_lead {s u : State} (hn : u.phase = .normal) (hu : u.unheeded) (ht : u.tables = s.tables)
    (ho : u.order = s.order) (p : Nat) (old new : PointRun) {ok : Bool} (hok : ok = true → new.filtered.isSome = true) (l : List Act) :
    ∃ m x, m ≤ 10 ∧ Leads m (Work.waiting u (s.handOffs p old new ok ++ l))
      (Work.waiting ((u.handedOn p old new (if ok then new.filtered else none)).aside
        (u.tracedReading (pointToTrace s p new ok) p (new.filtered.getD 0)) { u.gate with notices := x } u.fieldPort) l) := by
  have conditions := sensing_tookPoint s p old new
  have flue := sensing_tookNamed s p old new hok
  rw [State.handedOn_eq, ho]
  unfold State.handOffs
  cases s.order
  case conditionFlueTrace => simpa [arrange] using (conditions.append flue).around (Sensing.nil s) hn hu ht p new ok l
  case conditionTraceFlue => simpa [arrange] using conditions.around flue hn hu ht p new ok l
  case flueConditionTrace => simpa [arrange] using (flue.append conditions).around (Sensing.nil s) hn hu ht p new ok l
  case flueTraceCondition => simpa [arrange] using flue.around conditions hn hu ht p new ok l
  case traceConditionFlue => simpa [arrange] using (Sensing.nil s).around (conditions.append flue) hn hu ht p new ok l
  case traceFlueCondition => simpa [arrange] using (Sensing.nil s).around (flue.append conditions) hn hu ht p new ok l

end Sys2Proof.Machine
end

section
/-! SUPPORT. Lists of readings and settings, each taken and handed on before the next: O15, O16, O17. -/

namespace Sys2Proof.Machine

/-! ### One reading -/

theorem afterReading_isSome {e : PointEntry} {c : Nat} (h : readingPlausible e c = true) (r : PointRun) :
    (afterReading e r c).filtered.isSome = true := by
  unfold afterReading
  unfold readingPlausible at h
  split
  · rfl
  · split at h
    · next contact => contradiction
    · rw [if_pos h]; rfl

theorem matchPoint_lt {t : Tables} {source channel p : Nat} (h : matchPoint t source channel = some p) : p < 24 :=
  List.mem_range.1 (List.mem_of_find?_eq_some h)

theorem State.normal_iff (s : State) : s.normal = true ↔ s.phase = .normal := by simp [State.normal]

theorem actReading_of_match {w : Work} (hn : w.st.phase = .normal) {source channel p : Nat} (code : Nat)
    (h : matchPoint w.st.tables source channel = some p) : act (.reading source channel code) w = readAt p (limitCode code) w := by
  have e : act (.reading source channel code) w = actReading source channel code w := rfl
  rw [e, actReading, if_pos ((State.normal_iff _).2 hn), h]

theorem actReading_of_none {w : Work} {source channel : Nat} (code : Nat)
    (h : matchPoint w.st.tables source channel = none) : act (.reading source channel code) w = w := by
  have e : act (.reading source channel code) w = actReading source channel code w := rfl
  rw [e, actReading, h]
  exact ite_self _

/-- A reading at a point: the record, and what it hands on. -/
theorem readAt_eq (p c : Nat) (w : Work) : readAt p c w =
    (w.withSt (w.st.setPoint p (afterReading (w.st.tables.point p) (w.st.point p) c))).emit
      (w.st.handOffs p (w.st.point p) (afterReading (w.st.tables.point p) (w.st.point p) c)
        (readingPlausible (w.st.tables.point p) c)) := rfl

theorem State.tookReading_of_match {s : State} {source channel p : Nat} (code : Nat)
    (h : matchPoint s.tables source channel = some p) :
    s.tookReading source (channel, code) =
      (s.setPoint p (afterReading (s.tables.point p) (s.point p) (limitCode code))).handedOn p (s.point p)
        (afterReading (s.tables.point p) (s.point p) (limitCode code))
        (if readingPlausible (s.tables.point p) (limitCode code) then
          (afterReading (s.tables.point p) (s.point p) (limitCode code)).filtered else none) := by
  unfold State.tookReading
  rw [h]
  rfl

theorem State.tookReading_of_none {s : State} {source channel : Nat} (code : Nat)
    (h : matchPoint s.tables source channel = none) : s.tookReading source (channel, code) = s := by
  unfold State.tookReading
  rw [h]

/-- The trace after one reading: a plausible one of a traced point gives the open record a sample (R15, R154). -/
def State.readTrace (s : State) (source : Nat) (g : Nat × Nat) : TraceUnit :=
  match matchPoint s.tables source g.1 with
  | some p =>
    if readingPlausible (s.tables.point p) (limitCode g.2) && tracesPoint s p then
      s.traced [.sample p ((afterReading (s.tables.point p) (s.point p) (limitCode g.2)).filtered.getD 0)]
    else s.trace
  | none => s.trace

theorem tracedReading_setPoint (s : State) (p : Nat) (new : PointRun) (ok : Bool) :
    (s.setPoint p new).tracedReading (pointToTrace s p new ok) p (new.filtered.getD 0) =
      if ok && tracesPoint s p then s.traced [.sample p (new.filtered.getD 0)] else s.trace := by
  unfold State.tracedReading
  rw [State.sampledTrace_of_eq (s := s) (t := s.setPoint p new) rfl rfl rfl]
  unfold pointToTrace State.sampledTrace
  by_cases h : (ok && tracesPoint s p) = true
  · have traced : tracesPoint s p = true := by simp_all
    rw [if_pos h, if_neg (List.cons_ne_nil _ _), if_pos traced, if_pos h]
  · rw [if_neg h, if_pos rfl, if_neg h]; rfl

/-- A reading is taken, and what it hands on taken to its end, before what waits. -/
theorem reading_leads {s : State} (hn : s.phase = .normal) (hu : s.unheeded) (source : Nat) (g : Nat × Nat) (l : List Act) :
    ∃ m x, m ≤ 11 ∧ Leads m (Work.waiting s (.reading source g.1 g.2 :: l))
      (Work.waiting ((s.tookReading source g).aside (s.readTrace source g) { s.gate with notices := x } s.fieldPort) l) := by
  obtain ⟨channel, code⟩ := g
  have first := Leads.take (Work.take_waiting s (.reading source channel code) l)
  unfold State.readTrace
  dsimp only
  cases h : matchPoint s.tables source channel with
  | none =>
    rw [actReading_of_none (w := Work.waiting s l) code h] at first
    rw [State.tookReading_of_none code h]
    exact ⟨1, s.gate.notices, by omega, first⟩
  | some p =>
    rw [actReading_of_match (w := Work.waiting s l) hn code h, readAt_eq, Work.waiting_st] at first
    rw [State.tookReading_of_match code h]
    dsimp only
    generalize hnew : afterReading (s.tables.point p) (s.point p) (limitCode code) = new at first ⊢
    have emitted := first.trans (Leads.emit s (s.setPoint p new) _ l)
    obtain ⟨m, x, hm, rest⟩ := handOffs_lead (s := s) (u := s.setPoint p new) hn hu rfl rfl p (s.point p) new
      (fun ok => hnew ▸ afterReading_isSome ok (s.point p)) l
    rw [tracedReading_setPoint] at rest
    exact ⟨1 + 0 + m, x, by omega, emitted.trans rest⟩

/-! ### What readings change -/

/-- Only points, conditions and the flue differ. -/
def OnlyMeasured (s t : State) : Prop := t = { s with points := t.points, conds := t.conds, flue := t.flue }

theorem OnlyMeasured.refl (s : State) : OnlyMeasured s s := rfl

theorem OnlyMeasured.trans {s t u : State} (h : OnlyMeasured s t) (g : OnlyMeasured t u) : OnlyMeasured s u := by
  unfold OnlyMeasured at *
  rw [h] at g
  exact g

theorem OnlySensed.measured {s t : State} (h : OnlySensed s t) : OnlyMeasured s t := by
  unfold OnlySensed at h
  generalize hc : t.conds = c at h
  generalize hf : t.flue = f at h
  subst h
  rfl

theorem OnlySensed.points {s t : State} (h : OnlySensed s t) : t.points = s.points := by rw [h]; rfl

theorem OnlyMeasured.tables {s t : State} (h : OnlyMeasured s t) : t.tables = s.tables := by rw [h]
theorem OnlyMeasured.phase {s t : State} (h : OnlyMeasured s t) : t.phase = s.phase := by rw [h]
theorem OnlyMeasured.seq {s t : State} (h : OnlyMeasured s t) : t.seq = s.seq := by rw [h]

theorem OnlyMeasured.unheeded {s t : State} (h : OnlyMeasured s t) (hs : s.unheeded) : t.unheeded :=
  unheeded_of_eq hs h.tables h.seq

theorem onlyMeasured_setPoint (s : State) (p : Nat) (x : PointRun) : OnlyMeasured s (s.setPoint p x) := rfl

theorem onlyMeasured_tookReading (s : State) (source : Nat) (g : Nat × Nat) : OnlyMeasured s (s.tookReading source g) := by
  obtain ⟨channel, code⟩ := g
  cases h : matchPoint s.tables source channel with
  | none => rw [State.tookReading_of_none code h]; exact OnlyMeasured.refl s
  | some p =>
    rw [State.tookReading_of_match code h]
    exact (onlyMeasured_setPoint s p _).trans (onlySensed_handedOn _ _ _ _ _).measured

theorem State.tookReading_aside (s : State) (source : Nat) (g : Nat × Nat) (t : TraceUnit) (x : Gate) (p : PortState) :
    (s.aside t x p).tookReading source g = (s.tookReading source g).aside t x p := by
  obtain ⟨channel, code⟩ := g
  cases h : matchPoint s.tables source channel with
  | none => rw [State.tookReading_of_none code h, State.tookReading_of_none (s := s.aside t x p) code h]
  | some i =>
    have point : (s.aside t x p).point i = s.point i := rfl
    have tables : (s.aside t x p).tables = s.tables := rfl
    have setPoint (r : PointRun) : (s.aside t x p).setPoint i r = (s.setPoint i r).aside t x p := rfl
    rw [State.tookReading_of_match code h, State.tookReading_of_match (s := s.aside t x p) code h, point, tables, setPoint,
      State.handedOn_aside]

theorem OnlySensed.point {s t : State} (h : OnlySensed s t) (p : Nat) : t.point p = s.point p := by rw [h]; rfl

theorem State.setPoint_point {s : State} (h : s.points.length = 24) (p i : Nat) (x : PointRun) :
    (s.setPoint p x).point i = if p = i ∧ i < 24 then x else s.point i := by
  rw [← h]
  exact getD_set s.points p i x PointRun.empty

theorem State.tookReading_point {s : State} (h : s.points.length = 24) (source : Nat) (g : Nat × Nat) (i : Nat) :
    (s.tookReading source g).point i =
      if matchPoint s.tables source g.1 = some i then afterReading (s.tables.point i) (s.point i) (limitCode g.2) else s.point i := by
  obtain ⟨channel, code⟩ := g
  cases hm : matchPoint s.tables source channel with
  | none => rw [State.tookReading_of_none code hm, if_neg (by simp)]
  | some p =>
    rw [State.tookReading_of_match code hm, (onlySensed_handedOn _ _ _ _ _).point, State.setPoint_point h]
    by_cases e : p = i
    · subst e
      rw [if_pos ⟨rfl, matchPoint_lt hm⟩, if_pos rfl]
    · rw [if_neg fun k => e k.1, if_neg fun k => e (Option.some.inj k)]

theorem State.tookReading_points_length (s : State) (source : Nat) (g : Nat × Nat) :
    (s.tookReading source g).points.length = s.points.length := by
  obtain ⟨channel, code⟩ := g
  cases hm : matchPoint s.tables source channel with
  | none => rw [State.tookReading_of_none code hm]
  | some p =>
    rw [State.tookReading_of_match code hm, (onlySensed_handedOn _ _ _ _ _).points]
    exact List.length_set

/-! ### Readings in turn -/

/-- The state after readings from one source, each handed on before the next. -/
def State.tookReadings (s : State) (source : Nat) (gs : List (Nat × Nat)) : State := gs.foldl (State.tookReading source) s

theorem State.tookReadings_cons (s : State) (source : Nat) (g : Nat × Nat) (gs : List (Nat × Nat)) :
    s.tookReadings source (g :: gs) = (s.tookReading source g).tookReadings source gs := rfl

theorem onlyMeasured_tookReadings (s : State) (source : Nat) (gs : List (Nat × Nat)) :
    OnlyMeasured s (s.tookReadings source gs) := by
  induction gs generalizing s with
  | nil => exact OnlyMeasured.refl s
  | cons g gs ih =>
    rw [State.tookReadings_cons]
    exact (onlyMeasured_tookReading s source g).trans (ih _)

theorem State.tookReadings_aside (s : State) (source : Nat) (gs : List (Nat × Nat)) (t : TraceUnit) (x : Gate) (p : PortState) :
    (s.aside t x p).tookReadings source gs = (s.tookReadings source gs).aside t x p := by
  induction gs generalizing s with
  | nil => rfl
  | cons g gs ih => rw [State.tookReadings_cons, State.tookReadings_cons, State.tookReading_aside, ih]

theorem State.tookReadings_point {s : State} (h : s.points.length = 24) (source : Nat) (gs : List (Nat × Nat)) (i : Nat) :
    (s.tookReadings source gs).point i = pointAfter s.tables source gs i (s.point i) := by
  induction gs generalizing s with
  | nil => rfl
  | cons g gs ih =>
    rw [State.tookReadings_cons, ih ((State.tookReading_points_length s source g).trans h), State.tookReading_point h,
      (onlyMeasured_tookReading s source g).tables]
    rfl

theorem readTrace_of_closed {s : State} (h : s.trace.opened = none) (source : Nat) (g : Nat × Nat) :
    s.readTrace source g = s.trace := by
  have untraced (p : Nat) : tracesPoint s p = false := by simp [tracesPoint, h]
  unfold State.readTrace
  split
  · rw [untraced, Bool.and_false, if_neg Bool.false_ne_true]
  · rfl

/-- Readings of one source are taken in turn, each to its end, before what waits. -/
theorem readings_lead {s : State} (hn : s.phase = .normal) (hu : s.unheeded) (source : Nat) (gs : List (Nat × Nat)) (l : List Act) :
    ∃ m x t, m ≤ 11 * gs.length ∧ Leads m (Work.waiting s (gs.map (fun g => .reading source g.1 g.2) ++ l))
        (Work.waiting ((s.tookReadings source gs).aside t { s.gate with notices := x } s.fieldPort) l) ∧
      (s.trace.opened = none → t = s.trace) ∧ (∀ g, gs = [g] → t = s.readTrace source g) := by
  induction gs generalizing s with
  | nil => exact ⟨0, s.gate.notices, s.trace, Nat.zero_le _, Leads.refl _, fun _ => rfl, fun _ h => nomatch h⟩
  | cons g gs ih =>
    have only := onlyMeasured_tookReading s source g
    obtain ⟨m, x, hm, first⟩ := reading_leads hn hu source g (gs.map (fun g => .reading source g.1 g.2) ++ l)
    obtain ⟨m', x', t', hm', rest, closed, _⟩ :=
      ih (s := (s.tookReading source g).aside (s.readTrace source g) { s.gate with notices := x } s.fieldPort)
        (only.phase.trans hn) (only.unheeded hu)
    rw [State.tookReadings_aside, State.aside_aside, ← State.tookReadings_cons] at rest
    have closing : s.trace.opened = none → t' = s.trace := fun h =>
      (closed (by rw [readTrace_of_closed h]; exact h)).trans (readTrace_of_closed h source g)
    by_cases single : gs = []
    · subst single
      exact ⟨m, x, s.readTrace source g, by rw [List.length_cons]; omega, first, fun h => readTrace_of_closed h source g,
        fun g' h => by rw [(List.cons.inj h).1]⟩
    · exact ⟨m + m', x', t', by rw [List.length_cons]; omega, first.trans rest, closing,
        fun g' h => absurd (List.cons.inj h).2 single⟩

end Sys2Proof.Machine
end

section
/-! SUPPORT. Frames from the field segment that are tapped, and the readings of the general inputs: O15, O17. -/

namespace Sys2Proof.Machine

/-! ### What one reading makes of a record -/

theorem readingPlausible_contact {e : PointEntry} (h : e.kind = .contact) (c : Nat) : readingPlausible e c = true := by
  unfold readingPlausible
  rw [h]

theorem readingPlausible_scaled {e : PointEntry} (h : e.kind ≠ .contact) (c : Nat) :
    readingPlausible e c = true ↔ e.plausLo ≤ scaleCode e c ∧ scaleCode e c ≤ e.plausHi := by
  unfold readingPlausible
  split
  · contradiction
  · simp [plausible]

theorem afterReading_contact {e : PointEntry} (h : e.kind = .contact) (r : PointRun) (c : Nat) :
    afterReading e r c = takePlausible c (contactValue c) (contactValue c) := by
  unfold afterReading
  rw [h]

theorem afterReading_plausible {e : PointEntry} (h : e.kind ≠ .contact) {c : Nat}
    (hp : e.plausLo ≤ scaleCode e c ∧ scaleCode e c ≤ e.plausHi) (r : PointRun) :
    afterReading e r c = takePlausible c (scaleCode e c) (filteredAfter e r (scaleCode e c)) := by
  unfold afterReading
  split
  · contradiction
  · exact if_pos (by simpa [plausible] using hp)

theorem afterReading_implausible {e : PointEntry} (h : e.kind ≠ .contact) {c : Nat}
    (hp : scaleCode e c < e.plausLo ∨ e.plausHi < scaleCode e c) (r : PointRun) : afterReading e r c = takeImplausible c r := by
  unfold afterReading
  split
  · contradiction
  · refine if_neg fun k => ?_
    simp only [plausible, Bool.and_eq_true, decide_eq_true_eq] at k
    omega

theorem filteredAfter_seeded {e : PointEntry} {r : PointRun} (h : r.quality ≠ .good) (v : Int) : filteredAfter e r v = v := by
  unfold filteredAfter
  split
  · contradiction
  · rfl

theorem filteredAfter_good {e : PointEntry} {r : PointRun} (h : r.quality = .good) {f : Int} (hf : r.filtered = some f) (v : Int) :
    filteredAfter e r v = f + Int.tdiv (v - f) (2 ^ e.k) := by
  unfold filteredAfter
  rw [h, hf]
  rfl

/-! ### Frames that are tapped -/

theorem frameKind_kindByte_sample (sub : BitVec 4) : frameKind (kindByte 1 sub.toNat) = .sample := by
  simp only [frameKind, kindByte_code (show 1 < 16 by omega) sub.isLt]

theorem frameKind_kindByte_state (sub : BitVec 4) : frameKind (kindByte 2 sub.toNat) = .state := by
  simp only [frameKind, kindByte_code (show 2 < 16 by omega) sub.isLt]

/-- The forward-up queue after a frame to `dst` (R129, R132). -/
def State.upAfter (s : State) (dst : Byte) (f : Frame) : List Frame :=
  if upAddress dst && decide (s.gate.up.length < 8) then s.gate.up ++ [f] else s.gate.up

/-- The state in which a frame of the field segment that may go up has been heard and forwarded. -/
def State.heardField (s : State) (f : Frame) : State :=
  (s.hear .field .waiting).setGate { s.gate with up := s.upAfter f.dst f }

theorem State.heardField_eq (s : State) (f : Frame) : s.heardField f =
    s.aside s.trace { s.gate with up := s.upAfter f.dst f } { s.fieldPort with hearing := .waiting } := rfl

theorem fieldArrival_goesUp {f : Frame} (h : (frameKind f.kind).goesUp = true) (s : State) :
    fieldArrival f (Work.idle (s.hear .field .waiting)) =
      (Work.idle (s.heardField f)).emit (tap (s.hear .field .waiting) f) := by
  have up : (if (frameKind f.kind).goesUp && upAddress f.dst then (s.hear .field .waiting).forwardUp f
      else s.hear .field .waiting) = s.heardField f := by
    unfold State.heardField State.upAfter
    rw [h, Bool.true_and]
    cases upAddress f.dst with
    | false => rfl
    | true =>
      rw [if_pos rfl, State.forwardUp_eq, Bool.true_and]
      simp only [decide_eq_true_eq]
      rfl
  unfold fieldArrival
  dsimp only
  rw [Work.idle_st, up]
  rfl

theorem Leads.idle_emit (s : State) (acts : List Act) : Leads 0 ((Work.idle s).emit acts) (Work.waiting s acts) := by
  have e := Leads.emitted (w := (Work.idle s).emit acts) rfl rfl
  have l : ((Work.idle s).emit acts).emitted ++ ((Work.idle s).emit acts).queue = acts := List.append_nil acts
  rw [l] at e
  exact e

theorem sampleTap_of_normal {s : State} {f : Frame} (hn : s.phase = .normal) (hg : groupsOk 8 f.payload = true) :
    sampleTap s f = (groups f.payload).map fun g => .reading f.src.toNat g.1 g.2 :=
  if_pos (by rw [State.normal_of_phase hn, hg]; rfl)

theorem sampleTap_of_not {s : State} {f : Frame} (h : groupsOk 8 f.payload = false ∨ s.phase = .fallback) : sampleTap s f = [] := by
  refine if_neg fun k => ?_
  obtain ⟨hn, hg⟩ := (Bool.and_eq_true _ _).mp k
  rw [State.normal_iff] at hn
  rcases h with h | h
  · rw [h] at hg; cases hg
  · rw [h] at hn; cases hn

theorem groups_length_le {most : Nat} {p : List Byte} (h : groupsOk most p = true) : (groups p).length ≤ most := by
  have third : ∀ (p : List Byte), (groups p).length = p.length / 3 := by
    intro p
    induction p using groups.induct with
    | case1 c h l rest ih => simp only [groups, List.length_cons, ih]; omega
    | case2 p hp =>
      have short : p.length < 3 := by
        match p, hp with
        | [], _ => decide
        | [_], _ => simp
        | [_, _], _ => simp
        | a :: b :: c :: l, hp => exact absurd rfl (hp a b c l)
      have none : groups p = [] := by
        match p, hp with
        | [], _ => rfl
        | [_], _ => rfl
        | [_, _], _ => rfl
        | a :: b :: c :: l, hp => exact absurd rfl (hp a b c l)
      rw [none, List.length_nil]
      omega
  simp [groupsOk, within] at h
  rw [third]
  omega

/-- Readings that a command hands to the Point Unit one by one, in a state that differs from `s` where it is no evidence. -/
theorem finish_readings {s : State} (hn : s.phase = .normal) (hu : s.unheeded) (source : Nat) {gs : List (Nat × Nat)}
    (few : gs.length ≤ 1000) (g : Gate) (p : PortState) :
    ∃ x t, finish ((Work.idle (s.aside s.trace g p)).emit (gs.map fun r => .reading source r.1 r.2)) =
        .next ((s.tookReadings source gs).aside t { g with notices := x } p).arbitrate ∧
      (s.trace.opened = none → t = s.trace) ∧ (∀ r, gs = [r] → t = s.readTrace source r) := by
  obtain ⟨m, x, t, hm, leads, closed, single⟩ := readings_lead (s := s.aside s.trace g p) hn hu source gs []
  rw [State.tookReadings_aside, State.aside_aside, List.append_nil] at leads
  refine ⟨x, t, ((Leads.idle_emit _ _).trans leads).finish (by unfold Config.cascadeLimit; omega) rfl, closed, fun r hr => ?_⟩
  rw [single r hr]
  unfold State.readTrace
  have trace (k : TraceKind) : (s.aside s.trace g p).traced [k] = s.traced [k] :=
    State.traced_of_eq (s := s) (t := s.aside s.trace g p) rfl rfl k
  simp only [trace]
  rfl

theorem OnlyMeasured.roles {s t : State} (h : OnlyMeasured s t) : t.roles = s.roles := by rw [h]
theorem OnlyMeasured.lines {s t : State} (h : OnlyMeasured s t) : t.lines = s.lines := by rw [h]
theorem OnlyMeasured.circuits {s t : State} (h : OnlyMeasured s t) : t.circuits = s.circuits := by rw [h]
theorem OnlyMeasured.fault {s t : State} (h : OnlyMeasured s t) : t.fault = s.fault := by rw [h]
theorem OnlyMeasured.pins {s t : State} (h : OnlyMeasured s t) : t.pins = s.pins := by rw [h]
theorem OnlyMeasured.staging {s t : State} (h : OnlyMeasured s t) : t.staging = s.staging := by rw [h]
theorem OnlyMeasured.store {s t : State} (h : OnlyMeasured s t) : t.store = s.store := by rw [h]
theorem OnlyMeasured.ctlPort {s t : State} (h : OnlyMeasured s t) : t.ctlPort = s.ctlPort := by rw [h]
theorem OnlyMeasured.pointTimer {s t : State} (h : OnlyMeasured s t) : t.pointTimer = s.pointTimer := by rw [h]

theorem State.setInput_pins (s : State) (i : GeneralInput) (high : Bool) :
    s.setInput i high = s.setPins (s.setInput i high).pins := by cases i <;> rfl

theorem setInput_same (s : State) (i : GeneralInput) (high : Bool) :
    (s.setInput i high).phase = s.phase ∧ (s.setInput i high).tables = s.tables ∧ (s.setInput i high).seq = s.seq ∧
      (s.setInput i high).points = s.points := by
  rw [State.setInput_pins]
  exact ⟨rfl, rfl, rfl, rfl⟩

theorem inputSamples_eq (s : State) : inputSamples s = (inputReadings s).map fun g => .reading 0 g.1 g.2 := rfl

/-- Readings that are not taken change nothing. -/
theorem readings_untaken {s : State} (h : s.phase ≠ .normal) (source : Nat) (gs : List (Nat × Nat)) (l : List Act) :
    Leads gs.length (Work.waiting s (gs.map (fun g => .reading source g.1 g.2) ++ l)) (Work.waiting s l) := by
  induction gs with
  | nil => exact Leads.refl _
  | cons g gs ih =>
    have untaken : act (.reading source g.1 g.2) (Work.waiting s (gs.map (fun g => .reading source g.1 g.2) ++ l)) =
        Work.waiting s (gs.map (fun g => .reading source g.1 g.2) ++ l) := if_neg fun k => h ((State.normal_iff s).1 k)
    have first := Leads.take (Work.take_waiting s (.reading source g.1 g.2) (gs.map (fun g => .reading source g.1 g.2) ++ l))
    rw [untaken] at first
    rw [List.length_cons, Nat.add_comm]
    exact first.trans ih

end Sys2Proof.Machine

section
open Sys2Proof Sys2Proof.Machine

/-- Settles O15: the readings of a SAMPLE frame are taken in turn, each with what it hands on. -/
theorem sampleTakesReadings : Obligations.SampleTakesReadings := by
  unfold Obligations.SampleTakesReadings
  refine ⟨fun s src dst sub payload hs hr h0 hl => ?_, fun e r code => ?_⟩
  · have arrives : exec (.sample src dst sub payload) s = finish ((Work.idle
        (s.heardField { src := src, dst := dst, kind := kindByte 1 sub.toNat, payload := payload })).emit
        (sampleTap (s.hear .field .waiting) { src := src, dst := dst, kind := kindByte 1 sub.toNat, payload := payload })) := by
      have e : exec (.sample src dst sub payload) s =
        exec (.fieldFrame { src := src, dst := dst, kind := kindByte 1 sub.toNat, payload := payload }) s := rfl
      rw [e, exec_fieldFrame hs hr h0 hl, fieldArrival_goesUp (by rw [frameKind_kindByte_sample]; rfl), tap,
        frameKind_kindByte_sample]
    refine ⟨fun hn hg sized hu => ?_, fun h => ?_⟩
    · obtain ⟨points, -⟩ := sized
      rw [arrives, sampleTap_of_normal (s := s.hear .field .waiting) hn (by exact hg), State.heardField_eq]
      obtain ⟨x, t, ends, closed, single⟩ := finish_readings hn hu src.toNat
        (Nat.le_trans (groups_length_le hg) (by omega)) _ _
      have only := onlyMeasured_tookReadings s src.toNat (groups payload)
      refine ⟨_, ends, fun i hi => State.tookReadings_point points src.toNat (groups payload) i, rfl, rfl, rfl, rfl, only.roles, only.lines,
        only.circuits, only.seq, only.fault, only.pins, only.tables, only.staging, only.store, rfl, rfl, closed,
        fun ch hi lo p one matched => ?_⟩
      have taken : t = s.readTrace src.toNat (ch.toNat, n16 hi lo) := single _ (by rw [one]; rfl)
      unfold State.readTrace at taken
      rw [matched] at taken
      dsimp only at taken
      refine ⟨fun r v opened ended traced plausible filtered => ?_, fun h => ?_⟩
      · have recorded : tracesPoint s p = true := by simp [tracesPoint, opened, ended, traced]
        rw [plausible, recorded, Bool.and_true, if_pos rfl, filtered] at taken
        exact taken
      · rw [if_neg] at taken
        · exact taken
        · intro k
          obtain ⟨plausible, recorded⟩ := (Bool.and_eq_true _ _).mp k
          rcases h with h | ⟨r, opened, h⟩
          · rw [h] at plausible; cases plausible
          · simp only [tracesPoint, opened, Bool.and_eq_true, Option.isNone_iff_eq_none, List.contains_eq_mem,
              decide_eq_true_eq] at recorded
            rcases h with h | h
            · rw [recorded.1] at h; cases h
            · exact h recorded.2
    · rw [arrives, sampleTap_of_not (s := s.hear .field .waiting) h]
      exact finish_idleState _
  · refine ⟨?_, fun contact => ?_, fun f scaled low high good filtered => ?_, fun scaled low high bad => ?_, fun scaled out => ?_⟩
    · by_cases contact : e.kind = .contact
      · simp [readingPlausible_contact contact, contact]
      · rw [readingPlausible_scaled contact]
        exact ⟨.inr, fun h => h.resolve_left contact⟩
    · exact afterReading_contact contact r _
    · rw [afterReading_plausible (c := limitCode code) scaled ⟨low, high⟩, filteredAfter_good good filtered]
      rfl
    · rw [afterReading_plausible (c := limitCode code) scaled ⟨low, high⟩, filteredAfter_seeded bad]
      rfl
    · exact afterReading_implausible scaled out r

/-- Settles O17: a change of level is two readings of source 0. -/
theorem inputChangeSampled : Obligations.InputChangeSampled := by
  unfold Obligations.InputChangeSampled
  intro i high s
  have e : exec (.inputLevelChange i high) s = if s.inputHigh i = high then finishState s
    else finish ((Work.idle (s.setInput i high)).emit (inputSamples (s.setInput i high))) := rfl
  have changed (h : s.inputHigh i = !high) : s.inputHigh i ≠ high := by rw [h]; cases high <;> decide
  obtain ⟨phase, tables, seq, points⟩ := setInput_same s i high
  have two : (inputReadings (s.setInput i high)).length = 2 := rfl
  refine ⟨fun same => by rw [e, if_pos same]; rfl, fun other hn => ?_, fun other hn sized hu => ?_⟩
  · rw [e, if_neg (changed other), inputSamples_eq]
    have leads := readings_untaken (s := s.setInput i high) (by rw [phase]; exact hn) 0 (inputReadings (s.setInput i high)) []
    rw [List.append_nil] at leads
    exact ((Leads.idle_emit _ _).trans leads).finish (by rw [two]; decide) rfl
  · obtain ⟨length, -⟩ := sized
    have only := onlyMeasured_tookReadings (s.setInput i high) 0 (inputReadings (s.setInput i high))
    obtain ⟨x, t, ends, -, -⟩ := finish_readings (s := s.setInput i high) (phase.trans hn) (unheeded_of_eq hu tables seq) 0
      (gs := inputReadings (s.setInput i high)) (by rw [two]; decide) (s.setInput i high).gate (s.setInput i high).fieldPort
    rw [e, if_neg (changed other), inputSamples_eq]
    have same : s.setInput i high = s.setPins (s.setInput i high).pins := State.setInput_pins s i high
    refine ⟨_, ends, only.pins, fun p hp => ?_, rfl, rfl, only.roles.trans ?_, only.lines.trans ?_, only.circuits.trans ?_,
      only.seq.trans seq, only.fault.trans ?_, only.tables.trans tables, only.staging.trans ?_, only.store.trans ?_,
      only.ctlPort.trans ?_, ?_, ?_, ?_⟩
    · refine (State.tookReadings_point (s := s.setInput i high) (by rw [points, length]) 0 _ p).trans ?_
      rw [tables, show (s.setInput i high).point p = s.point p by unfold State.point; rw [points]]
    all_goals rw [same]; rfl

end
end

section
/-! SUPPORT. The settings of a STATE frame, and the second mark of the Point Unit: O16 and O18. -/

namespace Sys2Proof.Machine

/-! ### Settings in turn -/

/-- The record of a role that has been heard at a level (R123). -/
def State.heardRole (s : State) (r level : Nat) : State :=
  s.setRole r { s.role r with
    actual := some (min level 1000), since := true, heard := some ((s.tables.role r).confirmWindow * 10) }

theorem State.tookSetting_of_match {s : State} {source : Nat} {g : Nat × Nat} {r : Nat}
    (h : s.tables.roleOfField source g.1 = some r) : s.tookSetting source g = (s.heardRole r g.2).walked (.role r) := by
  unfold State.tookSetting
  rw [h]
  rfl

theorem State.tookSetting_of_none {s : State} {source : Nat} {g : Nat × Nat}
    (h : s.tables.roleOfField source g.1 = none) : s.tookSetting source g = s := by
  unfold State.tookSetting
  rw [h]

/-- Only roles and conditions differ. -/
def OnlyHeard (s t : State) : Prop := t = { s with roles := t.roles, conds := t.conds }

theorem OnlyHeard.refl (s : State) : OnlyHeard s s := rfl

theorem OnlyHeard.trans {s t u : State} (h : OnlyHeard s t) (g : OnlyHeard t u) : OnlyHeard s u := by
  unfold OnlyHeard at *
  rw [h] at g
  exact g

theorem OnlyHeard.of_walked {s t : State} (h : OnlyHeard s t) (i : CondInput) : OnlyHeard s (t.walked i) := by
  have e := State.walked_eq t i
  generalize t.walked i = u at e ⊢
  refine h.trans ?_
  unfold OnlyHeard
  generalize hc : u.conds = c at e
  subst e
  rfl

theorem OnlyHeard.tables {s t : State} (h : OnlyHeard s t) : t.tables = s.tables := by rw [h]
theorem OnlyHeard.phase {s t : State} (h : OnlyHeard s t) : t.phase = s.phase := by rw [h]
theorem OnlyHeard.seq {s t : State} (h : OnlyHeard s t) : t.seq = s.seq := by rw [h]
theorem OnlyHeard.points {s t : State} (h : OnlyHeard s t) : t.points = s.points := by rw [h]
theorem OnlyHeard.lines {s t : State} (h : OnlyHeard s t) : t.lines = s.lines := by rw [h]
theorem OnlyHeard.circuits {s t : State} (h : OnlyHeard s t) : t.circuits = s.circuits := by rw [h]
theorem OnlyHeard.flue {s t : State} (h : OnlyHeard s t) : t.flue = s.flue := by rw [h]
theorem OnlyHeard.fault {s t : State} (h : OnlyHeard s t) : t.fault = s.fault := by rw [h]
theorem OnlyHeard.pins {s t : State} (h : OnlyHeard s t) : t.pins = s.pins := by rw [h]
theorem OnlyHeard.staging {s t : State} (h : OnlyHeard s t) : t.staging = s.staging := by rw [h]
theorem OnlyHeard.store {s t : State} (h : OnlyHeard s t) : t.store = s.store := by rw [h]

theorem OnlyHeard.unheeded {s t : State} (h : OnlyHeard s t) (hs : s.unheeded) : t.unheeded :=
  unheeded_of_eq hs h.tables h.seq

theorem onlyHeard_tookSetting (s : State) (source : Nat) (g : Nat × Nat) : OnlyHeard s (s.tookSetting source g) := by
  cases h : s.tables.roleOfField source g.1 with
  | none => rw [State.tookSetting_of_none h]; exact OnlyHeard.refl s
  | some r =>
    have heard : OnlyHeard s (s.heardRole r g.2) := rfl
    rw [State.tookSetting_of_match h]
    exact heard.of_walked _

theorem State.walked_roles (s : State) (i : CondInput) : (s.walked i).roles = s.roles := by rw [State.walked_eq]

theorem State.tookSetting_aside (s : State) (source : Nat) (g : Nat × Nat) (t : TraceUnit) (x : Gate) (p : PortState) :
    (s.aside t x p).tookSetting source g = (s.tookSetting source g).aside t x p := by
  cases h : s.tables.roleOfField source g.1 with
  | none => rw [State.tookSetting_of_none h, State.tookSetting_of_none (s := s.aside t x p) h]
  | some r =>
    have heard : (s.aside t x p).heardRole r g.2 = (s.heardRole r g.2).aside t x p := rfl
    rw [State.tookSetting_of_match h, State.tookSetting_of_match (s := s.aside t x p) h, heard, State.walked_aside]

theorem State.tookSetting_role {s : State} (h : s.roles.length = 12) (source : Nat) (g : Nat × Nat) (r : Nat) :
    (s.tookSetting source g).role r =
      if s.tables.roleOfField source g.1 = some r then
        { s.role r with
          actual := some (min g.2 1000), since := true, heard := some ((s.tables.role r).confirmWindow * 10) }
      else s.role r := by
  cases hr : s.tables.roleOfField source g.1 with
  | none => rw [State.tookSetting_of_none hr, if_neg (by simp)]
  | some q =>
    have walked : ((s.heardRole q g.2).walked (.role q)).role r = (s.heardRole q g.2).role r := by
      unfold State.role; rw [State.walked_roles]
    have set : (s.heardRole q g.2).role r = _ := getD_set s.roles q r _ RoleRun.reset
    rw [State.tookSetting_of_match hr, walked, set]
    by_cases e : q = r
    · subst e
      rw [if_pos ⟨rfl, by rw [h]; exact roleOfField_lt hr⟩, if_pos rfl]
    · rw [if_neg fun k => e k.1, if_neg fun k => e (Option.some.inj k)]
      rfl

theorem State.tookSetting_roles_length (s : State) (source : Nat) (g : Nat × Nat) :
    (s.tookSetting source g).roles.length = s.roles.length := by
  cases h : s.tables.roleOfField source g.1 with
  | none => rw [State.tookSetting_of_none h]
  | some r =>
    rw [State.tookSetting_of_match h, State.walked_roles]
    exact List.length_set

/-- The state after settings from one source, each handed on before the next. -/
def State.tookSettings (s : State) (source : Nat) (gs : List (Nat × Nat)) : State := gs.foldl (State.tookSetting source) s

theorem State.tookSettings_cons (s : State) (source : Nat) (g : Nat × Nat) (gs : List (Nat × Nat)) :
    s.tookSettings source (g :: gs) = (s.tookSetting source g).tookSettings source gs := rfl

theorem onlyHeard_tookSettings (s : State) (source : Nat) (gs : List (Nat × Nat)) : OnlyHeard s (s.tookSettings source gs) := by
  induction gs generalizing s with
  | nil => exact OnlyHeard.refl s
  | cons g gs ih =>
    rw [State.tookSettings_cons]
    exact (onlyHeard_tookSetting s source g).trans (ih _)

theorem State.tookSettings_aside (s : State) (source : Nat) (gs : List (Nat × Nat)) (t : TraceUnit) (x : Gate) (p : PortState) :
    (s.aside t x p).tookSettings source gs = (s.tookSettings source gs).aside t x p := by
  induction gs generalizing s with
  | nil => rfl
  | cons g gs ih => rw [State.tookSettings_cons, State.tookSettings_cons, State.tookSetting_aside, ih]

theorem State.tookSettings_role {s : State} (h : s.roles.length = 12) (source : Nat) (gs : List (Nat × Nat)) (r : Nat) :
    (s.tookSettings source gs).role r = roleAfterState s.tables source gs r (s.role r) := by
  induction gs generalizing s with
  | nil => rfl
  | cons g gs ih =>
    rw [State.tookSettings_cons, ih ((State.tookSetting_roles_length s source g).trans h), State.tookSetting_role h,
      (onlyHeard_tookSetting s source g).tables]
    rfl

/-- The settings of a frame that match a field role, as the Output Unit takes them. -/
def Tables.roleStates (t : Tables) (source : Nat) (gs : List (Nat × Nat)) : List Act :=
  gs.filterMap fun g => (t.roleOfField source g.1).map fun r => .roleState r g.2

theorem actRoleState_of_normal {w : Work} (hn : w.st.phase = .normal) (r level : Nat) :
    act (.roleState r level) w = (w.withSt (w.st.heardRole r level)).emit [.condWalk (.role r)] :=
  if_pos (State.normal_of_phase hn)

theorem roleState_leads {s : State} (hn : s.phase = .normal) (hu : s.unheeded) (r level : Nat) (l : List Act) :
    ∃ m, m ≤ 4 ∧ Leads m (Work.waiting s (.roleState r level :: l)) (Work.waiting ((s.heardRole r level).walked (.role r)) l) := by
  have first := Leads.take (Work.take_waiting s (.roleState r level) l)
  rw [actRoleState_of_normal (w := Work.waiting s l) hn, Work.waiting_st] at first
  have emitted := first.trans (Leads.emit s (s.heardRole r level) _ l)
  obtain ⟨m, hm, walk⟩ := condWalk_leads (s := s.heardRole r level) hn hu (.role r) l
  rw [State.walkedFrom_of_no_hold (fun c => by simp)] at walk
  exact ⟨1 + 0 + m, by omega, emitted.trans walk⟩

theorem settings_lead {s : State} (hn : s.phase = .normal) (hu : s.unheeded) (source : Nat) (gs : List (Nat × Nat)) :
    ∃ m, m ≤ 4 * gs.length ∧
      Leads m (Work.waiting s (s.tables.roleStates source gs)) (Work.waiting (s.tookSettings source gs) []) := by
  induction gs generalizing s with
  | nil => exact ⟨0, Nat.zero_le _, Leads.refl _⟩
  | cons g gs ih =>
    have only := onlyHeard_tookSetting s source g
    obtain ⟨m, hm, rest⟩ := ih (s := s.tookSetting source g) (only.phase.trans hn) (only.unheeded hu)
    rw [only.tables] at rest
    rw [State.tookSettings_cons]
    cases h : s.tables.roleOfField source g.1 with
    | none =>
      have skipped : s.tables.roleStates source (g :: gs) = s.tables.roleStates source gs := by simp [Tables.roleStates, h]
      rw [State.tookSetting_of_none h] at rest ⊢
      rw [skipped]
      exact ⟨m, by rw [List.length_cons]; omega, rest⟩
    | some r =>
      have taken : s.tables.roleStates source (g :: gs) = .roleState r g.2 :: s.tables.roleStates source gs := by
        simp [Tables.roleStates, h]
      obtain ⟨k, hk, first⟩ := roleState_leads hn hu r g.2 (s.tables.roleStates source gs)
      rw [State.tookSetting_of_match h] at rest ⊢
      rw [taken]
      exact ⟨k + m, by rw [List.length_cons]; omega, first.trans rest⟩

theorem stateTap_of_normal {s : State} {f : Frame} (hn : s.phase = .normal) (hg : groupsOk 4 f.payload = true) :
    stateTap s f = s.tables.roleStates f.src.toNat (groups f.payload) :=
  if_pos (by rw [State.normal_of_phase hn, hg]; rfl)

theorem stateTap_of_not {s : State} {f : Frame} (h : groupsOk 4 f.payload = false ∨ s.phase = .fallback) : stateTap s f = [] := by
  refine if_neg fun k => ?_
  obtain ⟨hn, hg⟩ := (Bool.and_eq_true _ _).mp k
  rw [State.normal_iff] at hn
  rcases h with h | h
  · rw [h] at hg; cases hg
  · rw [h] at hn; cases hn

/-! ### Every record first -/

/-- A work of one event, with its hand-offs so far. -/
def Work.handing (s : State) (rest acts : List Act) : Work := { st := s, stack := rest, fins := [], emitted := acts, queue := [] }

/-- The points in use that a mark ages, with what each hands on, its record having been `old`. -/
def State.agedHandOffs (s : State) (p : Nat) : List Act :=
  if (s.tables.point p).inUse then s.handOffs p (s.point p) (afterMark (s.tables.point p) (s.point p)) false else []

/-- A point of the mark (R12). -/
def State.agedPoint (s : State) (p : Nat) : PointRun :=
  if (s.tables.point p).inUse then afterMark (s.tables.point p) (s.point p) else s.point p

theorem agePoint_handing (s : State) (rest acts : List Act) (p : Nat) :
    agePoint (Work.handing s rest acts) p = Work.handing (s.setPoint p (s.agedPoint p)) rest (acts ++ s.agedHandOffs p) := by
  unfold agePoint State.agedPoint State.agedHandOffs
  split
  · next h =>
    have h : (s.tables.point p).inUse = true := h
    have untraced : pointToTrace s p (afterMark (s.tables.point p) (s.point p)) false = [] := if_neg (by simp)
    rw [if_pos h, if_pos h]
    unfold State.handOffs
    rw [untraced]
    rfl
  · next h =>
    have h : ¬ (s.tables.point p).inUse = true := h
    have same : s.setPoint p (s.point p) = s := by
      have points : s.points.set p (s.point p) = s.points := by
        refine List.ext_getElem (List.length_set) fun i h1 h2 => ?_
        rw [List.getElem_set]
        split
        · next e => subst e; exact getD_of_lt _ _ h2
        · rfl
      unfold State.setPoint
      rw [points]
    rw [if_neg h, if_neg h, same, List.append_nil]

theorem agedHandOffs_setPoint {s : State} {p q : Nat} (h : p ≠ q) (x : PointRun) :
    (s.setPoint p x).agedHandOffs q = s.agedHandOffs q ∧ (s.setPoint p x).agedPoint q = s.agedPoint q := by
  have point : (s.setPoint p x).point q = s.point q := (getD_set s.points p q x PointRun.empty).trans (if_neg fun k => h k.1)
  have tables : (s.setPoint p x).tables = s.tables := rfl
  have handOffs (old new : PointRun) : (s.setPoint p x).handOffs q old new false = s.handOffs q old new false := rfl
  unfold State.agedHandOffs State.agedPoint
  rw [point, tables, handOffs]
  exact ⟨rfl, rfl⟩

/-- Points that age in turn have records of their own (R12). -/
theorem foldl_agePoint_handing (l : List Nat) (h : l.Nodup) (s : State) (rest acts : List Act) :
    l.foldl agePoint (Work.handing s rest acts) =
      Work.handing (l.foldl (fun u p => u.setPoint p (s.agedPoint p)) s) rest (acts ++ l.flatMap s.agedHandOffs) := by
  induction l generalizing s acts with
  | nil => rw [List.flatMap_nil, List.append_nil]; rfl
  | cons p l ih =>
    obtain ⟨fresh, nodup⟩ := List.nodup_cons.1 h
    have other (q : Nat) (hq : q ∈ l) := agedHandOffs_setPoint (s := s) (p := p) (q := q) (fun e => fresh (e ▸ hq)) (s.agedPoint p)
    rw [List.foldl_cons, agePoint_handing, ih nodup, List.foldl_cons, List.flatMap_cons, List.append_assoc,
      flatMap_agree fun q hq => (other q hq).1]
    congr 1
    exact foldl_agree _ _ _ fun u q hq => by rw [(other q hq).2]

theorem foldl_setPoint_eq (f : Nat → PointRun) (l : List Nat) (s : State) :
    l.foldl (fun u p => u.setPoint p (f p)) s = { s with points := l.foldl (fun ps p => ps.set p (f p)) s.points } := by
  induction l generalizing s with
  | nil => rfl
  | cons p l ih => rw [List.foldl_cons, ih]; rfl

theorem foldl_set_getElem? {α : Type} (f : Nat → α) (l : List Nat) (ps : List α) (i : Nat) :
    (l.foldl (fun ps p => ps.set p (f p)) ps)[i]? = if i ∈ l ∧ i < ps.length then some (f i) else ps[i]? := by
  induction l generalizing ps with
  | nil => simp
  | cons p l ih =>
    rw [List.foldl_cons, ih, List.length_set, List.getElem?_set]
    by_cases hl : i < ps.length <;> by_cases hp : p = i <;> by_cases hi : i ∈ l <;> simp_all [eq_comm]

theorem foldl_set_range {α : Type} (f : Nat → α) {n : Nat} {ps : List α} (h : ps.length = n) :
    (List.range n).foldl (fun ps p => ps.set p (f p)) ps = (List.range n).map f := by
  refine List.ext_getElem? fun i => ?_
  rw [foldl_set_getElem?, List.getElem?_map]
  by_cases hi : i < n
  · rw [if_pos ⟨List.mem_range.2 hi, by omega⟩, List.getElem?_range hi]
    rfl
  · rw [if_neg fun k => hi (List.mem_range.1 k.1), List.getElem?_eq_none (by omega), List.getElem?_eq_none (by simp; omega)]
    rfl

/-! ### The two samples of a mark -/

/-- The state after a reading's record has changed, and nothing is handed on yet. -/
def State.readPoint (s : State) (source : Nat) (g : Nat × Nat) : State :=
  match matchPoint s.tables source g.1 with
  | some p => s.setPoint p (afterReading (s.tables.point p) (s.point p) (limitCode g.2))
  | none => s

/-- What a reading hands on. -/
def State.readHandOffs (s : State) (source : Nat) (g : Nat × Nat) : List Act :=
  match matchPoint s.tables source g.1 with
  | some p =>
    s.handOffs p (s.point p) (afterReading (s.tables.point p) (s.point p) (limitCode g.2))
      (readingPlausible (s.tables.point p) (limitCode g.2))
  | none => []

/-- The state `u` after what a reading in `s` hands on. -/
def State.handedReading (s : State) (source : Nat) (u : State) (g : Nat × Nat) : State :=
  match matchPoint s.tables source g.1 with
  | some p =>
    u.handedOn p (s.point p) (afterReading (s.tables.point p) (s.point p) (limitCode g.2))
      (sampleOf (s.tables.point p) (s.point p) (limitCode g.2))
  | none => u

theorem reading_handing {s : State} (hn : s.phase = .normal) (source : Nat) (g : Nat × Nat) (rest acts : List Act) :
    Leads 1 (Work.handing s (.reading source g.1 g.2 :: rest) acts)
      (Work.handing (s.readPoint source g) rest (acts ++ s.readHandOffs source g)) := by
  have first : Leads 1 (Work.handing s (.reading source g.1 g.2 :: rest) acts)
      (act (.reading source g.1 g.2) (Work.handing s rest acts)) := Leads.take rfl
  unfold State.readPoint State.readHandOffs
  cases h : matchPoint s.tables source g.1 with
  | none =>
    rw [actReading_of_none (w := Work.handing s rest acts) g.2 h] at first
    rw [List.append_nil]
    exact first
  | some p =>
    rw [actReading_of_match (w := Work.handing s rest acts) hn g.2 h, readAt_eq] at first
    exact first

theorem readHandOffs_lead {s u : State} (hn : u.phase = .normal) (hu : u.unheeded) (ht : u.tables = s.tables)
    (ho : u.order = s.order) (source : Nat) (g : Nat × Nat) (l : List Act) :
    ∃ m x t, m ≤ 10 ∧ Leads m (Work.waiting u (s.readHandOffs source g ++ l))
      (Work.waiting ((s.handedReading source u g).aside t { u.gate with notices := x } u.fieldPort) l) := by
  unfold State.readHandOffs State.handedReading
  split
  · next p _ =>
    obtain ⟨m, x, hm, leads⟩ := handOffs_lead hn hu ht ho p (s.point p)
      (afterReading (s.tables.point p) (s.point p) (limitCode g.2)) (fun ok => afterReading_isSome ok (s.point p)) l
    exact ⟨m, x, _, hm, leads⟩
  · exact ⟨0, u.gate.notices, u.trace, Nat.zero_le _, Leads.refl _⟩

theorem onlySensed_handedReading (s : State) (source : Nat) (u : State) (g : Nat × Nat) :
    OnlySensed u (s.handedReading source u g) := by
  unfold State.handedReading
  split
  · exact onlySensed_handedOn _ _ _ _ _
  · exact OnlySensed.refl u

/-- The state `u` after what the points that aged in `s` hand on, in turn. -/
def State.handedAges (s : State) (l : List Nat) (u : State) : State :=
  l.foldl (fun u p => if (s.tables.point p).inUse then u.handedOn p (s.point p) (s.agedPoint p) none else u) u

theorem onlySensed_handedAges (s : State) (l : List Nat) (u : State) : OnlySensed u (s.handedAges l u) := by
  induction l generalizing u with
  | nil => exact OnlySensed.refl u
  | cons p l ih =>
    unfold State.handedAges at ih ⊢
    rw [List.foldl_cons]
    refine OnlySensed.trans ?_ (ih _)
    split
    · exact onlySensed_handedOn _ _ _ _ _
    · exact OnlySensed.refl u

theorem State.handedAges_aside (s : State) (l : List Nat) (u : State) (t : TraceUnit) (x : Gate) (p : PortState) :
    s.handedAges l (u.aside t x p) = (s.handedAges l u).aside t x p := by
  induction l generalizing u with
  | nil => rfl
  | cons i l ih =>
    unfold State.handedAges at ih ⊢
    rw [List.foldl_cons, List.foldl_cons, ← ih]
    congr 1
    rw [State.handedOn_aside]
    split <;> rfl

theorem agedHandOffs_lead {s u : State} (hn : u.phase = .normal) (hu : u.unheeded) (ht : u.tables = s.tables)
    (ho : u.order = s.order) (l : List Nat) :
    ∃ m x t, m ≤ 10 * l.length ∧ Leads m (Work.waiting u (l.flatMap s.agedHandOffs))
      (Work.waiting ((s.handedAges l u).aside t { u.gate with notices := x } u.fieldPort) []) := by
  induction l generalizing u with
  | nil => exact ⟨0, u.gate.notices, u.trace, Nat.zero_le _, Leads.refl _⟩
  | cons p l ih =>
    have one : ∃ m x t, m ≤ 10 ∧ Leads m (Work.waiting u (s.agedHandOffs p ++ l.flatMap s.agedHandOffs))
        (Work.waiting ((s.handedAges [p] u).aside t { u.gate with notices := x } u.fieldPort) (l.flatMap s.agedHandOffs)) := by
      unfold State.agedHandOffs State.handedAges State.agedPoint
      rw [List.foldl_cons, List.foldl_nil]
      split
      · obtain ⟨m, x, hm, leads⟩ := handOffs_lead (ok := false) hn hu ht ho p (s.point p)
          (afterMark (s.tables.point p) (s.point p)) (fun k => nomatch k) (l.flatMap s.agedHandOffs)
        exact ⟨m, x, _, hm, leads⟩
      · exact ⟨0, u.gate.notices, u.trace, Nat.zero_le _, Leads.refl _⟩
    obtain ⟨m, x, t, hm, first⟩ := one
    have only := onlySensed_handedAges s [p] u
    obtain ⟨m', x', t', hm', rest⟩ := ih (u := (s.handedAges [p] u).aside t { u.gate with notices := x } u.fieldPort)
      (only.phase.trans hn) (only.unheeded hu) (only.tables.trans ht) (only.order.trans ho)
    rw [State.handedAges_aside, State.aside_aside] at rest
    rw [List.flatMap_cons]
    exact ⟨m + m', x', t', by rw [List.length_cons]; omega, first.trans rest⟩

end Sys2Proof.Machine

section
open Sys2Proof Sys2Proof.Machine

/-- Settles O16: the settings of a STATE frame are taken in turn, each with the walk that it causes. -/
theorem stateFrameTakesSettings : Obligations.StateFrameTakesSettings := by
  unfold Obligations.StateFrameTakesSettings
  intro s src dst sub payload hs hr h0 hl
  have arrives : exec (.state src dst sub payload) s = finish ((Work.idle
      (s.heardField { src := src, dst := dst, kind := kindByte 2 sub.toNat, payload := payload })).emit
      (stateTap (s.hear .field .waiting) { src := src, dst := dst, kind := kindByte 2 sub.toNat, payload := payload })) := by
    have e : exec (.state src dst sub payload) s =
      exec (.fieldFrame { src := src, dst := dst, kind := kindByte 2 sub.toNat, payload := payload }) s := rfl
    rw [e, exec_fieldFrame hs hr h0 hl, fieldArrival_goesUp (by rw [frameKind_kindByte_state]; rfl), tap,
      frameKind_kindByte_state]
  refine ⟨fun hn hg sized hu => ?_, fun h => ?_⟩
  · obtain ⟨-, -, -, -, -, roles, -⟩ := sized
    have only := onlyHeard_tookSettings s src.toNat (groups payload)
    have few := groups_length_le hg
    rw [arrives, stateTap_of_normal (s := s.hear .field .waiting) hn (by exact hg), State.heardField_eq]
    obtain ⟨m, hm, leads⟩ := settings_lead (s := s.aside s.trace
      { s.gate with up := s.upAfter dst { src := src, dst := dst, kind := kindByte 2 sub.toNat, payload := payload } }
      { s.fieldPort with hearing := .waiting }) hn hu src.toNat (groups payload)
    rw [State.tookSettings_aside] at leads
    refine ⟨_, ((Leads.idle_emit _ _).trans leads).finish (by unfold Config.cascadeLimit; omega) rfl,
      fun r _ => State.tookSettings_role roles src.toNat (groups payload) r, rfl, rfl, only.points, only.lines, only.circuits,
      only.flue, only.seq, only.fault, rfl, only.pins, only.tables, only.staging, only.store⟩
  · rw [arrives, stateTap_of_not (s := s.hear .field .waiting) h]
    exact finish_idleState _

end
end

section
/-! SUPPORT. The second mark of the Point Unit: O18. -/

namespace Sys2Proof.Machine

theorem matchPoint_spec {t : Tables} {source channel p : Nat} (h : matchPoint t source channel = some p) :
    (t.point p).inUse = true ∧ (t.point p).channel = channel := by
  have found := List.find?_some h
  simp only [Bool.and_eq_true, decide_eq_true_eq] at found
  obtain ⟨⟨used, -⟩, channel⟩ := found
  exact ⟨used, channel⟩

theorem State.readPoint_point {s : State} (h : s.points.length = 24) (source : Nat) (g : Nat × Nat) (i : Nat) :
    (s.readPoint source g).point i =
      if matchPoint s.tables source g.1 = some i then afterReading (s.tables.point i) (s.point i) (limitCode g.2) else s.point i := by
  unfold State.readPoint
  cases hm : matchPoint s.tables source g.1 with
  | none => rw [if_neg (by simp)]
  | some p =>
    dsimp only
    rw [State.setPoint_point h]
    by_cases e : p = i
    · subst e
      rw [if_pos ⟨rfl, matchPoint_lt hm⟩, if_pos rfl]
    · rw [if_neg fun k => e k.1, if_neg fun k => e (Option.some.inj k)]

theorem State.readPoint_eq (s : State) (source : Nat) (g : Nat × Nat) :
    s.readPoint source g = { s with points := (s.readPoint source g).points } := by
  unfold State.readPoint
  split <;> rfl

theorem State.readPoint_length (s : State) (source : Nat) (g : Nat × Nat) :
    (s.readPoint source g).points.length = s.points.length := by
  unfold State.readPoint
  split
  · exact List.length_set
  · rfl

/-- The state at the start of a mark, after the sample of IN2, and after both samples. -/
def State.markStart (s : State) : State := { s with pointTimer := 0 }
def State.sampledIn2 (s : State) : State := s.markStart.readPoint 0 (2, inputCode s.pins.in2High)
def State.sampledBoth (s : State) : State := s.sampledIn2.readPoint 0 (3, inputCode s.pins.in3High)

theorem State.sampledIn2_eq (s : State) : s.sampledIn2 = { s with pointTimer := 0, points := s.sampledIn2.points } :=
  State.readPoint_eq s.markStart 0 _

theorem State.sampledIn2_tables (s : State) : s.sampledIn2.tables = s.tables := by rw [State.sampledIn2_eq]

theorem State.sampledBoth_eq (s : State) : s.sampledBoth = { s with pointTimer := 0, points := s.sampledBoth.points } := by
  have e := State.readPoint_eq s.sampledIn2 0 (3, inputCode s.pins.in3High)
  have first := State.sampledIn2_eq s
  unfold State.sampledBoth
  generalize s.sampledIn2 = t at e first ⊢
  generalize ht : t.points = ps at first
  subst first
  exact e

theorem State.sampledBoth_tables (s : State) : s.sampledBoth.tables = s.tables := by rw [State.sampledBoth_eq]

theorem State.sampledIn2_point {s : State} (h : s.points.length = 24) (p : Nat) :
    s.sampledIn2.point p = if matchPoint s.tables 0 2 = some p then
      afterReading (s.tables.point p) (s.point p) (limitCode (inputCode s.pins.in2High)) else s.point p :=
  State.readPoint_point (s := s.markStart) h 0 _ p

theorem State.sampledBoth_point {s : State} (h : s.points.length = 24) (p : Nat) :
    s.sampledBoth.point p = pointAfter s.tables 0 (inputReadings s) p (s.point p) := by
  have e := State.readPoint_point (s := s.sampledIn2) ((State.readPoint_length s.markStart 0 _).trans h) 0
    (3, inputCode s.pins.in3High) p
  rw [State.sampledIn2_point h, State.sampledIn2_tables] at e
  exact e

/-- A point takes the sample of one input only: its channel tells which. -/
theorem matchPoint_two_three {t : Tables} {p : Nat} (h : matchPoint t 0 2 = some p) : matchPoint t 0 3 ≠ some p := fun k => by
  have := (matchPoint_spec h).2
  have := (matchPoint_spec k).2
  omega

theorem State.agedPoint_sampledBoth {s : State} (h : s.points.length = 24) (p : Nat) :
    s.sampledBoth.agedPoint p = s.markedPoint p := by
  unfold State.agedPoint State.markedPoint
  rw [State.sampledBoth_tables, State.sampledBoth_point h]
  split
  · rfl
  · next unused =>
    have apart (channel : Nat) : matchPoint s.tables 0 channel ≠ some p := fun k => unused (matchPoint_spec k).1
    simp [pointAfter, inputReadings, apart]

/-- The state after every record of the mark has changed. -/
def State.marked (s : State) : State := { s with pointTimer := 0, points := (List.range 24).map s.markedPoint }

theorem State.marked_eq {s : State} (h : s.points.length = 24) :
    (List.range 24).foldl (fun u p => u.setPoint p (s.sampledBoth.agedPoint p)) s.sampledBoth = s.marked := by
  have length : s.sampledBoth.points.length = 24 :=
    (State.readPoint_length s.sampledIn2 0 _).trans ((State.readPoint_length s.markStart 0 _).trans h)
  rw [foldl_setPoint_eq, foldl_set_range _ length, List.map_congr_left fun p _ => State.agedPoint_sampledBoth h p,
    State.sampledBoth_eq]
  rfl

/-- The state after what the two samples of a mark hand on. -/
def State.handedSamples (s u : State) : State :=
  s.sampledIn2.handedReading 0 (s.markStart.handedReading 0 u (2, inputCode s.pins.in2High)) (3, inputCode s.pins.in3High)

theorem onlySensed_handedSamples (s u : State) : OnlySensed u (s.handedSamples u) :=
  (onlySensed_handedReading _ _ _ _).trans (onlySensed_handedReading _ _ _ _)

theorem State.handedReading_aside (s : State) (source : Nat) (g : Nat × Nat) (u : State) (t : TraceUnit) (x : Gate) (p : PortState) :
    s.handedReading source (u.aside t x p) g = (s.handedReading source u g).aside t x p := by
  unfold State.handedReading
  split
  · exact State.handedOn_aside _ _ _ _ _ _ _ _
  · rfl

theorem handedSamples_eq {s : State} (h : s.points.length = 24) (u : State) :
    s.handedSamples u = (inputReadings s).foldl (fun (u : State) g =>
      match matchPoint s.tables 0 g.1 with
      | some p => u.handedOn p (s.point p) (pointAfter s.tables 0 (inputReadings s) p (s.point p))
          (sampleOf (s.tables.point p) (s.point p) (limitCode g.2))
      | none => u) u := by
  have first (u : State) : s.markStart.handedReading 0 u (2, inputCode s.pins.in2High) =
      match matchPoint s.tables 0 2 with
      | some p => u.handedOn p (s.point p) (pointAfter s.tables 0 (inputReadings s) p (s.point p))
          (sampleOf (s.tables.point p) (s.point p) (limitCode (inputCode s.pins.in2High)))
      | none => u := by
    have e : matchPoint s.markStart.tables 0 2 = matchPoint s.tables 0 2 := rfl
    unfold State.handedReading
    dsimp only
    rw [e]
    cases hm : matchPoint s.tables 0 2 with
    | none => rfl
    | some p =>
      have read : pointAfter s.tables 0 (inputReadings s) p (s.point p) =
          afterReading (s.tables.point p) (s.point p) (limitCode (inputCode s.pins.in2High)) := by
        simp [pointAfter, inputReadings, hm, matchPoint_two_three hm]
      dsimp only
      rw [read]
      rfl
  have second (u : State) : s.sampledIn2.handedReading 0 u (3, inputCode s.pins.in3High) =
      match matchPoint s.tables 0 3 with
      | some p => u.handedOn p (s.point p) (pointAfter s.tables 0 (inputReadings s) p (s.point p))
          (sampleOf (s.tables.point p) (s.point p) (limitCode (inputCode s.pins.in3High)))
      | none => u := by
    unfold State.handedReading
    dsimp only
    rw [State.sampledIn2_tables]
    cases hm : matchPoint s.tables 0 3 with
    | none => rfl
    | some p =>
      have apart : matchPoint s.tables 0 2 ≠ some p := fun k => matchPoint_two_three k hm
      have read : pointAfter s.tables 0 (inputReadings s) p (s.point p) =
          afterReading (s.tables.point p) (s.point p) (limitCode (inputCode s.pins.in3High)) := by
        simp [pointAfter, inputReadings, hm, apart]
      dsimp only
      rw [read, State.sampledIn2_point h, if_neg apart]
  unfold State.handedSamples
  rw [first, second]
  rfl

theorem State.tookMark_eq {s : State} (h : s.points.length = 24) :
    s.tookMark = s.sampledBoth.handedAges (List.range 24) (s.handedSamples s.marked) := by
  unfold State.handedAges
  rw [handedSamples_eq h]
  unfold State.tookMark
  dsimp only
  refine foldl_agree _ _ _ fun u p _ => ?_
  rw [State.sampledBoth_tables, State.sampledBoth_point h, State.agedPoint_sampledBoth h]

/-- The hand-offs of a mark, in their order. -/
def State.markHandOffs (s : State) : List Act :=
  s.markStart.readHandOffs 0 (2, inputCode s.pins.in2High) ++
    (s.sampledIn2.readHandOffs 0 (3, inputCode s.pins.in3High) ++ (List.range 24).flatMap s.sampledBoth.agedHandOffs)

theorem mark_handing {s : State} (hn : s.phase = .normal) (h : s.points.length = 24) :
    Leads 3 (Work.handing s.markStart (inputSamples s ++ [.ageMark]) []) (Work.handing s.marked [] s.markHandOffs) := by
  have first : Leads 1 (Work.handing s.markStart (inputSamples s ++ [.ageMark]) []) _ :=
    reading_handing (s := s.markStart) hn 0 (2, inputCode s.pins.in2High) [.reading 0 3 (inputCode s.pins.in3High), .ageMark] []
  have second := reading_handing (s := s.sampledIn2) (by rw [State.sampledIn2_eq]; exact hn) 0 (3, inputCode s.pins.in3High)
    [.ageMark] ([] ++ s.markStart.readHandOffs 0 (2, inputCode s.pins.in2High))
  have third : ∀ acts, Leads 1 (Work.handing s.sampledBoth [.ageMark] acts)
      (Work.handing s.marked [] (acts ++ (List.range 24).flatMap s.sampledBoth.agedHandOffs)) := fun acts => by
    have taken : act .ageMark (Work.handing s.sampledBoth [] acts) = (List.range 24).foldl agePoint (Work.handing s.sampledBoth [] acts) :=
      if_pos (State.normal_of_phase (by show s.sampledBoth.phase = .normal; rw [State.sampledBoth_eq]; exact hn))
    have e : Leads 1 (Work.handing s.sampledBoth [.ageMark] acts) (act .ageMark (Work.handing s.sampledBoth [] acts)) :=
      Leads.take rfl
    rw [taken, foldl_agePoint_handing _ List.nodup_range, State.marked_eq h] at e
    exact e
  have all := (first.trans second).trans (third _)
  rw [List.nil_append, List.append_assoc] at all
  exact all

theorem handing_ends (s : State) (acts : List Act) : Leads 0 (Work.handing s [] acts) (Work.waiting s acts) := by
  have e := Leads.emitted (w := Work.handing s [] acts) rfl rfl
  have l : (Work.handing s [] acts).emitted ++ (Work.handing s [] acts).queue = acts := List.append_nil acts
  rw [l] at e
  exact e

theorem mark_leads {s : State} (hn : s.phase = .normal) (hu : s.unheeded) (h : s.points.length = 24) :
    ∃ m x t, m ≤ 300 ∧ Leads m (Work.handing s.markStart (inputSamples s ++ [.ageMark]) [])
      (Work.waiting (s.tookMark.aside t { s.gate with notices := x } s.fieldPort) []) := by
  have begin := (mark_handing hn h).trans (handing_ends s.marked s.markHandOffs)
  obtain ⟨m₁, x₁, t₁, hm₁, first⟩ := readHandOffs_lead (s := s.markStart) (u := s.marked) hn hu rfl rfl 0
    (2, inputCode s.pins.in2High)
    (s.sampledIn2.readHandOffs 0 (3, inputCode s.pins.in3High) ++ (List.range 24).flatMap s.sampledBoth.agedHandOffs)
  have only₁ := onlySensed_handedReading s.markStart 0 s.marked (2, inputCode s.pins.in2High)
  have order₂ : s.sampledIn2.order = s.order := by rw [State.sampledIn2_eq]
  have order₃ : s.sampledBoth.order = s.order := by rw [State.sampledBoth_eq]
  obtain ⟨m₂, x₂, t₂, hm₂, second⟩ := readHandOffs_lead (s := s.sampledIn2)
    (u := (s.markStart.handedReading 0 s.marked (2, inputCode s.pins.in2High)).aside t₁ { s.gate with notices := x₁ } s.fieldPort)
    (only₁.phase.trans hn) (only₁.unheeded hu) (only₁.tables.trans (State.sampledIn2_tables s).symm)
    (only₁.order.trans order₂.symm) 0 (3, inputCode s.pins.in3High) ((List.range 24).flatMap s.sampledBoth.agedHandOffs)
  rw [State.handedReading_aside, State.aside_aside] at second
  have only₂ := onlySensed_handedSamples s s.marked
  obtain ⟨m₃, x₃, t₃, hm₃, third⟩ := agedHandOffs_lead (s := s.sampledBoth)
    (u := (s.handedSamples s.marked).aside t₂ { s.gate with notices := x₂ } s.fieldPort)
    (only₂.phase.trans hn) (only₂.unheeded hu) (only₂.tables.trans (State.sampledBoth_tables s).symm)
    (only₂.order.trans order₃.symm) (List.range 24)
  rw [State.handedAges_aside, State.aside_aside, ← State.tookMark_eq h] at third
  rw [List.length_range] at hm₃
  exact ⟨3 + 0 + (m₁ + m₂ + m₃), x₃, t₃, by omega, begin.trans ((first.trans second).trans third)⟩

theorem mark_untaken {s : State} (h : s.phase ≠ .normal) :
    Leads 3 (Work.handing s.markStart (inputSamples s ++ [.ageMark]) []) (Work.handing s.markStart [] []) := by
  have untaken (a : Act) (ha : a ∈ inputSamples s ++ [.ageMark]) (rest : List Act) :
      Leads 1 (Work.handing s.markStart (a :: rest) []) (Work.handing s.markStart rest []) := by
    have abnormal : ¬ s.markStart.normal = true := fun k => h ((State.normal_iff s.markStart).1 k)
    have same : act a (Work.handing s.markStart rest []) = Work.handing s.markStart rest [] := by
      simp only [inputSamples, sampleInput, List.cons_append, List.nil_append, List.mem_cons, List.not_mem_nil, or_false] at ha
      rcases ha with rfl | rfl | rfl <;> exact if_neg abnormal
    have e : Leads 1 (Work.handing s.markStart (a :: rest) []) (act a (Work.handing s.markStart rest [])) := Leads.take rfl
    rw [same] at e
    exact e
  have first := untaken (sampleInput .in2 s.pins.in2High) (by simp [inputSamples])
    [sampleInput .in3 s.pins.in3High, .ageMark]
  have second := untaken (sampleInput .in3 s.pins.in3High) (by simp [inputSamples]) [.ageMark]
  have third := untaken .ageMark (by simp) []
  exact (first.trans second).trans third

theorem exec_pointSecondMark (s : State) : exec .pointSecondMark s =
    if s.powered then finish (Work.handing s.markStart (inputSamples s ++ [.ageMark]) []) else finishState s := rfl

theorem OnlySensed.point_eq {s t : State} (h : OnlySensed s t) : t.point = s.point := funext h.point

end Sys2Proof.Machine

section
open Sys2Proof Sys2Proof.Machine

/-- Settles O18: the records of a mark change first, and then what has changed is handed on. -/
theorem pointMarkAgesPoints : Obligations.PointMarkAgesPoints := by
  unfold Obligations.PointMarkAgesPoints
  refine ⟨fun s => ⟨fun hn sized hu => ?_, fun h => ?_⟩, fun e r => ⟨fun none => ?_, fun aged => ?_⟩⟩
  · obtain ⟨length, -⟩ := sized
    obtain ⟨m, x, t, hm, leads⟩ := mark_leads hn hu length
    have only : OnlySensed s.marked s.tookMark := by
      rw [State.tookMark_eq length]
      exact (onlySensed_handedSamples s s.marked).trans (onlySensed_handedAges _ _ _)
    have powered : s.powered = true := by simp [State.powered, hn]
    rw [exec_pointSecondMark, if_pos powered]
    refine ⟨_, leads.finish (by unfold Config.cascadeLimit; omega) rfl, ?_, fun p hp => ?_, rfl, rfl, only.measured.roles, only.measured.lines,
      only.measured.circuits, only.seq, only.measured.fault, only.measured.pins, only.tables, only.measured.staging,
      only.measured.store, rfl, rfl⟩
    · exact only.measured.pointTimer
    · have point : s.marked.point p = s.markedPoint p := (getD_map_range 24 p s.markedPoint PointRun.empty).trans (if_pos hp)
      exact (only.point p).trans point
  · have powered : s.powered = true := by rcases h with h | h <;> simp [State.powered, h]
    have abnormal : s.phase ≠ .normal := by rcases h with h | h <;> rw [h] <;> decide
    rw [exec_pointSecondMark, if_pos powered]
    exact (mark_untaken abnormal).finish (by decide) rfl
  · unfold afterMark
    rw [none]
  · have e : afterMark e r = { r with
        quality := if e.staleLimit ≤ r.age ∧ (r.quality = .good ∨ r.quality = .implausible) then .stale else r.quality
        age := min (r.age + 1) 255 } := by
      unfold afterMark
      split
      · next h => exact absurd h aged
      · rfl
    rw [e]
    refine ⟨?_, rfl, rfl, rfl, fun old => ?_, fun young => if_neg fun k => ?_⟩
    · dsimp only
      split <;> omega
    · cases hq : r.quality with
      | none => exact absurd hq aged
      | stale => simp
      | good => simp [old]
      | implausible => simp [old]
    · omega

end
end

section
/-! SUPPORT. What a change of a role's claims does to the role, its slot and its line, and to nothing else: the rules that the
proofs about outputs use. -/

namespace Sys2Proof.Machine

/-! ### One role -/

theorem RoleRun.recompute_applied (x : RoleRun) : x.recompute.applied = x.claim.2 := rfl

theorem changeRole_eq (carried : Bool) (r : Nat) (x : RoleRun) (w : Work) :
    changeRole carried r x w =
      if x.claim.2 = (w.st.role r).applied then w.withSt (w.st.changedRole carried r x)
      else (w.withSt (w.st.changedRole carried r x)).emit [.condWalk (.role r)] := by
  unfold changeRole State.changedRole
  dsimp only
  by_cases h : x.recompute.applied = (w.st.role r).applied
  · have h' : x.claim.2 = (w.st.role r).applied := h
    rw [if_pos h, if_pos h, if_pos h']
  · have h' : ¬ x.claim.2 = (w.st.role r).applied := h
    rw [if_neg h, if_neg h, if_neg h']

theorem State.setRole_setRole (s : State) (r : Nat) (x y : RoleRun) : (s.setRole r x).setRole r y = s.setRole r y := by
  unfold State.setRole
  simp only [List.set_set]

theorem State.changedRole_same (s : State) (carried : Bool) {r : Nat} (hr : r < s.roles.length) {x : RoleRun}
    (h : x.claim.2 = (s.role r).applied) : s.changedRole carried r x = s.setRole r (s.actedRole carried r x) := by
  have h : x.recompute.applied = (s.role r).applied := h
  unfold State.changedRole State.actedRole State.ownerOnly
  rw [if_pos h, if_pos h, State.role_setRole_self hr, State.setRole_tables]
  split
  · exact State.setRole_setRole _ _ _ _
  · rfl

theorem State.changedRole_line (s : State) (carried : Bool) {r l : Nat} (hr : r < s.roles.length) {x : RoleRun}
    (h : x.claim.2 ≠ (s.role r).applied) (ht : (s.tables.role r).target = .line l) :
    s.changedRole carried r x =
      (s.setRole r (s.actedRole carried r x)).setLine l ((s.line l).command (x.claim.2 != 0)) := by
  have h : ¬ x.recompute.applied = (s.role r).applied := h
  unfold State.changedRole State.actedRole State.actOnTarget
  rw [if_neg h, if_neg h, State.role_setRole_self hr, State.setRole_tables]
  dsimp only
  rw [ht]
  rfl

theorem State.changedRole_untargeted (s : State) (carried : Bool) {r : Nat} (hr : r < s.roles.length) {x : RoleRun}
    (h : x.claim.2 ≠ (s.role r).applied) (ht : (s.tables.role r).target = .none) :
    s.changedRole carried r x = s.setRole r (s.actedRole carried r x) := by
  have h : ¬ x.recompute.applied = (s.role r).applied := h
  unfold State.changedRole State.actedRole State.actOnTarget
  rw [if_neg h, if_neg h, State.role_setRole_self hr, State.setRole_tables]
  dsimp only
  rw [ht]

theorem State.changedRole_field (s : State) (carried : Bool) {r n c : Nat} (hr : r < s.roles.length) {x : RoleRun}
    (h : x.claim.2 ≠ (s.role r).applied) (ht : (s.tables.role r).target = .field n c) :
    s.changedRole carried r x =
      if carried then s.setRole r (s.actedRole carried r x)
      else (s.setRole r (s.actedRole carried r x)).setSlot r (some (placedSlot n c x.claim.2)) := by
  have h : ¬ x.recompute.applied = (s.role r).applied := h
  unfold State.changedRole State.actedRole State.actOnTarget
  rw [if_neg h, if_neg h, State.role_setRole_self hr, State.setRole_tables]
  dsimp only
  rw [ht]
  dsimp only
  rw [State.setRole_setRole]
  cases carried with
  | true => rfl
  | false =>
    rw [if_neg Bool.false_ne_true, if_neg Bool.false_ne_true]
    exact placeSub_field (s := s.setRole r _) ht _

theorem isField_iff (t : Tables) (r : Nat) : t.isField r = true ↔ ∃ n c, (t.role r).target = .field n c := by
  unfold Tables.isField
  cases (t.role r).target <;> simp

theorem State.actedRole_of_other (s : State) (carried : Bool) {r : Nat} (x : RoleRun)
    (h : ∀ n c, (s.tables.role r).target ≠ .field n c) : s.actedRole carried r x = x.recompute := by
  have none : ¬ s.tables.isField r = true := fun k => by
    obtain ⟨n, c, e⟩ := (isField_iff _ _).1 k
    exact h n c e
  unfold State.actedRole
  rw [if_neg none]
  split
  · rfl
  · split
    · next n c e => exact absurd e (h n c)
    · rfl

theorem State.actedRole_of_same (s : State) (carried : Bool) {r n c : Nat} {x : RoleRun} (h : x.claim.2 = (s.role r).applied)
    (ht : (s.tables.role r).target = .field n c) : s.actedRole carried r x =
      { x.recompute with refresh := refreshAfter s.tables.device.refresh false (s.role r).owner x.recompute } := by
  have h : x.recompute.applied = (s.role r).applied := h
  unfold State.actedRole
  rw [if_pos h, if_pos ((isField_iff _ _).2 ⟨n, c, ht⟩)]

theorem State.actedRole_of_moved (s : State) (carried : Bool) {r n c : Nat} {x : RoleRun} (h : x.claim.2 ≠ (s.role r).applied)
    (ht : (s.tables.role r).target = .field n c) : s.actedRole carried r x =
      { x.recompute.restart (s.tables.role r).confirmWindow with
        refresh := refreshAfter s.tables.device.refresh (!carried) (s.role r).owner
          (x.recompute.restart (s.tables.role r).confirmWindow) } := by
  have h : ¬ x.recompute.applied = (s.role r).applied := h
  unfold State.actedRole
  rw [if_neg h, ht]

/-- The slot of role `r` after its claims have become those of `x`. -/
def State.actedSlot (s : State) (carried : Bool) (r : Nat) (x : RoleRun) : Option Slot :=
  if x.claim.2 = (s.role r).applied then s.slot r
  else
    match (s.tables.role r).target with
    | .field n c => if carried then s.slot r else some (placedSlot n c x.claim.2)
    | _ => s.slot r

theorem State.slot_setSlot {s : State} {r : Nat} (hr : r < s.gate.slots.length) (x : Option Slot) (q : Nat) :
    (s.setSlot r x).slot q = if q = r then x else s.slot q := by
  refine (getD_set s.gate.slots r q x none).trans ?_
  by_cases h : q = r
  · rw [if_pos ⟨h.symm, h ▸ hr⟩, if_pos h]
  · rw [if_neg fun k => h k.1.symm, if_neg h]
    rfl

theorem State.changedRole_slot (s : State) (carried : Bool) {r : Nat} (x : RoleRun) (hr : r < s.roles.length)
    (hg : r < s.gate.slots.length) (q : Nat) :
    (s.changedRole carried r x).slot q = if q = r then s.actedSlot carried r x else s.slot q := by
  have own : s.slot q = if q = r then s.slot r else s.slot q := by
    by_cases h : q = r
    · rw [if_pos h, h]
    · rw [if_neg h]
  unfold State.actedSlot
  by_cases same : x.claim.2 = (s.role r).applied
  · rw [State.changedRole_same s carried hr same, if_pos same]
    exact own
  · rw [if_neg same]
    cases ht : (s.tables.role r).target with
    | none => rw [State.changedRole_untargeted s carried hr same ht]; exact own
    | line l => rw [State.changedRole_line s carried hr same ht]; exact own
    | field n c =>
      rw [State.changedRole_field s carried hr same ht]
      cases carried with
      | true => exact own
      | false => exact State.slot_setSlot (s := s.setRole r _) hg _ q

/-- What a change of a role's claims depends on and touches is the role's own. -/
theorem State.changedRole_local {s t : State} {r : Nat} (ht : t.tables = s.tables) (hrole : t.role r = s.role r)
    (hslot : t.slot r = s.slot r) (carried : Bool) (x : RoleRun) :
    t.actedRole carried r x = s.actedRole carried r x ∧ t.actedSlot carried r x = s.actedSlot carried r x := by
  unfold State.actedRole State.actedSlot
  rw [ht, hrole, hslot]
  exact ⟨rfl, rfl⟩

/-! ### One change of all roles' slots (R116) -/

/-- The state after the slots of the roles in `l` have changed by `f`, in turn. -/
def State.appliedSlots (s : State) (f : Nat → RoleRun → RoleRun) (l : List Nat) : State :=
  l.foldl (fun u r => if f r (u.role r) = u.role r then u else u.changedRole false r (f r (u.role r))) s

/-- Whether the change `f` moves the applied value of role `r`. -/
def State.movesApplied (s : State) (f : Nat → RoleRun → RoleRun) (r : Nat) : Bool :=
  decide (f r (s.role r) ≠ s.role r ∧ (f r (s.role r)).claim.2 ≠ (s.role r).applied)

/-- The state after role `r` alone has changed by `f`. -/
def State.appliedSlot (s : State) (f : Nat → RoleRun → RoleRun) (r : Nat) : State :=
  if f r (s.role r) = s.role r then s else s.changedRole false r (f r (s.role r))

theorem State.appliedSlots_cons (s : State) (f : Nat → RoleRun → RoleRun) (r : Nat) (l : List Nat) :
    s.appliedSlots f (r :: l) = (s.appliedSlot f r).appliedSlots f l := rfl

theorem State.appliedSlot_eq (s : State) (f : Nat → RoleRun → RoleRun) (r : Nat) :
    s.appliedSlot f r = { s with
      roles := (s.appliedSlot f r).roles, lines := (s.appliedSlot f r).lines
      gate := { s.gate with slots := (s.appliedSlot f r).gate.slots } } := by
  unfold State.appliedSlot
  split
  · rfl
  · exact State.changedRole_eq s false r _

theorem State.appliedSlots_eq (s : State) (f : Nat → RoleRun → RoleRun) (l : List Nat) :
    s.appliedSlots f l = { s with
      roles := (s.appliedSlots f l).roles, lines := (s.appliedSlots f l).lines
      gate := { s.gate with slots := (s.appliedSlots f l).gate.slots } } := by
  induction l generalizing s with
  | nil => rfl
  | cons r l ih =>
    have rest := ih (s.appliedSlot f r)
    rw [State.appliedSlots_cons]
    generalize (s.appliedSlot f r).appliedSlots f l = t at rest ⊢
    have first := State.appliedSlot_eq s f r
    generalize s.appliedSlot f r = u at rest first
    generalize u.roles = a at first
    generalize u.lines = b at first
    generalize u.gate.slots = c at first
    subst first
    exact rest

theorem State.appliedSlot_lengths (s : State) (f : Nat → RoleRun → RoleRun) (r : Nat) :
    (s.appliedSlot f r).roles.length = s.roles.length ∧ (s.appliedSlot f r).gate.slots.length = s.gate.slots.length := by
  unfold State.appliedSlot
  split
  · exact ⟨rfl, rfl⟩
  · obtain ⟨roles, -, slots⟩ := s.changedRole_lengths false r (f r (s.role r))
    exact ⟨roles, slots⟩

theorem State.appliedSlot_other {s : State} (f : Nat → RoleRun → RoleRun) {r q : Nat} (h : q ≠ r) (hr : r < s.roles.length)
    (hg : r < s.gate.slots.length) : (s.appliedSlot f r).role q = s.role q ∧ (s.appliedSlot f r).slot q = s.slot q := by
  unfold State.appliedSlot
  split
  · exact ⟨rfl, rfl⟩
  · rw [State.changedRole_role s false _ hr, State.changedRole_slot s false _ hr hg, if_neg h, if_neg h]
    exact ⟨rfl, rfl⟩

theorem State.appliedSlot_local {s t : State} (f : Nat → RoleRun → RoleRun) {r : Nat} (ht : t.tables = s.tables)
    (hrole : t.role r = s.role r) (hslot : t.slot r = s.slot r) (hr : r < s.roles.length) (hg : r < s.gate.slots.length)
    (hr' : r < t.roles.length) (hg' : r < t.gate.slots.length) :
    (t.appliedSlot f r).role r = (s.appliedSlot f r).role r ∧ (t.appliedSlot f r).slot r = (s.appliedSlot f r).slot r := by
  obtain ⟨role, slot⟩ := State.changedRole_local ht hrole hslot false (f r (s.role r))
  unfold State.appliedSlot
  rw [hrole]
  split
  · exact ⟨hrole, hslot⟩
  · rw [State.changedRole_role t false _ hr', State.changedRole_role s false _ hr, State.changedRole_slot t false _ hr' hg',
      State.changedRole_slot s false _ hr hg, if_pos rfl, if_pos rfl, if_pos rfl, if_pos rfl]
    exact ⟨role, slot⟩

/-- Of the roles that change in turn, each ends as if it had changed alone. -/
theorem State.appliedSlots_role (f : Nat → RoleRun → RoleRun) {s : State} (l : List Nat) (nodup : l.Nodup)
    (hr : ∀ r ∈ l, r < s.roles.length) (hg : ∀ r ∈ l, r < s.gate.slots.length) (q : Nat) :
    (q ∈ l → (s.appliedSlots f l).role q = (s.appliedSlot f q).role q ∧
      (s.appliedSlots f l).slot q = (s.appliedSlot f q).slot q) ∧
    (q ∉ l → (s.appliedSlots f l).role q = s.role q ∧ (s.appliedSlots f l).slot q = s.slot q) := by
  induction l generalizing s with
  | nil => exact ⟨fun h => (nomatch h), fun _ => ⟨rfl, rfl⟩⟩
  | cons r l ih =>
    obtain ⟨fresh, nodup⟩ := List.nodup_cons.1 nodup
    obtain ⟨roles, slots⟩ := s.appliedSlot_lengths f r
    have tables : (s.appliedSlot f r).tables = s.tables := by rw [State.appliedSlot_eq]
    have first : r < s.roles.length := hr r (by simp)
    have first' : r < s.gate.slots.length := hg r (by simp)
    obtain ⟨inside, outside⟩ := ih (s := s.appliedSlot f r) nodup (fun p hp => by rw [roles]; exact hr p (by simp [hp]))
      (fun p hp => by rw [slots]; exact hg p (by simp [hp]))
    rw [State.appliedSlots_cons]
    by_cases h : q = r
    · subst h
      exact ⟨fun _ => outside fresh, fun k => absurd (List.mem_cons_self) k⟩
    · obtain ⟨role, slot⟩ := State.appliedSlot_other f h first first'
      refine ⟨fun hq => ?_, fun hq => ?_⟩
      · have hq : q ∈ l := (List.mem_cons.1 hq).resolve_left h
        obtain ⟨a, b⟩ := State.appliedSlot_local f tables role slot (hr q (by simp [hq])) (hg q (by simp [hq]))
          (by rw [roles]; exact hr q (by simp [hq])) (by rw [slots]; exact hg q (by simp [hq]))
        obtain ⟨a', b'⟩ := inside hq
        exact ⟨a'.trans a, b'.trans b⟩
      · obtain ⟨a', b'⟩ := outside fun k => hq (List.mem_cons_of_mem _ k)
        exact ⟨a'.trans role, b'.trans slot⟩

/-- The body of the change of all slots, for one role. -/
def applySlot (f : Nat → RoleRun → RoleRun) (w : Work) (r : Nat) : Work :=
  if f r (w.st.role r) = w.st.role r then w else changeRole false r (f r (w.st.role r)) w

theorem applySlots_foldl (f : Nat → RoleRun → RoleRun) (w : Work) : applySlots f w = (List.range 12).foldl (applySlot f) w := rfl

theorem applySlot_eq (f : Nat → RoleRun → RoleRun) (w : Work) (r : Nat) :
    applySlot f w r = (w.withSt (w.st.appliedSlot f r)).emit (if w.st.movesApplied f r then [.condWalk (.role r)] else []) := by
  have emptied (s : State) : (w.withSt s).emit [] = w.withSt s := by simp [Work.emit, Work.withSt]
  unfold applySlot State.appliedSlot State.movesApplied
  by_cases same : f r (w.st.role r) = w.st.role r
  · rw [if_pos same, if_pos same, if_neg (by simp [same]), emptied]
    rfl
  · rw [if_neg same, if_neg same, changeRole_eq]
    by_cases still : (f r (w.st.role r)).claim.2 = (w.st.role r).applied
    · rw [if_pos still, if_neg (by simp [still]), emptied]
    · rw [if_neg still, if_pos (by simp [still, same])]

theorem foldl_applySlot_eq (f : Nat → RoleRun → RoleRun) (l : List Nat) (nodup : l.Nodup) (w : Work)
    (hr : ∀ r ∈ l, r < w.st.roles.length) (hg : ∀ r ∈ l, r < w.st.gate.slots.length) :
    l.foldl (applySlot f) w =
      (w.withSt (w.st.appliedSlots f l)).emit ((l.filter (w.st.movesApplied f)).map fun r => .condWalk (.role r)) := by
  induction l generalizing w with
  | nil => simp [Work.emit, Work.withSt, State.appliedSlots]
  | cons r l ih =>
    obtain ⟨fresh, nodup⟩ := List.nodup_cons.1 nodup
    obtain ⟨roles, slots⟩ := w.st.appliedSlot_lengths f r
    have moves : l.filter ((w.st.appliedSlot f r).movesApplied f) = l.filter (w.st.movesApplied f) := by
      refine List.filter_congr fun q hq => ?_
      obtain ⟨role, -⟩ := State.appliedSlot_other (s := w.st) f (q := q) (r := r) (fun e => fresh (e ▸ hq)) (hr r (by simp)) (hg r (by simp))
      unfold State.movesApplied
      rw [role]
    rw [List.foldl_cons, applySlot_eq, ih nodup _ (fun p hp => by simpa using roles ▸ hr p (by simp [hp]))
      (fun p hp => by simpa using slots ▸ hg p (by simp [hp])), State.appliedSlots_cons, Work.emit_st, Work.withSt_st, moves]
    cases h : w.st.movesApplied f r with
    | true => simp [Work.emit, Work.withSt, h]
    | false => simp [Work.emit, Work.withSt, h]

/-- What `applySlots` does to the state, and which roles it hands on, lowest first. -/
theorem applySlots_eq (f : Nat → RoleRun → RoleRun) {w : Work} (h : w.st.sized) :
    applySlots f w = (w.withSt (w.st.appliedSlots f (List.range 12))).emit
      (((List.range 12).filter (w.st.movesApplied f)).map fun r => .condWalk (.role r)) := by
  obtain ⟨-, -, -, -, -, roles, -, -, slots, -⟩ := h
  rw [applySlots_foldl]
  exact foldl_applySlot_eq f _ List.nodup_range w (fun r hr => by rw [roles]; exact List.mem_range.1 hr)
    (fun r hr => by rw [slots]; exact List.mem_range.1 hr)

end Sys2Proof.Machine
end

section
/-! SUPPORT. A controller's request on a role: what it does to the role that it may command and to one that is held (R117); and
the rules of R116 in full: O38. -/

namespace Sys2Proof.Machine

/-! ### Claims and refresh -/

theorem refreshAfter_of_low {x : RoleRun} (h : x.owner.refreshed = false) (refresh : Nat) (placed : Bool) (before : Claimant) :
    refreshAfter refresh placed before x = none := by
  unfold refreshAfter
  rw [h]
  rfl

theorem refreshAfter_of_high {x : RoleRun} (h : x.owner.refreshed = true) (refresh : Nat) (placed : Bool) (before : Claimant) :
    refreshAfter refresh placed before x = if placed || !before.refreshed then some (refresh * 10) else x.refresh := by
  unfold refreshAfter
  rw [h]
  rfl

/-- The role's record with a request retained (R117). -/
def RoleRun.requesting (x : RoleRun) (q : Nat) : RoleRun := { x with ctlFilled := true, requested := q }

/-- Whether a claimant above the controller claims the role. -/
def RoleRun.isHeld (x : RoleRun) : Prop :=
  x.limit.isSome = true ∨ x.lockout.isSome = true ∨ x.sequence.isSome = true ∨ x.frost.isSome = true

theorem RoleRun.claim_requesting_free {x : RoleRun} (hl : x.limit = none) (hk : x.lockout = none) (hs : x.sequence = none)
    (hf : x.frost = none) (q : Nat) : (x.requesting q).claim = (.controller, q) := by
  simp [RoleRun.claim, RoleRun.requesting, hl, hk, hs, hf]

theorem RoleRun.claim_requesting_held {x : RoleRun} (h : x.isHeld) (q : Nat) :
    (x.requesting q).claim = x.claim ∧ x.claim.1.refreshed = true := by
  unfold RoleRun.isHeld at h
  unfold RoleRun.claim RoleRun.requesting
  dsimp only
  split
  · exact ⟨rfl, rfl⟩
  · exact ⟨rfl, rfl⟩
  · exact ⟨rfl, rfl⟩
  · exact ⟨rfl, rfl⟩
  · next hl hk hs hf => simp [hl, hk, hs, hf] at h

/-- A request on a held role is retained, and nothing else changes. -/
theorem State.changedRole_held {s : State} (carried : Bool) {r : Nat} (hr : r < s.roles.length) (lawful : (s.role r).lawful)
    (held : (s.role r).isHeld) (q : Nat) :
    s.changedRole carried r ((s.role r).requesting q) = s.setRole r ((s.role r).requesting q) := by
  obtain ⟨claim, high⟩ := RoleRun.claim_requesting_held held q
  unfold RoleRun.lawful at lawful
  have applied : ((s.role r).requesting q).claim.2 = (s.role r).applied := by rw [claim, ← lawful]
  have owner : (s.role r).owner.refreshed = true := by rw [← lawful] at high; exact high
  have same : ((s.role r).requesting q).recompute = (s.role r).requesting q := by
    unfold RoleRun.recompute
    rw [claim, ← lawful]
    rfl
  rw [State.changedRole_same s carried hr applied]
  congr 1
  by_cases field : ∃ n c, (s.tables.role r).target = .field n c
  · obtain ⟨n, c, target⟩ := field
    rw [State.actedRole_of_same s carried applied target, same, refreshAfter_of_high (x := (s.role r).requesting q) owner,
      owner]
    rfl
  · rw [State.actedRole_of_other s carried _ (fun n c e => field ⟨n, c, e⟩), same]

/-! ### The request itself -/

theorem referRole_refused {w : Work} {r : Nat} (carried : Bool) (v : Nat) (h : (w.st.tables.role r).ctlAllowed = false) :
    referRole carried r v w = (.notPermitted r, w) := by
  unfold referRole
  dsimp only
  rw [h]
  rfl

theorem referRole_allowed {w : Work} {r : Nat} (carried : Bool) (v : Nat) (h : (w.st.tables.role r).ctlAllowed = true) :
    referRole carried r v w =
      (if ((w.st.role r).requesting (clampRequest (w.st.tables.role r) v)).claim.1 = .controller then
          .forward r (clampRequest (w.st.tables.role r) v) else .held r,
        changeRole carried r ((w.st.role r).requesting (clampRequest (w.st.tables.role r) v)) w) := by
  unfold referRole
  dsimp only
  rw [if_pos h]
  split
  · next k => exact Prod.ext (if_pos k).symm rfl
  · next k => exact Prod.ext (if_neg k).symm rfl

theorem doSetRole_of_normal {dst : Byte} {r v : Nat} {w : Work} (h : w.st.phase = .normal) :
    doSetRole dst r v w = ((referRole false r v w).1.place (referRole false r v w).2).answer dst (referRole false r v w).1.result :=
  if_neg (by rw [h]; decide)

/-- The state after an applied request on role `r`: its claims, and a substitution in any case (R117, log 20). -/
def State.requested (s : State) (r q : Nat) : State := (s.changedRole false r ((s.role r).requesting q)).placeSub r q

theorem State.placeSub_eq (s : State) (r v : Nat) :
    s.placeSub r v = { s with gate := { s.gate with slots := (s.placeSub r v).gate.slots } } := by
  unfold State.placeSub
  split <;> rfl

theorem State.placeSub_other {s : State} {r : Nat} (h : ∀ n c, (s.tables.role r).target ≠ .field n c) (v : Nat) :
    s.placeSub r v = s := by
  unfold State.placeSub
  split
  · next n c e => exact absurd e (h n c)
  · rfl

theorem State.requested_eq (s : State) (r q : Nat) : s.requested r q = { s with
      roles := (s.requested r q).roles, lines := (s.requested r q).lines
      gate := { s.gate with slots := (s.requested r q).gate.slots } } := by
  unfold State.requested
  rw [State.placeSub_eq]
  generalize ((s.changedRole false r ((s.role r).requesting q)).placeSub r q).gate.slots = slots
  have e := State.changedRole_eq s false r ((s.role r).requesting q)
  generalize s.changedRole false r ((s.role r).requesting q) = t at e ⊢
  generalize t.roles = a at e
  generalize t.lines = b at e
  generalize t.gate.slots = c at e
  subst e
  rfl

theorem State.requested_role {s : State} {r : Nat} (hr : r < s.roles.length) (q k : Nat) :
    (s.requested r q).role k = if k = r then s.actedRole false r ((s.role r).requesting q) else s.role k := by
  have placed : (s.requested r q).role k = (s.changedRole false r ((s.role r).requesting q)).role k := by
    unfold State.requested
    rw [State.placeSub_eq]
    rfl
  rw [placed, State.changedRole_role s false _ hr]

theorem State.changedRole_tables (s : State) (carried : Bool) (r : Nat) (x : RoleRun) :
    (s.changedRole carried r x).tables = s.tables := by rw [State.changedRole_eq]

theorem State.requested_field {s : State} {r n c : Nat} (hr : r < s.roles.length) (hg : r < s.gate.slots.length)
    (h : (s.tables.role r).target = .field n c) (q : Nat) :
    (s.requested r q).slot r = some { node := n, channel := c, last := some q, pending := true, newer := true } ∧
      (s.requested r q).lines = s.lines := by
  obtain ⟨-, -, slots⟩ := s.changedRole_lengths false r ((s.role r).requesting q)
  have lines : (s.changedRole false r ((s.role r).requesting q)).lines = s.lines := by
    by_cases same : ((s.role r).requesting q).claim.2 = (s.role r).applied
    · rw [State.changedRole_same s false hr same]; rfl
    · rw [State.changedRole_field s false hr same h]; rfl
  unfold State.requested
  rw [placeSub_field (s := s.changedRole false r _) (by rw [State.changedRole_tables]; exact h)]
  exact ⟨(State.slot_setSlot (by rw [slots]; exact hg) _ r).trans (if_pos rfl), lines⟩

theorem State.requested_line {s : State} {r l : Nat} (hr : r < s.roles.length) (h : (s.tables.role r).target = .line l) {q : Nat}
    (free : ((s.role r).requesting q).claim.2 = q) :
    (s.requested r q).gate = s.gate ∧ (s.requested r q).lines =
      if (s.role r).applied = q then s.lines else s.lines.set l ((s.line l).command (q != 0)) := by
  unfold State.requested
  rw [State.placeSub_other (by rw [State.changedRole_tables, h]; exact fun n c e => nomatch e)]
  by_cases same : ((s.role r).requesting q).claim.2 = (s.role r).applied
  · rw [State.changedRole_same s false hr same, if_pos (by rw [← same, free])]
    exact ⟨rfl, rfl⟩
  · rw [State.changedRole_line s false hr same h, if_neg (fun k => same (by rw [free, k])), free]
    exact ⟨rfl, rfl⟩

theorem State.requested_untargeted {s : State} {r : Nat} (hr : r < s.roles.length) (h : (s.tables.role r).target = .none) (q : Nat) :
    (s.requested r q).gate = s.gate ∧ (s.requested r q).lines = s.lines := by
  unfold State.requested
  rw [State.placeSub_other (by rw [State.changedRole_tables, h]; exact fun n c e => nomatch e)]
  by_cases same : ((s.role r).requesting q).claim.2 = (s.role r).applied
  · rw [State.changedRole_same s false hr same]
    exact ⟨rfl, rfl⟩
  · rw [State.changedRole_untargeted s false hr same h]
    exact ⟨rfl, rfl⟩

/-- The role's record under the controller (R117). -/
def RoleRun.commanded (x : RoleRun) (q : Nat) : RoleRun :=
  { x with ctlFilled := true, requested := q, applied := q, owner := .controller }

theorem RoleRun.recompute_requesting {x : RoleRun} {q : Nat} (free : (x.requesting q).claim = (.controller, q)) :
    (x.requesting q).recompute = x.commanded q := by
  unfold RoleRun.recompute
  rw [free]
  rfl

theorem State.actedRole_free {s : State} {r q : Nat} (carried : Bool)
    (free : ((s.role r).requesting q).claim = (.controller, q)) :
    (∀ n c, (s.tables.role r).target = .field n c →
      ((s.role r).applied = q → s.actedRole carried r ((s.role r).requesting q) = { (s.role r).commanded q with refresh := none }) ∧
      ((s.role r).applied ≠ q → s.actedRole carried r ((s.role r).requesting q) = { (s.role r).commanded q with
        actual := none, since := false, confirm := some ((s.tables.role r).confirmWindow * 10), refresh := none })) ∧
    ((∀ n c, (s.tables.role r).target ≠ .field n c) →
      s.actedRole carried r ((s.role r).requesting q) = (s.role r).commanded q) := by
  have recomputed := RoleRun.recompute_requesting free
  have applied : ((s.role r).requesting q).claim.2 = q := by rw [free]
  refine ⟨fun n c target => ⟨fun same => ?_, fun moved => ?_⟩, fun other => ?_⟩
  · rw [State.actedRole_of_same s carried (by rw [applied, same]) target, recomputed, refreshAfter_of_low (by rfl)]
  · rw [State.actedRole_of_moved s carried (by rw [applied]; exact moved.symm) target, recomputed, refreshAfter_of_low (by rfl)]
    rfl
  · rw [State.actedRole_of_other s carried _ other, recomputed]

/-- What an applied request hands on, and nothing when the applied value stands. -/
theorem doSetRole_free {s : State} (hn : s.phase = .normal) {r : Nat} {dst : Byte} {v : Nat}
    (allowed : (s.tables.role r).ctlAllowed = true) {q : Nat} (hq : clampRequest (s.tables.role r) v = q)
    (free : ((s.role r).requesting q).claim = (.controller, q)) :
    doSetRole dst r v (Work.idle s) = ((Work.idle s).withSt ((s.requested r q).reply dst .applied)).emit
      (if (s.role r).applied = q then [] else [.condWalk (.role r)]) := by
  rw [doSetRole_of_normal (by exact hn), referRole_allowed false v (by exact allowed), Work.idle_st, hq, free]
  dsimp only
  rw [if_pos rfl, changeRole_eq, Work.idle_st, free]
  by_cases same : (s.role r).applied = q
  · rw [if_pos same.symm, if_pos same]
    rfl
  · rw [if_neg fun k => same k.symm, if_neg same]
    rfl

/-- What a walk makes of the conditions, said of the state after it. -/
theorem conds_of_walked {t u : State} {i : CondInput} (h : u = t.walked i) :
    u.conds = (walk i { u with conds := t.conds } []).1.conds := by
  have e := State.walked_eq t i
  rw [← h] at e
  have back : { u with conds := t.conds } = t := by
    generalize u.conds = c at e
    subst e
    rfl
  rw [back, h]
  unfold State.walked
  rfl

/-- The state after an applied request, answered, and what it hands on taken. -/
def State.answeredRequest (s : State) (dst : Byte) (r q : Nat) : State :=
  if (s.role r).applied = q then (s.requested r q).reply dst .applied
  else ((s.requested r q).reply dst .applied).walked (.role r)

theorem finish_setRole_free {s : State} (hn : s.phase = .normal) (hu : s.unheeded) {r : Nat} {dst : Byte} {v : Nat}
    (allowed : (s.tables.role r).ctlAllowed = true) {q : Nat} (hq : clampRequest (s.tables.role r) v = q)
    (free : ((s.role r).requesting q).claim = (.controller, q)) :
    finish (doSetRole dst r v (Work.idle s)) = .next (s.answeredRequest dst r q).arbitrate := by
  have unheeded : ((s.requested r q).reply dst .applied).unheeded := unheeded_of_eq hu (by rw [State.requested_eq]; rfl)
    (by rw [State.requested_eq]; rfl)
  have normal : ((s.requested r q).reply dst .applied).phase = .normal := by rw [State.requested_eq]; exact hn
  rw [doSetRole_free hn allowed hq free]
  unfold State.answeredRequest
  split
  · exact finish_condWalks (rs := []) normal unheeded rfl rfl rfl rfl (fun _ hi => nomatch hi) (Nat.zero_le _)
  · exact finish_condWalks (rs := [.role r]) normal unheeded rfl rfl rfl rfl
      (fun i hi c => by cases List.mem_singleton.1 hi; exact fun k => nomatch k) (by simp)

theorem doSetRole_held {s : State} (hn : s.phase = .normal) {r : Nat} (hr : r < s.roles.length) {dst : Byte} {v : Nat}
    (allowed : (s.tables.role r).ctlAllowed = true) (lawful : (s.role r).lawful) (held : (s.role r).isHeld) :
    doSetRole dst r v (Work.idle s) =
      (Work.idle s).withSt ((s.setRole r ((s.role r).requesting (clampRequest (s.tables.role r) v))).reply dst .held) := by
  obtain ⟨claim, high⟩ := RoleRun.claim_requesting_held held (clampRequest (s.tables.role r) v)
  have applied : (s.role r).claim.2 = (s.role r).applied := by unfold RoleRun.lawful at lawful; rw [← lawful]
  have above : ¬ (s.role r).claim.1 = .controller := fun k => by rw [k] at high; cases high
  rw [doSetRole_of_normal (by exact hn), referRole_allowed false v (by exact allowed), Work.idle_st, claim]
  dsimp only
  rw [if_neg above, changeRole_eq, Work.idle_st, claim, if_pos applied, State.changedRole_held false hr lawful held]
  rfl

end Sys2Proof.Machine
end

section
/-! SUPPORT. The rules of R116 as O38 states them. -/

namespace Sys2Proof.Machine

theorem clampRequest_eq {e : RoleEntry} (h : e.ctlMin ≤ e.ctlMax) (v : Nat) :
    min (max v e.ctlMin) e.ctlMax = if v < e.ctlMin then e.ctlMin else if e.ctlMax < v then e.ctlMax else v := by
  split
  · omega
  · split <;> omega

theorem clampRequest_level {e : RoleEntry} (hk : e.kind = .level) (v : Nat) : clampRequest e v = min (max v e.ctlMin) e.ctlMax := by
  unfold clampRequest
  rw [hk]

theorem clampRequest_switched {e : RoleEntry} (hk : e.kind = .switched) (v : Nat) :
    clampRequest e v = if min (max v e.ctlMin) e.ctlMax = 0 then 0 else 1000 := by
  unfold clampRequest
  rw [hk]

theorem RoleRun.claim_rows (x : RoleRun) (v : Nat) :
    (x.limit = some v → x.claim = (.limit, v)) ∧
    (x.limit = none → x.lockout = some v → x.claim = (.lockout, v)) ∧
    (x.limit = none → x.lockout = none → x.sequence = some v → x.claim = (.sequence, v)) ∧
    (x.limit = none → x.lockout = none → x.sequence = none → x.frost = some v → x.claim = (.frost, v)) ∧
    (x.limit = none → x.lockout = none → x.sequence = none → x.frost = none →
      (x.ctlFilled = true → x.claim = (.controller, x.requested)) ∧ (x.ctlFilled = false → x.claim = (.default, 0))) := by
  unfold RoleRun.claim
  refine ⟨fun hl => ?_, fun hl hk => ?_, fun hl hk hs => ?_, fun hl hk hs hf => ?_, fun hl hk hs hf => ⟨fun h => ?_, fun h => ?_⟩⟩
  · simp only [hl]
  · simp only [hl, hk]
  · simp only [hl, hk, hs]
  · simp only [hl, hk, hs, hf]
  · simp only [hl, hk, hs, hf, h, if_true]
  · simp only [hl, hk, hs, hf, h]
    rfl

theorem State.changedRole_frame {s : State} (carried : Bool) {r : Nat} (hr : r < s.roles.length) (x : RoleRun) :
    s.changedRole carried r x = { s with
      roles := s.roles.set r (s.actedRole carried r x), lines := (s.changedRole carried r x).lines
      gate := { s.gate with slots := (s.changedRole carried r x).gate.slots } } := by
  have e := State.changedRole_eq s carried r x
  rw [State.changedRole_roles s carried x hr] at e
  exact e

/-- The record of a role whose claims have become those of `x`: owner and applied value, and for the rest only what the target
decides. -/
theorem State.actedRole_record (s : State) (carried : Bool) (r : Nat) (x : RoleRun) :
    s.actedRole carried r x = { x with
      owner := x.claim.1, applied := x.claim.2, actual := (s.actedRole carried r x).actual
      since := (s.actedRole carried r x).since, confirm := (s.actedRole carried r x).confirm
      refresh := (s.actedRole carried r x).refresh } := by
  unfold State.actedRole
  split
  · split <;> rfl
  · split <;> rfl

theorem State.changedRole_same_outside {s : State} (carried : Bool) {r : Nat} (hr : r < s.roles.length) {x : RoleRun}
    (h : x.claim.2 = (s.role r).applied) :
    (s.changedRole carried r x).lines = s.lines ∧ (s.changedRole carried r x).gate = s.gate := by
  rw [State.changedRole_same s carried hr h]
  exact ⟨rfl, rfl⟩

theorem State.changedRole_gate_of_other {s : State} (carried : Bool) {r : Nat} (hr : r < s.roles.length) (x : RoleRun)
    (h : ∀ n c, (s.tables.role r).target ≠ .field n c) : (s.changedRole carried r x).gate = s.gate := by
  by_cases same : x.claim.2 = (s.role r).applied
  · exact (State.changedRole_same_outside carried hr same).2
  · cases ht : (s.tables.role r).target with
    | none => rw [State.changedRole_untargeted s carried hr same ht]; rfl
    | line l => rw [State.changedRole_line s carried hr same ht]; rfl
    | field n c => exact absurd ht (h n c)

theorem State.changedRole_lines_of_other {s : State} (carried : Bool) {r : Nat} (hr : r < s.roles.length) (x : RoleRun)
    (h : ∀ l, (s.tables.role r).target ≠ .line l) : (s.changedRole carried r x).lines = s.lines := by
  by_cases same : x.claim.2 = (s.role r).applied
  · exact (State.changedRole_same_outside carried hr same).1
  · cases ht : (s.tables.role r).target with
    | none => rw [State.changedRole_untargeted s carried hr same ht]; rfl
    | line l => exact absurd ht (h l)
    | field n c =>
      rw [State.changedRole_field s carried hr same ht]
      split <;> rfl

theorem State.line_of_lines {s t : State} {l : Nat} {x : LineRun} (hl : l < s.lines.length) (h : t.lines = s.lines.set l x) :
    t.line l = x ∧ ∀ k, k ≠ l → t.line k = s.line k := by
  unfold State.line
  rw [h]
  refine ⟨(getD_set _ _ _ _ _).trans (if_pos ⟨rfl, hl⟩), fun k hk => (getD_set _ _ _ _ _).trans (if_neg fun e => hk e.1.symm)⟩

theorem LineRun.command_same {x : LineRun} {on : Bool} (h : x.commanded = on) : x.command on = x := if_pos h

theorem LineRun.command_other {x : LineRun} {on : Bool} (h : x.commanded ≠ on) :
    x.command on = { x with commanded := on, settle := some 2 } := if_neg h

theorem refreshAfter_rows {x : RoleRun} (refresh : Nat) (placed : Bool) (before : Claimant) :
    (x.owner.refreshed = false → refreshAfter refresh placed before x = none) ∧
    (x.owner.refreshed = true → placed = true ∨ before.refreshed = false →
      refreshAfter refresh placed before x = some (refresh * 10)) ∧
    (x.owner.refreshed = true → placed = false → before.refreshed = true → refreshAfter refresh placed before x = x.refresh) := by
  refine ⟨fun low => refreshAfter_of_low low _ _ _, fun high h => ?_, fun high still above => ?_⟩
  · rw [refreshAfter_of_high high]
    rcases h with h | h <;> simp [h]
  · rw [refreshAfter_of_high high, still, above]
    rfl

/-- A change of owner alone: it decides refresh, and nothing else of the record (R122). -/
theorem State.actedRole_same_rules (s : State) (carried : Bool) {r : Nat} {x : RoleRun} (h : x.claim.2 = (s.role r).applied) :
    (s.actedRole carried r x).actual = x.actual ∧ (s.actedRole carried r x).since = x.since ∧
      (s.actedRole carried r x).confirm = x.confirm ∧
      ∀ n c, (s.tables.role r).target = .field n c →
        (x.claim.1.refreshed = false → (s.actedRole carried r x).refresh = none) ∧
        (x.claim.1.refreshed = true → (s.role r).owner.refreshed = true → (s.actedRole carried r x).refresh = x.refresh) ∧
        (x.claim.1.refreshed = true → (s.role r).owner.refreshed = false →
          (s.actedRole carried r x).refresh = some (s.tables.device.refresh * 10)) := by
  by_cases field : ∃ n c, (s.tables.role r).target = .field n c
  · obtain ⟨n, c, target⟩ := field
    obtain ⟨low, started, runs⟩ := refreshAfter_rows (x := x.recompute) s.tables.device.refresh false (s.role r).owner
    rw [State.actedRole_of_same s carried h target]
    exact ⟨rfl, rfl, rfl, fun _ _ _ => ⟨low, fun high before => runs high rfl before, fun high before => started high (.inr before)⟩⟩
  · have other : ∀ n c, (s.tables.role r).target ≠ .field n c := fun n c e => field ⟨n, c, e⟩
    rw [State.actedRole_of_other s carried x other]
    exact ⟨rfl, rfl, rfl, fun n c e => absurd e (other n c)⟩

/-- A moved applied value restarts the confirmation of a field role, and starts its refresh with the placement (R122, R124). -/
theorem State.actedRole_moved_rules (s : State) (carried : Bool) {r n c : Nat} {x : RoleRun} (h : x.claim.2 ≠ (s.role r).applied)
    (ht : (s.tables.role r).target = .field n c) :
    (s.actedRole carried r x).actual = none ∧ (s.actedRole carried r x).since = false ∧
      (s.actedRole carried r x).confirm = some ((s.tables.role r).confirmWindow * 10) ∧
      (x.claim.1.refreshed = false → (s.actedRole carried r x).refresh = none) ∧
      (x.claim.1.refreshed = true → carried = false ∨ (s.role r).owner.refreshed = false →
        (s.actedRole carried r x).refresh = some (s.tables.device.refresh * 10)) ∧
      (x.claim.1.refreshed = true → carried = true → (s.role r).owner.refreshed = true →
        (s.actedRole carried r x).refresh = x.refresh) := by
  obtain ⟨low, started, runs⟩ := refreshAfter_rows (x := x.recompute.restart (s.tables.role r).confirmWindow)
    s.tables.device.refresh (!carried) (s.role r).owner
  rw [State.actedRole_of_moved s carried h ht]
  exact ⟨rfl, rfl, rfl, low, fun high h => started high (h.imp (fun c => by rw [c]; rfl) id),
    fun high c before => runs high (by rw [c]; rfl) before⟩

theorem State.changedRole_moved_slots {s : State} (carried : Bool) {r n c : Nat} (hr : r < s.roles.length)
    (hg : r < s.gate.slots.length) {x : RoleRun} (h : x.claim.2 ≠ (s.role r).applied)
    (ht : (s.tables.role r).target = .field n c) :
    (∀ k, k ≠ r → (s.changedRole carried r x).slot k = s.slot k) ∧
      (carried = true → (s.changedRole carried r x).slot r = s.slot r) ∧
      (carried = false → (s.changedRole carried r x).slot r =
        some { node := n, channel := c, last := some x.claim.2, pending := true, newer := true }) := by
  have slot (k : Nat) := State.changedRole_slot s carried x hr hg k
  have acted : s.actedSlot carried r x = if carried then s.slot r else some (placedSlot n c x.claim.2) := by
    unfold State.actedSlot
    rw [if_neg h, ht]
  refine ⟨fun k other => (slot k).trans (if_neg other), fun c => ?_, fun c => ?_⟩
  · rw [slot, if_pos rfl, acted, c]
    rfl
  · rw [slot, if_pos rfl, acted, c]
    rfl

theorem State.changedRole_moved_lines {s : State} (carried : Bool) {r l : Nat} (hr : r < s.roles.length) (hl : l < s.lines.length)
    {x : RoleRun} (h : x.claim.2 ≠ (s.role r).applied) (ht : (s.tables.role r).target = .line l) :
    (∀ k, k ≠ l → (s.changedRole carried r x).line k = s.line k) ∧
      ((s.line l).commanded = (x.claim.2 != 0) → (s.changedRole carried r x).line l = s.line l) ∧
      ((s.line l).commanded ≠ (x.claim.2 != 0) →
        (s.changedRole carried r x).line l = { s.line l with commanded := x.claim.2 != 0, settle := some 2 }) := by
  have lines : (s.changedRole carried r x).lines = s.lines.set l ((s.line l).command (x.claim.2 != 0)) := by
    rw [State.changedRole_line s carried hr h ht]
    rfl
  obtain ⟨own, others⟩ := State.line_of_lines hl lines
  exact ⟨others, fun h => by rw [own, LineRun.command_same h], fun h => by rw [own, LineRun.command_other h]⟩

theorem State.appliedSlots_alone {s : State} (sized : s.sized) (f : Nat → RoleRun → RoleRun) {r : Nat} (hr : r < 12) :
    (f r (s.role r) = s.role r → (s.appliedSlots f (List.range 12)).role r = s.role r ∧
      (s.appliedSlots f (List.range 12)).slot r = s.slot r) ∧
    (f r (s.role r) ≠ s.role r →
      (s.appliedSlots f (List.range 12)).role r = (s.changedRole false r (f r (s.role r))).role r ∧
      (s.appliedSlots f (List.range 12)).slot r = (s.changedRole false r (f r (s.role r))).slot r) := by
  obtain ⟨-, -, -, -, -, roles, -, -, slots, -⟩ := sized
  obtain ⟨inside, -⟩ := State.appliedSlots_role f (s := s) (List.range 12) List.nodup_range
    (fun r hr => by rw [roles]; exact List.mem_range.1 hr) (fun r hr => by rw [slots]; exact List.mem_range.1 hr) r
  obtain ⟨role, slot⟩ := inside (List.mem_range.2 hr)
  rw [role, slot]
  unfold State.appliedSlot
  exact ⟨fun same => by rw [if_pos same]; exact ⟨rfl, rfl⟩, fun changed => by rw [if_neg changed]; exact ⟨rfl, rfl⟩⟩

/-! ### SET ROLE -/

theorem exec_setRole {s : State} {src role : Byte} {v : Word} (h : s.manages src) (hc : s.committing = false) (hr : role.toNat < 12) :
    exec (.setRole src role v) s = finish (doSetRole src role.toNat v.toNat (Work.idle (s.heardFrom src))) := by
  have read : readRequest 9 (role :: u16 v.toNat) = some (.setRole role.toNat v.toNat) := by
    have e : readRequest 9 (role :: u16 v.toNat) =
      (readIndex 12 role).map fun r => .setRole r (n16 (u8 (v.toNat / 256)) (u8 v.toNat)) := rfl
    rw [e, n16_u16 v.toNat v.isLt, readIndex, if_pos hr]
    rfl
  exact request_performed h (by omega) (by simp [u16]) read (.inl hc)

theorem State.answeredRequest_eq (s : State) (dst : Byte) (r q : Nat) :
    s.answeredRequest dst r q = { (s.requested r q).reply dst .applied with conds := (s.answeredRequest dst r q).conds } := by
  unfold State.answeredRequest
  split
  · rfl
  · exact State.walked_eq _ _

theorem answeredRequest_conds {s u : State} {dst : Byte} {r q : Nat} (h : u = s.answeredRequest dst r q) :
    ((s.role r).applied = q → u.conds = s.conds) ∧
    ((s.role r).applied ≠ q → u.conds = (walk (.role r) { u with conds := s.conds } []).1.conds) := by
  have conds : ((s.requested r q).reply dst .applied).conds = s.conds := by rw [State.requested_eq]; rfl
  unfold State.answeredRequest at h
  refine ⟨fun same => ?_, fun moved => ?_⟩
  · rw [h, if_pos same, conds]
  · rw [if_neg moved] at h
    have e := conds_of_walked h
    rw [conds] at e
    exact e

/-- What stands after an applied request: the role, its slot or its line, and nothing else but the reply and the conditions. -/
theorem State.answeredRequest_same (s : State) (dst : Byte) (r q : Nat) :
    (s.answeredRequest dst r q).roles = (s.requested r q).roles ∧ (s.answeredRequest dst r q).lines = (s.requested r q).lines ∧
      (s.answeredRequest dst r q).gate.slots = (s.requested r q).gate.slots ∧
      (s.answeredRequest dst r q).gate.reply = (s.reply dst .applied).gate.reply ∧
      (s.answeredRequest dst r q).seq = s.seq ∧ (s.answeredRequest dst r q).points = s.points ∧
      (s.answeredRequest dst r q).circuits = s.circuits ∧ (s.answeredRequest dst r q).fault = s.fault ∧
      (s.answeredRequest dst r q).store = s.store := by
  rw [State.answeredRequest_eq]
  refine ⟨rfl, rfl, rfl, ?_, ?_, ?_, ?_, ?_, ?_⟩
  all_goals rw [State.requested_eq]; rfl

theorem State.requested_line_rows {s : State} {r l : Nat} (hr : r < s.roles.length) (hl : l < s.lines.length)
    (h : (s.tables.role r).target = .line l) {q : Nat} (free : ((s.role r).requesting q).claim = (.controller, q)) :
    (∀ k, k ≠ l → (s.requested r q).line k = s.line k) ∧
      (s.requested r q).line l = if (s.role r).applied = q ∨ (s.line l).commanded = (q != 0) then s.line l
        else { s.line l with commanded := q != 0, settle := some 2 } := by
  obtain ⟨-, lines⟩ := State.requested_line hr h (by rw [free])
  by_cases same : (s.role r).applied = q
  · rw [if_pos same] at lines
    rw [if_pos (.inl same)]
    unfold State.line
    rw [lines]
    exact ⟨fun _ _ => rfl, rfl⟩
  · rw [if_neg same] at lines
    obtain ⟨own, others⟩ := State.line_of_lines hl lines
    refine ⟨others, own.trans ?_⟩
    by_cases on : (s.line l).commanded = (q != 0)
    · rw [if_pos (.inr on), LineRun.command_same on]
    · rw [if_neg (not_or.2 ⟨same, on⟩), LineRun.command_other on]

theorem State.heardFrom_same (s : State) (src : Byte) :
    (s.heardFrom src).roles = s.roles ∧ (s.heardFrom src).lines = s.lines ∧ (s.heardFrom src).gate.slots = s.gate.slots ∧
      (s.heardFrom src).seq = s.seq ∧ (s.heardFrom src).points = s.points ∧ (s.heardFrom src).circuits = s.circuits ∧
      (s.heardFrom src).fault = s.fault ∧ (s.heardFrom src).store = s.store ∧ (s.heardFrom src).tables = s.tables ∧
      (s.heardFrom src).phase = s.phase ∧ (s.heardFrom src).conds = s.conds := by
  rw [State.heardFrom_eq]
  exact ⟨rfl, rfl, rfl, rfl, rfl, rfl, rfl, rfl, rfl, rfl, rfl⟩

end Sys2Proof.Machine

section
open Sys2Proof Sys2Proof.Machine

/-- Settles O38: SET ROLE by the answer of the Output Unit; the change of one role's claims by its target; one change of all
roles' slots role by role. -/
theorem setRoleAnswered : Obligations.SetRoleAnswered := by
  unfold Obligations.SetRoleAnswered
  refine ⟨fun s src role v hm hc hr => ?_, fun e v h => ⟨fun hk => ?_, fun hk => ⟨fun zero => ?_, fun some => ?_⟩⟩,
    RoleRun.claim_rows, fun carried r x w sized hr => ?_, fun f w sized => ?_, fun w hn => ⟨?_, ?_, ?_⟩⟩
  · have free (hl : (s.role role.toNat).limit = none) (hk : (s.role role.toNat).lockout = none)
        (hs : (s.role role.toNat).sequence = none) (hf : (s.role role.toNat).frost = none) (q : Nat) :
        ((s.role role.toNat).requesting q).claim = (.controller, q) := RoleRun.claim_requesting_free hl hk hs hf q
    obtain ⟨hroles, hlines, hslots, hseq, hpoints, hcircuits, hfault, hstore, htables, hphase, hconds⟩ := s.heardFrom_same src
    have hrole : (s.heardFrom src).role = s.role := by unfold State.role; rw [hroles]
    have hline : (s.heardFrom src).line = s.line := by unfold State.line; rw [hlines]
    rw [exec_setRole hm hc hr]
    refine ⟨fun hn sized hu allowed hl hk hs hf => ?_, fun hn sized hu applied allowed held => ?_, fun hn refused => ?_, fun hn => ?_⟩
    · obtain ⟨-, -, -, -, -, roles, lines, -, slots, -⟩ := sized
      generalize hq : clampRequest (s.tables.role role.toNat) v.toNat = q
      have free := free hl hk hs hf q
      have hfree : (((s.heardFrom src).role role.toNat).requesting q).claim = (.controller, q) := by rw [hrole]; exact free
      obtain ⟨uroles, ulines, uslots, ureply, useq, upoints, ucircuits, ufault, ustore⟩ :=
        (s.heardFrom src).answeredRequest_same src role.toNat q
      obtain ⟨still, moved⟩ := answeredRequest_conds (s := s.heardFrom src) (dst := src) (r := role.toNat) (q := q) rfl
      obtain ⟨field, other⟩ := State.actedRole_free (s := s.heardFrom src) false hfree
      have hr' : role.toNat < (s.heardFrom src).roles.length := by rw [hroles]; omega
      have urole (k : Nat) : ((s.heardFrom src).answeredRequest src role.toNat q).role k =
          if k = role.toNat then (s.heardFrom src).actedRole false role.toNat (((s.heardFrom src).role role.toNat).requesting q)
          else s.role k := by
        rw [← hrole, ← State.requested_role hr']
        unfold State.role
        rw [uroles]
      rw [hrole, htables] at field other
      rw [hrole, hconds] at still moved
      refine ⟨_, finish_setRole_free (hphase.trans hn) (unheeded_of_eq hu htables hseq) (by rw [htables]; exact allowed)
        (by rw [htables]; exact hq) hfree, ureply, ⟨fun n c target => ?_, fun l target hl => ?_, fun target => ?_, still, moved⟩,
        fun k hk => (urole k).trans (if_neg hk), useq.trans hseq, upoints.trans hpoints, ucircuits.trans hcircuits,
        ufault.trans hfault, ustore.trans hstore⟩
      · obtain ⟨slot, line⟩ := State.requested_field hr' (by rw [hslots]; omega) (by rw [htables]; exact target) q
        obtain ⟨same, changed⟩ := field n c target
        rw [urole, if_pos rfl, hrole]
        exact ⟨by unfold State.slot at slot ⊢; rw [uslots]; exact slot, (ulines.trans line).trans hlines, same, changed⟩
      · have target' : ((s.heardFrom src).tables.role role.toNat).target = .line l := by rw [htables]; exact target
        obtain ⟨others, own⟩ := State.requested_line_rows hr' (by rw [hlines]; omega) target' hfree
        have uline : ((s.heardFrom src).answeredRequest src role.toNat q).line = ((s.heardFrom src).requested role.toNat q).line := by
          unfold State.line; rw [ulines]
        rw [urole, if_pos rfl, hrole, uline]
        rw [hline, hrole] at own
        rw [hline] at others
        exact ⟨other (fun n c e => by rw [target] at e; cases e), by
          rw [uslots, (State.requested_line hr' target' (by rw [hfree])).1, hslots], others, own⟩
      · have target' : ((s.heardFrom src).tables.role role.toNat).target = .none := by rw [htables]; exact target
        obtain ⟨gate, line⟩ := State.requested_untargeted hr' target' q
        rw [urole, if_pos rfl, hrole]
        exact ⟨other (fun n c e => by rw [target] at e; cases e), (ulines.trans line).trans hlines, by rw [uslots, gate, hslots]⟩
    · obtain ⟨-, -, -, -, -, roles, -⟩ := sized
      have hr' : role.toNat < (s.heardFrom src).roles.length := by rw [hroles]; omega
      rw [doSetRole_held (hphase.trans hn) hr' (by rw [htables]; exact allowed) (by rw [hrole]; exact State.role_lawful applied _)
        (by rw [hrole]; exact held), hrole, htables]
      refine ⟨_, finish_idle rfl, rfl, ?_, fun k hk => ?_, hlines, hslots, hseq, hconds, hfault, hstore⟩
      · exact State.role_setRole_self hr' _
      · refine Eq.trans (getD_set _ _ _ _ _) ((if_neg fun e => hk e.1.symm).trans ?_)
        exact congrFun hrole k
    · rw [doSetRole_of_normal (by exact hphase.trans hn), referRole_refused false _ (by rw [Work.idle_st, htables]; exact refused)]
      exact finish_idle rfl
    · have answered : doSetRole src role.toNat v.toNat (Work.idle (s.heardFrom src)) =
          (Work.idle (s.heardFrom src)).answer src (refusedFor reasonNotInUse) := if_pos (hphase.trans hn)
      rw [answered]
      exact finish_idle_answer _ _ _
  · rw [clampRequest_level hk, clampRequest_eq h]
  · rw [clampRequest_switched hk, clampRequest_eq h, if_pos zero]
  · rw [clampRequest_switched hk, clampRequest_eq h, if_neg some]
  · obtain ⟨-, -, -, -, -, roles, lines, -, slots, -⟩ := sized
    have hr' : r < w.st.roles.length := by omega
    have above (o : Claimant) : (o = .limit ∨ o = .lockout ∨ o = .sequence ∨ o = .frost) ↔ o.refreshed = true :=
      (refreshed_iff o).symm
    have owner : (w.st.actedRole carried r x).owner = x.claim.1 := by rw [State.actedRole_record]
    have applied := w.st.actedRole_applied carried r x
    dsimp only
    rw [changeRole_st, State.changedRole_role _ carried x hr', if_pos rfl]
    simp only [above, Bool.not_eq_true, owner, applied]
    refine ⟨State.changedRole_frame carried hr' x, State.actedRole_record _ _ _ _, fun other => ?_,
      State.changedRole_lines_of_other carried hr' x, fun same => ?_, fun moved => ⟨by rw [changeRole_eq, if_neg moved], ?_,
        fun l target hl => State.changedRole_moved_lines carried hr' (by omega) moved target⟩⟩
    · rw [State.actedRole_of_other _ carried x other]
      exact ⟨rfl, rfl, rfl, rfl, State.changedRole_gate_of_other carried hr' x other⟩
    · obtain ⟨sameLines, sameGate⟩ := State.changedRole_same_outside carried hr' same
      exact ⟨by rw [changeRole_eq, if_pos same], sameLines, sameGate, State.actedRole_same_rules _ carried same⟩
    · intro n c target
      obtain ⟨actual, since, confirm, low, started, runs⟩ := State.actedRole_moved_rules _ carried moved target
      obtain ⟨others, carries, places⟩ := State.changedRole_moved_slots carried hr' (show r < w.st.gate.slots.length by omega) moved target
      exact ⟨actual, since, confirm, others, carries, places, low, started, runs⟩
  · have done : (applySlots f w).st = w.st.appliedSlots f (List.range 12) := by
      rw [applySlots_eq f sized, Work.emit_st, Work.withSt_st]
    dsimp only
    rw [done]
    refine ⟨State.appliedSlots_eq _ f _, fun r hr => ?_, (List.range 12).filter (w.st.movesApplied f),
      List.pairwise_lt_range.filter _, fun r => ?_, ?_⟩
    · rw [changeRole_st]
      exact State.appliedSlots_alone sized f hr
    · rw [List.mem_filter, List.mem_range]
      simp only [State.movesApplied, decide_eq_true_eq]
    · rw [applySlots_eq f sized]
  · exact if_pos (State.normal_of_phase hn)
  · exact if_pos (State.normal_of_phase hn)
  · exact if_pos (State.normal_of_phase hn)

end
end

section
/-! SUPPORT. The controller's DRIVE frame (R130): one setting, the settings in turn, and the rebuilt frame: O14. -/

namespace Sys2Proof.Machine

theorem frameKind_kindByte_drive (sub : BitVec 4) : frameKind (kindByte 3 sub.toNat) = .drive := by
  simp only [frameKind, kindByte_code (show 3 < 16 by omega) sub.isLt]

/-- A DRIVE frame of the controller to a field address is taken setting by setting (R130). -/
theorem exec_drive {s : State} {src dst : Byte} {sub : BitVec 4} {payload : List Byte} (hs : s.serving = true)
    (hr : s.receives .control = true) (hc : s.fromController src = true) (h0 : src ≠ 0)
    (hd : 2 ≤ dst.toNat ∧ dst.toNat ≤ 47) (hg : groupsOk 4 payload = true) (hl : payload.length ≤ 24) :
    exec (.driveInterception src dst sub payload) s =
      finish ((fun acc : Work × List Kept => acc.1.withSt (queueKept
          { src := src, dst := dst, kind := kindByte 3 sub.toNat, payload := payload } acc.2 acc.1.st))
        ((groups payload).foldl (driveSetting dst.toNat) (Work.idle (s.heardFrom src), []))) := by
  have e : exec (.driveInterception src dst sub payload) s =
    exec (.controlFrame { src := src, dst := dst, kind := kindByte 3 sub.toNat, payload := payload }) s := rfl
  have controller : (s.heardFrom src).fromController src = true := by rw [State.heardFrom_eq]; exact hc
  rw [e, exec_controlFrame_other hs hr h0 hl (by rw [frameKind_kindByte_drive]; decide), controlOther]
  dsimp only
  rw [frameKind_kindByte_drive]
  dsimp only
  rw [driveFrame, if_pos ((fieldAddress_iff dst).2 hd), intercept, Work.idle_st]
  dsimp only
  rw [controller, hg]
  rfl

/-! ### One setting -/

theorem driveSetting_unrouted {node : Nat} {w : Work} {kept : List Kept} {g : Nat × Nat}
    (h : w.st.phase ≠ .normal ∨ w.st.tables.roleOfField node g.1 = none) :
    driveSetting node (w, kept) g =
      if w.st.normal && w.st.tables.device.passUnrouted then (w, kept ++ [{ channel := g.1, level := g.2, role := none }])
      else (w.withSt (w.st.raiseDrive reasonUnrouted (some node) (some (g.1, min g.2 1000)) none), kept) := by
  have answer : referSetting node g.1 (min g.2 1000) w = (.unrouted, w) := by
    unfold referSetting
    rcases h with h | h
    · rw [if_neg fun k => h ((State.normal_iff _).1 k)]
    · rw [h, ite_self]
  unfold driveSetting
  dsimp only
  rw [answer]

theorem referSetting_routed {node channel v r : Nat} {w : Work} (hn : w.st.phase = .normal)
    (h : w.st.tables.roleOfField node channel = some r) : referSetting node channel v w = referRole true r v w := by
  unfold referSetting
  rw [if_pos (State.normal_of_phase hn), h]

theorem driveSetting_refused {node : Nat} {w : Work} {kept : List Kept} {g : Nat × Nat} {r : Nat} (hn : w.st.phase = .normal)
    (h : w.st.tables.roleOfField node g.1 = some r) (refused : (w.st.tables.role r).ctlAllowed = false) :
    driveSetting node (w, kept) g =
      (w.withSt (w.st.raiseDrive reasonNotPermitted (some node) (some (g.1, min g.2 1000)) (some r)), kept) := by
  unfold driveSetting
  dsimp only
  rw [referSetting_routed hn h, referRole_refused true _ refused]

theorem driveSetting_allowed {node : Nat} {w : Work} {kept : List Kept} {g : Nat × Nat} {r q : Nat} (hn : w.st.phase = .normal)
    (h : w.st.tables.roleOfField node g.1 = some r) (allowed : (w.st.tables.role r).ctlAllowed = true)
    (hq : clampRequest (w.st.tables.role r) (min g.2 1000) = q) :
    driveSetting node (w, kept) g =
      if ((w.st.role r).requesting q).claim.1 = .controller then
        ((changeRole true r ((w.st.role r).requesting q) w).withSt
          ((changeRole true r ((w.st.role r).requesting q) w).st.recordLast r q),
          kept ++ [{ channel := g.1, level := q, role := some r }])
      else
        ((changeRole true r ((w.st.role r).requesting q) w).withSt
          ((changeRole true r ((w.st.role r).requesting q) w).st.raiseDrive reasonHeld (some node) (some (g.1, min g.2 1000))
            (some r)), kept) := by
  unfold driveSetting
  dsimp only
  rw [referSetting_routed hn h, referRole_allowed true _ allowed, hq]
  by_cases k : ((w.st.role r).requesting q).claim.1 = .controller
  · rw [if_pos k, if_pos k]
  · rw [if_neg k, if_neg k]

/-! ### What a setting leaves, and what it hands on -/

theorem State.recordLast_eq (s : State) (r v : Nat) :
    s.recordLast r v = { s with gate := { s.gate with slots := (s.recordLast r v).gate.slots } } := by
  unfold State.recordLast
  split <;> rfl

/-- The work after settings of a DRIVE frame: only role changes wait to be handed on, and none in fallback mode. -/
structure DriveWork (s : State) (n : Nat) (w : Work) : Prop where
  tables : w.st.tables = s.tables
  seq : w.st.seq = s.seq
  phase : w.st.phase = s.phase
  stack : w.stack = []
  fins : w.fins = []
  queue : w.queue = []
  emitted : ∃ roles : List Nat, w.emitted = roles.map (fun r => .condWalk (.role r)) ∧ (∀ r ∈ roles, r < 12) ∧
    roles.length ≤ n ∧ (s.phase ≠ .normal → roles = [])

theorem DriveWork.idle (s : State) : DriveWork s 0 (Work.idle s) where
  tables := rfl
  seq := rfl
  phase := rfl
  stack := rfl
  fins := rfl
  queue := rfl
  emitted := ⟨[], rfl, fun _ h => (nomatch h), Nat.le_refl 0, fun _ => rfl⟩

theorem DriveWork.withSt {s : State} {n : Nat} {w : Work} (h : DriveWork s n w) {t : State} (ht : t.tables = w.st.tables)
    (hs : t.seq = w.st.seq) (hp : t.phase = w.st.phase) : DriveWork s n (w.withSt t) where
  tables := ht.trans h.tables
  seq := hs.trans h.seq
  phase := hp.trans h.phase
  stack := h.stack
  fins := h.fins
  queue := h.queue
  emitted := h.emitted

theorem DriveWork.more {s : State} {n : Nat} {w : Work} (h : DriveWork s n w) : DriveWork s (n + 1) w where
  tables := h.tables
  seq := h.seq
  phase := h.phase
  stack := h.stack
  fins := h.fins
  queue := h.queue
  emitted := by
    obtain ⟨roles, emitted, below, few, none⟩ := h.emitted
    exact ⟨roles, emitted, below, by omega, none⟩

theorem DriveWork.changeRole {s : State} {n : Nat} {w : Work} (h : DriveWork s n w) (hn : s.phase = .normal) {r : Nat}
    (hr : r < 12) (x : RoleRun) : DriveWork s (n + 1) (changeRole true r x w) := by
  have changed : DriveWork s n (w.withSt (w.st.changedRole true r x)) := by
    refine h.withSt ?_ ?_ ?_
    all_goals rw [State.changedRole_eq]
  rw [changeRole_eq]
  split
  · exact changed.more
  · obtain ⟨roles, emitted, below, few, -⟩ := changed.emitted
    refine ⟨changed.tables, changed.seq, changed.phase, changed.stack, changed.fins, changed.queue, roles ++ [r], ?_,
      fun q hq => ?_, by simpa using few, fun k => absurd hn k⟩
    · rw [Work.emit_emitted, emitted, List.map_append]
      rfl
    · rcases List.mem_append.1 hq with hq | hq
      · exact below q hq
      · cases List.mem_singleton.1 hq; exact hr

theorem DriveWork.driveSetting {s : State} {n : Nat} {w : Work} (h : DriveWork s n w) (node : Nat) (kept : List Kept)
    (g : Nat × Nat) : DriveWork s (n + 1) (driveSetting node (w, kept) g).1 := by
  by_cases unrouted : w.st.phase ≠ .normal ∨ w.st.tables.roleOfField node g.1 = none
  · rw [driveSetting_unrouted unrouted]
    split
    · exact h.more
    · exact h.more.withSt rfl rfl rfl
  · obtain ⟨hn, routed⟩ := not_or.1 unrouted
    have hn : w.st.phase = .normal := Classical.not_not.1 hn
    obtain ⟨r, hr⟩ := Option.ne_none_iff_exists'.1 routed
    by_cases allowed : (w.st.tables.role r).ctlAllowed = true
    · have changed := h.changeRole (h.phase ▸ hn) (roleOfField_lt hr)
        ((w.st.role r).requesting (clampRequest (w.st.tables.role r) (min g.2 1000)))
      rw [driveSetting_allowed hn hr allowed rfl]
      split
      · refine changed.withSt ?_ ?_ ?_
        all_goals rw [State.recordLast_eq]
      · exact changed.withSt rfl rfl rfl
    · rw [driveSetting_refused hn hr (by simpa using allowed)]
      exact h.more.withSt rfl rfl rfl

theorem DriveWork.foldl {s : State} (node : Nat) (gs : List (Nat × Nat)) {n : Nat} {acc : Work × List Kept}
    (h : DriveWork s n acc.1) : DriveWork s (n + gs.length) (gs.foldl (Sys2Proof.Machine.driveSetting node) acc).1 := by
  induction gs generalizing n acc with
  | nil => exact h
  | cons g gs ih =>
    rw [List.length_cons, Nat.add_comm gs.length 1, ← Nat.add_assoc]
    exact ih (h.driveSetting node acc.2 g)

/-! ### The rebuilt frame -/

/-- Induction on a list from its end. -/
theorem append_induction {α : Type} {motive : List α → Prop} (l : List α) (nil : motive [])
    (append_singleton : ∀ l a, motive l → motive (l ++ [a])) : motive l := by
  rw [← l.reverse_reverse]
  induction l.reverse with
  | nil => exact nil
  | cons a l ih =>
    rw [List.reverse_cons]
    exact append_singleton _ a ih

theorem placeKept_append (s : State) (kept : List Kept) (k : Kept) :
    placeKept s (kept ++ [k]) = match k.role with | some r => (placeKept s kept).placeSub r k.level | none => placeKept s kept := by
  unfold placeKept
  rw [List.foldl_append]
  rfl

theorem placeKept_eq (s : State) (kept : List Kept) :
    placeKept s kept = { s with gate := { s.gate with slots := (placeKept s kept).gate.slots } } := by
  induction kept using append_induction with
  | nil => rfl
  | append_singleton kept k ih =>
    rw [placeKept_append]
    cases k.role with
    | none => exact ih
    | some r =>
      dsimp only
      rw [State.placeSub_eq]
      generalize ((placeKept s kept).placeSub r k.level).gate.slots = slots
      generalize placeKept s kept = t at ih ⊢
      generalize t.gate.slots = c at ih
      subst ih
      rfl

theorem placeKept_length (s : State) (kept : List Kept) : (placeKept s kept).gate.slots.length = s.gate.slots.length := by
  induction kept using append_induction with
  | nil => rfl
  | append_singleton kept k ih =>
    rw [placeKept_append]
    cases k.role with
    | none => exact ih
    | some r =>
      dsimp only
      unfold State.placeSub
      split
      · exact List.length_set.trans ih
      · exact ih

/-- With the forward-down queue full, the last survivor answered for a role is its substitution (R130). -/
theorem placeKept_slot {s : State} {r n c : Nat} (hg : r < s.gate.slots.length) (ht : (s.tables.role r).target = .field n c)
    (kept : List Kept) :
    (placeKept s kept).slot r = (match (kept.filter fun k => k.role = some r).getLast? with
      | some k => some { node := n, channel := c, last := some k.level, pending := true, newer := true }
      | none => s.slot r) := by
  induction kept using append_induction with
  | nil => rfl
  | append_singleton kept k ih =>
    rw [placeKept_append, List.filter_append]
    by_cases own : k.role = some r
    · have last : [k].filter (fun k => decide (k.role = some r)) = [k] := by simp [own]
      rw [own, last, List.getLast?_append]
      dsimp only
      rw [placeSub_field (s := placeKept s kept) (by rw [placeKept_eq]; exact ht),
        State.slot_setSlot (by rw [placeKept_length]; exact hg), if_pos rfl]
      rfl
    · have none : [k].filter (fun k => decide (k.role = some r)) = [] := by simp [own]
      rw [none, List.append_nil, ← ih]
      cases hk : k.role with
      | none => rfl
      | some q =>
        have other : q ≠ r := fun e => own (by rw [hk, e])
        dsimp only
        unfold State.placeSub
        split
        · exact (getD_set _ _ _ _ _).trans (if_neg fun e => other e.1)
        · rfl

theorem queueKept_none (f : Frame) (s : State) : queueKept f [] s = s := rfl

theorem queueKept_room {f : Frame} {kept : List Kept} {s : State} (hk : kept ≠ []) (h : s.gate.down.length < 8) :
    queueKept f kept s = s.setGate { s.gate with down := s.gate.down ++ [{ f with payload := keptBytes kept }] } := by
  unfold queueKept
  rw [if_neg (by simpa using hk), if_pos h, State.forwardDown_eq, if_pos h]

theorem queueKept_full {f : Frame} {kept : List Kept} {s : State} (hk : kept ≠ []) (h : 8 ≤ s.gate.down.length) :
    queueKept f kept s = placeKept s kept := by
  unfold queueKept
  rw [if_neg (by simpa using hk), if_neg (by omega)]

theorem queueKept_eq (f : Frame) (kept : List Kept) (s : State) : queueKept f kept s = { s with gate := (queueKept f kept s).gate } := by
  by_cases hk : kept = []
  · subst hk; rfl
  · rcases Nat.lt_or_ge s.gate.down.length 8 with h | h
    · rw [queueKept_room hk h]; rfl
    · rw [queueKept_full hk h, placeKept_eq]

theorem groupsOk_of_length {payload : List Byte}
    (h : payload.length = 3 ∨ payload.length = 6 ∨ payload.length = 9 ∨ payload.length = 12) : groupsOk 4 payload = true := by
  rcases h with h | h | h | h <;> simp [groupsOk, within, h]

end Sys2Proof.Machine
end

section
/-! SUPPORT. A DRIVE frame of one setting, and of several: O14. -/

namespace Sys2Proof.Machine

theorem target_of_roleOfField {t : Tables} {node channel r : Nat} (h : t.roleOfField node channel = some r) :
    (t.role r).target = .field node channel := by
  have found := List.find?_some h
  simpa using found

theorem State.recordLast_slot {s : State} {r : Nat} (hg : r < s.gate.slots.length) (v k : Nat) :
    (s.recordLast r v).slot k = if k = r then (s.slot r).map fun x => { x with last := some v } else s.slot k := by
  unfold State.recordLast
  cases h : s.slot r with
  | none =>
    by_cases e : k = r
    · subst e
      rw [if_pos rfl]
      exact h
    · rw [if_neg e]
  | some x => exact State.slot_setSlot hg _ k

/-- The rebuilt frame of one setting, queued or turned into a substitution, after the role has taken the value (R130). -/
def State.forwarded (s : State) (f : Frame) (r channel q : Nat) : State :=
  queueKept f [{ channel := channel, level := q, role := some r }]
    ((s.changedRole true r ((s.role r).requesting q)).recordLast r q)

theorem State.forwarded_eq (s : State) (f : Frame) (r channel q : Nat) : s.forwarded f r channel q = { s with
    roles := (s.changedRole true r ((s.role r).requesting q)).roles
    lines := (s.changedRole true r ((s.role r).requesting q)).lines, gate := (s.forwarded f r channel q).gate } := by
  unfold State.forwarded
  rw [queueKept_eq]
  generalize (queueKept f [{ channel := channel, level := q, role := some r }]
    ((s.changedRole true r ((s.role r).requesting q)).recordLast r q)).gate = gate
  rw [State.recordLast_eq]
  have e := State.changedRole_eq s true r ((s.role r).requesting q)
  generalize s.changedRole true r ((s.role r).requesting q) = t at e ⊢
  generalize (t.recordLast r q).gate.slots = slots
  generalize ha : t.roles = a at e
  generalize hb : t.lines = b at e
  generalize t.gate.slots = c at e
  subst e
  rfl

/-- What waits besides the forward-down queue and the slots is not touched by a forwarded setting. -/
theorem State.forwarded_gate (s : State) (f : Frame) {r : Nat} (channel q : Nat) :
    (s.forwarded f r channel q).gate.up = s.gate.up ∧ (s.forwarded f r channel q).gate.reply = s.gate.reply ∧
      (s.forwarded f r channel q).gate.notices = s.gate.notices := by
  have recorded : ((s.changedRole true r ((s.role r).requesting q)).recordLast r q).gate = { s.gate with
      slots := ((s.changedRole true r ((s.role r).requesting q)).recordLast r q).gate.slots } := by
    rw [State.recordLast_eq, State.changedRole_eq]
  unfold State.forwarded
  rcases Nat.lt_or_ge ((s.changedRole true r ((s.role r).requesting q)).recordLast r q).gate.down.length 8 with h | h
  · rw [queueKept_room (List.cons_ne_nil _ _) h]
    dsimp only [State.setGate]
    rw [recorded]
    exact ⟨rfl, rfl, rfl⟩
  · rw [queueKept_full (List.cons_ne_nil _ _) h, placeKept_eq]
    dsimp only
    rw [recorded]
    exact ⟨rfl, rfl, rfl⟩

/-- The forward-down queue and the slots after a forwarded setting of a field role. -/
theorem State.forwarded_down {s : State} (f : Frame) {r n c : Nat} (hr : r < s.roles.length) (hg : r < s.gate.slots.length)
    (ht : (s.tables.role r).target = .field n c) (channel q : Nat) :
    (∀ k, k ≠ r → (s.forwarded f r channel q).slot k = s.slot k) ∧
    (s.gate.down.length < 8 →
      (s.forwarded f r channel q).gate.down = s.gate.down ++ [{ f with payload := u8 channel :: u16 q }] ∧
      ∀ x, s.slot r = some x → (s.forwarded f r channel q).slot r = some { x with last := some q }) ∧
    (8 ≤ s.gate.down.length → (s.forwarded f r channel q).gate.down = s.gate.down ∧
      (s.forwarded f r channel q).slot r = some { node := n, channel := c, last := some q, pending := true, newer := true }) := by
  obtain ⟨-, -, slots⟩ := s.changedRole_lengths true r ((s.role r).requesting q)
  have acted : s.actedSlot true r ((s.role r).requesting q) = s.slot r := by
    unfold State.actedSlot
    rw [ht]
    exact ite_self _
  have changed (k : Nat) : (s.changedRole true r ((s.role r).requesting q)).slot k = s.slot k := by
    rw [State.changedRole_slot s true _ hr hg, acted]
    by_cases e : k = r
    · rw [if_pos e, e]
    · exact if_neg e
  generalize hu : (s.changedRole true r ((s.role r).requesting q)).recordLast r q = u
  have length : u.gate.slots.length = s.gate.slots.length := by
    rw [← hu, ← slots]
    unfold State.recordLast
    split
    · exact List.length_set
    · rfl
  have slot (k : Nat) : u.slot k = if k = r then (s.slot r).map fun x => { x with last := some q } else s.slot k := by
    rw [← hu, State.recordLast_slot (by rw [slots]; exact hg), changed, changed]
  have down : u.gate.down = s.gate.down := by rw [← hu, State.recordLast_eq, State.changedRole_eq]
  have tables : u.tables = s.tables := by rw [← hu, State.recordLast_eq, State.changedRole_eq]
  have bytes : keptBytes [{ channel := channel, level := q, role := some r }] = u8 channel :: u16 q :=
    congrArg (u8 channel :: ·) (List.append_nil _)
  unfold State.forwarded
  rw [hu]
  rcases Nat.lt_or_ge u.gate.down.length 8 with h | h
  · rw [queueKept_room (List.cons_ne_nil _ _) h, bytes]
    refine ⟨fun k hk => (slot k).trans (if_neg hk), fun _ => ⟨congrArg (· ++ _) down, fun x hx => ?_⟩, fun full => ?_⟩
    · refine (slot r).trans ?_
      rw [if_pos rfl, hx]
      rfl
    · rw [down] at h
      omega
  · rw [queueKept_full (List.cons_ne_nil _ _) h]
    have placed : placeKept u [{ channel := channel, level := q, role := some r }] = u.placeSub r q := rfl
    rw [placed, placeSub_field (by rw [tables]; exact ht)]
    refine ⟨fun k hk => ?_, fun room => by rw [down] at h; omega, fun _ => ⟨down, ?_⟩⟩
    · rw [State.slot_setSlot (by rw [length]; exact hg), if_neg hk, slot, if_neg hk]
    · rw [State.slot_setSlot (by rw [length]; exact hg), if_pos rfl]

/-- The state after a forwarded setting, and what it hands on taken. -/
def State.drove (s : State) (f : Frame) (r channel q : Nat) : State :=
  if (s.role r).applied = q then s.forwarded f r channel q else (s.forwarded f r channel q).walked (.role r)

theorem State.drove_eq (s : State) (f : Frame) (r channel q : Nat) :
    s.drove f r channel q = { s.forwarded f r channel q with conds := (s.drove f r channel q).conds } := by
  unfold State.drove
  split
  · rfl
  · exact State.walked_eq _ _

theorem drove_conds {s u : State} {f : Frame} {r channel q : Nat} (h : u = s.drove f r channel q) :
    ((s.role r).applied = q → u.conds = s.conds) ∧
    ((s.role r).applied ≠ q → u.conds = (walk (.role r) { u with conds := s.conds } []).1.conds) := by
  have conds : (s.forwarded f r channel q).conds = s.conds := by rw [State.forwarded_eq]
  unfold State.drove at h
  refine ⟨fun same => ?_, fun moved => ?_⟩
  · rw [h, if_pos same, conds]
  · rw [if_neg moved] at h
    have e := conds_of_walked h
    rw [conds] at e
    exact e

theorem State.drove_same (s : State) (f : Frame) (r channel q : Nat) :
    (s.drove f r channel q).roles = (s.changedRole true r ((s.role r).requesting q)).roles ∧
      (s.drove f r channel q).lines = (s.changedRole true r ((s.role r).requesting q)).lines ∧
      (s.drove f r channel q).gate = (s.forwarded f r channel q).gate ∧ (s.drove f r channel q).points = s.points ∧
      (s.drove f r channel q).seq = s.seq ∧ (s.drove f r channel q).circuits = s.circuits ∧
      (s.drove f r channel q).flue = s.flue ∧ (s.drove f r channel q).fault = s.fault ∧
      (s.drove f r channel q).trace = s.trace ∧ (s.drove f r channel q).tables = s.tables ∧
      (s.drove f r channel q).staging = s.staging ∧ (s.drove f r channel q).store = s.store := by
  rw [State.drove_eq, State.forwarded_eq]
  exact ⟨rfl, rfl, rfl, rfl, rfl, rfl, rfl, rfl, rfl, rfl, rfl, rfl⟩

/-- One setting of a role that the controller may command and nothing above claims. -/
theorem finish_forwarded {s : State} (hn : s.phase = .normal) (hu : s.unheeded) (f : Frame) {node r : Nat} {g : Nat × Nat} {q : Nat}
    (routed : s.tables.roleOfField node g.1 = some r) (allowed : (s.tables.role r).ctlAllowed = true)
    (hq : clampRequest (s.tables.role r) (min g.2 1000) = q) (free : ((s.role r).requesting q).claim = (.controller, q)) :
    finish ((fun acc : Work × List Kept => acc.1.withSt (queueKept f acc.2 acc.1.st))
      ([g].foldl (driveSetting node) (Work.idle s, []))) = .next (s.drove f r g.1 q).arbitrate := by
  have setting : driveSetting node (Work.idle s, []) g = _ := driveSetting_allowed (w := Work.idle s) hn routed allowed hq
  have normal : (s.forwarded f r g.1 q).phase = .normal := by rw [State.forwarded_eq]; exact hn
  have unheeded : (s.forwarded f r g.1 q).unheeded := unheeded_of_eq hu (by rw [State.forwarded_eq]) (by rw [State.forwarded_eq])
  rw [List.foldl_cons, List.foldl_nil, setting, Work.idle_st, free, if_pos rfl]
  dsimp only
  rw [Work.withSt_st, changeRole_st, Work.idle_st, changeRole_eq, Work.idle_st, free]
  unfold State.drove
  by_cases same : (s.role r).applied = q
  · rw [if_pos same.symm, if_pos same]
    exact finish_condWalks (rs := []) normal unheeded rfl rfl rfl rfl (fun _ hi => nomatch hi) (Nat.zero_le _)
  · rw [if_neg fun k => same k.symm, if_neg same]
    exact finish_condWalks (rs := [.role r]) normal unheeded rfl rfl rfl rfl
      (fun i hi c => by cases List.mem_singleton.1 hi; exact fun k => nomatch k) (by simp)

theorem groups_one (ch hi lo : Byte) : groups [ch, hi, lo] = [(ch.toNat, n16 hi lo)] := rfl

theorem State.heardFrom_down (s : State) (src : Byte) : (s.heardFrom src).gate.down = s.gate.down := by
  rw [State.heardFrom_eq]

/-- Work with nothing left to do ends at once. -/
theorem finish_quiet {w : Work} (hs : w.stack = []) (hf : w.fins = []) (he : w.emitted = []) (hq : w.queue = []) :
    finish w = .next w.st.arbitrate := by
  refine finish_idle ?_
  unfold Work.take
  rw [hs, hf]
  dsimp only
  rw [he, hq]
  rfl

theorem finish_dropped (s : State) (f : Frame) (t : State) :
    finish ((fun acc : Work × List Kept => acc.1.withSt (queueKept f acc.2 acc.1.st)) ((Work.idle s).withSt t, [])) =
      .next t.arbitrate := finish_idle rfl

/-- The role changes of several settings are handed on after the rebuilt frame is queued (log 41). -/
theorem finish_settings {s : State} (hu : s.unheeded) (node : Nat) (gs : List (Nat × Nat)) (few : gs.length ≤ 1000) (f : Frame) :
    let taken := gs.foldl (driveSetting node) (Work.idle s, [])
    ∃ roles : List Nat, taken.1.emitted = roles.map (fun r => .condWalk (.role r)) ∧ (∀ r ∈ roles, r < 12) ∧
      finish (taken.1.withSt (queueKept f taken.2 taken.1.st)) =
        .next (roles.foldl (fun (u : State) r => u.walked (.role r)) (queueKept f taken.2 taken.1.st)).arbitrate := by
  intro taken
  have work : DriveWork s (0 + gs.length) taken.1 := DriveWork.foldl node gs (acc := (Work.idle s, [])) (DriveWork.idle s)
  obtain ⟨roles, emitted, below, count, none⟩ := work.emitted
  refine ⟨roles, emitted, below, ?_⟩
  have same : (queueKept f taken.2 taken.1.st).phase = s.phase ∧ (queueKept f taken.2 taken.1.st).unheeded := by
    rw [queueKept_eq]
    exact ⟨work.phase, unheeded_of_eq hu work.tables work.seq⟩
  obtain ⟨phase, unheeded⟩ := same
  by_cases hn : s.phase = .normal
  · have emitted' : (taken.1.withSt (queueKept f taken.2 taken.1.st)).emitted = (roles.map CondInput.role).map .condWalk := by
      rw [List.map_map]
      exact emitted
    have ends := finish_condWalks (w := taken.1.withSt (queueKept f taken.2 taken.1.st)) (phase.trans hn) unheeded work.stack work.fins work.queue emitted'
      (fun i hi c => by obtain ⟨r, -, rfl⟩ := List.mem_map.1 hi; exact fun k => nomatch k)
      (by rw [List.length_map]; omega)
    rw [List.foldl_map] at ends
    exact ends
  · have none := none hn
    subst none
    exact finish_quiet (w := taken.1.withSt (queueKept f taken.2 taken.1.st)) work.stack work.fins emitted work.queue

end Sys2Proof.Machine

section
open Sys2Proof Sys2Proof.Machine

/-- Settles O14: one setting by its answer, several in turn, and the rebuilt frame by the room in the queue. -/
theorem driveSettingForwarded : Obligations.DriveSettingForwarded := by
  unfold Obligations.DriveSettingForwarded
  refine ⟨fun s src dst ch hi lo sub hs hr hc h0 hd => ?_, fun s src dst sub payload hs hr hc h0 hd hlen sized hu => ?_,
    ⟨rfl, fun _ _ _ _ => rfl⟩, fun node ch level w kept => ⟨fun hn => ?_, fun hn => ⟨fun routed pass => ?_, fun routed pass => ?_,
      fun r routed => ⟨fun refused => ?_, fun allowed held => ?_, fun allowed free => ?_⟩⟩⟩, fun f kept s sized => ⟨fun none => ?_, fun some room => queueKept_room some room, fun some full => ?_⟩⟩
  · obtain ⟨hroles, hlines, hslots, hseq, hpoints, hcircuits, hfault, hstore, htables, hphase, hconds⟩ := s.heardFrom_same src
    have hdown := s.heardFrom_down src
    have hrole : (s.heardFrom src).role = s.role := by unfold State.role; rw [hroles]
    have hslot : (s.heardFrom src).slot = s.slot := by unfold State.slot; rw [hslots]
    dsimp only
    rw [exec_drive hs hr hc h0 hd (groupsOk_of_length (.inl rfl)) (by simp), groups_one]
    refine ⟨fun r hn routed allowed hl hk hs hf sized hu => ?_, fun r hn routed refused => ?_,
      fun r hn routed allowed held sized applied => ?_, fun unrouted => ?_, fun hn routed pass => ?_⟩
    · obtain ⟨-, -, -, -, -, roles, -, -, slots, -⟩ := sized
      generalize hq : clampRequest (s.tables.role r) (min (n16 hi lo) 1000) = q
      generalize hf' : ({ src := src, dst := dst, kind := kindByte 3 sub.toNat, payload := [ch, hi, lo] } : Frame) = f
      have free : (((s.heardFrom src).role r).requesting q).claim = (.controller, q) := by
        rw [hrole]; exact RoleRun.claim_requesting_free hl hk hs hf q
      have below := roleOfField_lt routed
      have target := target_of_roleOfField routed
      have hr' : r < (s.heardFrom src).roles.length := by rw [hroles]; omega
      have hg' : r < (s.heardFrom src).gate.slots.length := by rw [hslots]; omega
      obtain ⟨uroles, ulines, ugate, upoints, useq, ucircuits, uflue, ufault, utrace, utables, ustaging, ustore⟩ :=
        (s.heardFrom src).drove_same f r ch.toNat q
      obtain ⟨up, reply, notices⟩ := (s.heardFrom src).forwarded_gate f (r := r) ch.toNat q
      obtain ⟨others, room, full⟩ := State.forwarded_down f hr' hg' (by rw [htables]; exact target) ch.toNat q
      obtain ⟨still, moved⟩ := drove_conds (s := s.heardFrom src) (f := f) (r := r) (channel := ch.toNat) (q := q) rfl
      obtain ⟨field, -⟩ := State.actedRole_free (s := s.heardFrom src) true free
      obtain ⟨same, changed⟩ := field _ _ (by rw [htables]; exact target)
      have urole (k : Nat) : ((s.heardFrom src).drove f r ch.toNat q).role k =
          if k = r then (s.heardFrom src).actedRole true r (((s.heardFrom src).role r).requesting q) else s.role k := by
        rw [← hrole, ← State.changedRole_role (s.heardFrom src) true _ hr']
        exact congrArg (fun l : List RoleRun => l.getD k RoleRun.reset) uroles
      have uslot : ((s.heardFrom src).drove f r ch.toNat q).slot = ((s.heardFrom src).forwarded f r ch.toNat q).slot := by
        unfold State.slot; rw [ugate]
      have ulinesSame : ((s.heardFrom src).changedRole true r (((s.heardFrom src).role r).requesting q)).lines = s.lines := by
        rw [State.changedRole_lines_of_other true hr' _ (by rw [htables, target]; exact fun l e => nomatch e), hlines]
      rw [hrole] at still moved same changed
      rw [htables] at changed
      rw [hconds] at still moved
      rw [hslot, hdown] at room
      rw [hdown] at full
      rw [hslot] at others
      refine ⟨(s.heardFrom src).drove f r ch.toNat q, finish_forwarded (hphase.trans hn) (unheeded_of_eq hu htables hseq) f (by rw [htables]; exact routed)
        (by rw [htables]; exact allowed) (by rw [htables]; exact hq) free, ⟨fun k => ⟨?_, still k⟩, fun k => ⟨?_, moved k⟩⟩,
        fun k hk => ⟨(urole k).trans (if_neg hk), by rw [uslot]; exact others k hk⟩, fun h => ?_, fun h => ?_,
        ulines.trans ulinesSame, upoints.trans hpoints, useq.trans hseq, ucircuits.trans hcircuits, ?_, ufault.trans hfault, ?_,
        utables.trans htables, ?_, ustore.trans hstore, by rw [ugate, up, State.heardFrom_eq],
        by rw [ugate, reply, State.heardFrom_eq], by rw [ugate, notices, State.heardFrom_eq]⟩
      · rw [urole, if_pos rfl, hrole]; exact same k
      · rw [urole, if_pos rfl, hrole]; exact changed k
      · obtain ⟨down, slot⟩ := room h
        rw [uslot]
        exact ⟨by rw [ugate, down, u8_self, ← hf'], slot⟩
      · rw [ugate, uslot]; exact full h
      · rw [uflue, State.heardFrom_eq]
      · rw [utrace, State.heardFrom_eq]
      · rw [ustaging, State.heardFrom_eq]
    · rw [List.foldl_cons, List.foldl_nil, driveSetting_refused (by exact hphase.trans hn) (by rw [Work.idle_st, htables]; exact routed)
        (by rw [Work.idle_st, htables]; exact refused)]
      exact finish_dropped _ _ _
    · obtain ⟨-, -, -, -, -, roles, -⟩ := sized
      have hr' : r < (s.heardFrom src).roles.length := by rw [hroles, roles]; exact roleOfField_lt routed
      have lawful : ((s.heardFrom src).role r).lawful := by rw [hrole]; exact State.role_lawful applied r
      have held' : ((s.heardFrom src).role r).isHeld := by rw [hrole]; exact held
      obtain ⟨claim, high⟩ := RoleRun.claim_requesting_held held' (clampRequest (s.tables.role r) (min (n16 hi lo) 1000))
      have applied : ((s.heardFrom src).role r).claim.2 = ((s.heardFrom src).role r).applied := by
        unfold RoleRun.lawful at lawful; rw [← lawful]
      have above : ¬ ((s.heardFrom src).role r).claim.1 = .controller := fun k => by rw [k] at high; cases high
      rw [List.foldl_cons, List.foldl_nil, driveSetting_allowed (by exact hphase.trans hn) (by rw [Work.idle_st, htables]; exact routed)
        (by rw [Work.idle_st, htables]; exact allowed) (by rw [Work.idle_st, htables]), Work.idle_st, claim, if_neg above, changeRole_eq,
        Work.idle_st, claim, if_pos applied, State.changedRole_held true hr' lawful held', hrole]
      exact finish_dropped _ _ _
    · have unrouted' : (Work.idle (s.heardFrom src)).st.phase ≠ .normal ∨
          (Work.idle (s.heardFrom src)).st.tables.roleOfField dst.toNat ch.toNat = none := by
        rw [Work.idle_st, hphase, htables]
        exact unrouted.imp (fun k e => by rw [k] at e; cases e) fun k => k.1
      have closed : ¬ ((Work.idle (s.heardFrom src)).st.normal && (Work.idle (s.heardFrom src)).st.tables.device.passUnrouted) = true := by
        rw [Work.idle_st, htables, Bool.and_eq_true, State.normal_iff, hphase]
        rintro ⟨normal, pass⟩
        rcases unrouted with k | ⟨-, k⟩
        · rw [k] at normal; cases normal
        · rw [k] at pass; cases pass
      rw [List.foldl_cons, List.foldl_nil, driveSetting_unrouted unrouted', if_neg closed]
      exact finish_dropped _ _ _
    · have unrouted' : (Work.idle (s.heardFrom src)).st.phase ≠ .normal ∨
          (Work.idle (s.heardFrom src)).st.tables.roleOfField dst.toNat ch.toNat = none := by
        rw [Work.idle_st, htables]
        exact .inr routed
      have passes : ((Work.idle (s.heardFrom src)).st.normal && (Work.idle (s.heardFrom src)).st.tables.device.passUnrouted) = true := by
        rw [Work.idle_st, htables, Bool.and_eq_true, State.normal_iff, hphase]
        exact ⟨hn, pass⟩
      have bytes : keptBytes [{ channel := ch.toNat, level := n16 hi lo, role := none }] = [ch, hi, lo] := by
        have e : keptBytes [{ channel := ch.toNat, level := n16 hi lo, role := none }] =
          u8 ch.toNat :: (u16 (n16 hi lo) ++ []) := rfl
        rw [e, u8_self, u16_n16]
        rfl
      rw [List.foldl_cons, List.foldl_nil, driveSetting_unrouted unrouted', if_pos passes]
      refine (finish_idle (w := (Work.idle (s.heardFrom src)).withSt _) rfl).trans ?_
      rw [Work.withSt_st, Work.idle_st, List.nil_append]
      rcases Nat.lt_or_ge s.gate.down.length 8 with h | h
      · rw [queueKept_room (List.cons_ne_nil _ _) (by rw [hdown]; exact h), bytes, if_pos h, hdown]
      · rw [queueKept_full (List.cons_ne_nil _ _) (by rw [hdown]; exact h), if_neg (by omega), ← hdown]
        rfl
  · have hg := groupsOk_of_length hlen
    have ends := finish_settings (s := s.heardFrom src) (by
      obtain ⟨-, -, -, hseq, -, -, -, -, htables, -⟩ := s.heardFrom_same src
      exact unheeded_of_eq hu htables hseq) dst.toNat (groups payload) (Nat.le_trans (groups_length_le hg) (by omega))
      { src := src, dst := dst, kind := kindByte 3 sub.toNat, payload := payload }
    rw [exec_drive hs hr hc h0 hd hg (by omega)]
    exact ends
  · have closed : ¬ (w.st.normal && w.st.tables.device.passUnrouted) = true := fun k => by
      have normal := (State.normal_iff _).1 (Bool.and_eq_true _ _ |>.mp k).1
      rw [hn] at normal
      cases normal
    dsimp only
    rw [driveSetting_unrouted (.inl (by rw [hn]; decide)), if_neg closed]
  · rw [driveSetting_unrouted (.inr routed), if_pos (by rw [State.normal_of_phase hn, pass]; rfl)]
  · have closed : ¬ (w.st.normal && w.st.tables.device.passUnrouted) = true := by rw [pass, Bool.and_false]; exact Bool.false_ne_true
    dsimp only
    rw [driveSetting_unrouted (.inr routed), if_neg closed]
  · exact driveSetting_refused hn routed refused
  · exact (driveSetting_allowed hn routed allowed rfl).trans (if_neg held)
  · exact (driveSetting_allowed hn routed allowed rfl).trans (if_pos free)
  · rw [none, queueKept_none]
  · rw [queueKept_full some full]
    obtain ⟨-, -, -, -, -, -, -, -, slots, -⟩ := sized
    exact ⟨by rw [placeKept_eq], fun r n c hr target => placeKept_slot (by omega) target kept⟩

end
end

section
/-! SUPPORT. Calm cascades: once nothing that waits can move the chain or raise a fault, a cascade ends, and what it leaves is
known: the claims stand, the notices are raised, and only conditions, roles, lines, slots and notices have changed. -/

namespace Sys2Proof.Machine

/-! ### Actions that move nothing -/

/-- Whether demand can be served now. -/
def State.demandIdle (s : State) : Prop :=
  (s.demandServed && (s.switchCheck s.tables.device.startSeq .demand).isNone) = false

/-- Inputs that no condition reading a point takes. -/
def CondInput.remote : CondInput → Prop
  | .role _ => True
  | .flue _ => True
  | _ => False

theorem CondInput.remote.not_hold {i : CondInput} (h : i.remote) (c : Nat) : i ≠ .hold c := by
  rintro rfl
  exact h

/-- Every condition in use reads a point: what the other units hand on reaches none. -/
def State.undisturbed (s : State) : Prop := ∀ c, c < 32 → (s.tables.cond c).inUse = true → (s.tables.cond c).kind.readsPoint = true

theorem State.undisturbed_of_unwatched {s : State} (h : s.unwatched) : s.undisturbed := fun c hc used => by
  rw [h c hc] at used
  cases used

theorem marks_remote {i : CondInput} (h : i.remote) {e : CondEntry} (reads : e.kind.readsPoint = true) : marks i e = false := by
  cases i with
  | role r =>
    unfold marks
    cases hk : e.kind with
    | roleConfirmed => rw [hk] at reads; cases reads
    | _ => rfl
  | flue kinds =>
    unfold marks
    cases hk : e.kind with
    | flueDraught | flueBlocked | flueSpill | flueRise => rw [hk] at reads; cases reads
    | _ => rfl
  | point p | hold c | all => exact absurd h id

theorem walk_undisturbed {s : State} (h : s.undisturbed) {i : CondInput} (hi : i.remote) : walk i s [] = (s, []) := by
  unfold walk
  suffices H : ∀ l : List Nat, (∀ c ∈ l, c < 32) → l.foldl (walkAt i) (s, []) = (s, []) from
    H _ fun c hc => List.mem_range.1 hc
  intro l hl
  induction l with
  | nil => rfl
  | cons c l ih =>
    have still : walkAt i (s, []) c = (s, []) := by
      unfold walkAt
      dsimp only
      refine if_neg fun k => ?_
      obtain ⟨used, marked⟩ := Bool.and_eq_true_iff.1 k
      have unmarked := marks_remote hi (h c (hl c List.mem_cons_self) used)
      simp [unmarked, marksCombination] at marked
    rw [List.foldl_cons, still]
    exact ih fun d hd => hl d (List.mem_cons_of_mem _ hd)

/-- A walk from another unit changes nothing and hands nothing on while every condition in use reads a point. -/
theorem actCondWalk_undisturbed {w : Work} (h : w.st.undisturbed) {i : CondInput} (hi : i.remote) : actCondWalk i w = w := by
  have start : walkStart i w.st = (w.st, []) := by
    cases i with
    | hold c => exact absurd rfl (hi.not_hold c)
    | _ => rfl
  unfold actCondWalk
  rw [start, walk_undisturbed h hi]
  split
  · rfl
  · rfl

/-- No sequence in use waits for a condition of the set. -/
def State.unasked (s : State) (set : List (Nat × Tri)) : Prop :=
  s.seq.triggers.length = 12 ∧
    ∀ n, n < 12 → (s.tables.seq n).inUse = true → ∀ c, (s.tables.seq n).trigger = some c → set.lookup c = none

theorem State.unasked_of_unheeded {s : State} (h : s.unheeded) (set : List (Nat × Tri)) : s.unasked set := by
  obtain ⟨-, sources, length⟩ := h
  refine ⟨length, fun n hn used c named => ?_⟩
  rw [sources n hn used] at named
  cases named

theorem actApplyTriggers_unasked {w : Work} {set : List (Nat × Tri)} (h : w.st.unasked set) : actApplyTriggers set w = w := by
  obtain ⟨length, unasked⟩ := h
  have own (n : Nat) (hn : n < 12) (x : Trigger) : ownSource w.st set n x = x := by
    unfold ownSource
    split
    · next used =>
      cases named : (w.st.tables.seq n).trigger with
      | none => rfl
      | some c =>
        dsimp only
        rw [unasked n hn used c named]
    · rfl
  have same : (List.range 12).map (fun n => ownSource w.st set n (w.st.trigger n)) = w.st.seq.triggers := by
    rw [← State.triggers_map length]
    exact List.map_congr_left fun n hn => own n (List.mem_range.1 hn) _
  have kept : w.st.setSeq (SeqUnit.mk w.st.seq.chain w.st.seq.runs w.st.seq.running
      ((List.range 12).map fun n => ownSource w.st set n (w.st.trigger n)) w.st.seq.demand w.st.seq.purgeDue) = w.st := by
    rw [same]
    rfl
  unfold actApplyTriggers updateTriggers
  simp only [kept]
  simp [Work.push, Work.withSt]

/-- Actions that move neither the chain nor the faults from the state `s`. -/
def State.calms (s : State) : Act → Prop
  | .condWalk i => i.remote
  | .handoff _ => s.unheeded
  | .applyTriggers set => s.unasked set
  | .examineTriggers => s.noTriggers = true
  | .examineDemand => s.demandIdle
  | .frostClaims => True
  | .sequenceClaims => True
  | .frostNotice _ => True
  | .chainNotice _ _ _ => True
  | .traceNotice _ => True
  | _ => False

/-- A bound on the actions that an action leads to, when all of them move nothing. -/
def calmWeight : Act → Nat
  | .condWalk _ => 3
  | .handoff _ => 2
  | .frostClaims => 40
  | .sequenceClaims => 40
  | _ => 1

/-- Only conditions, roles, lines, slots and notices differ. -/
def OnlyCalm (s t : State) : Prop :=
  t = { s with conds := t.conds, roles := t.roles, lines := t.lines
               gate := { s.gate with slots := t.gate.slots, notices := t.gate.notices } }

theorem OnlyCalm.refl (s : State) : OnlyCalm s s := rfl

theorem OnlyCalm.trans {s t u : State} (h : OnlyCalm s t) (g : OnlyCalm t u) : OnlyCalm s u := by
  unfold OnlyCalm at *
  rw [h] at g
  exact g

theorem OnlyCalm.tables {s t : State} (h : OnlyCalm s t) : t.tables = s.tables := by rw [h]
theorem OnlyCalm.seq {s t : State} (h : OnlyCalm s t) : t.seq = s.seq := by rw [h]
theorem OnlyCalm.phase {s t : State} (h : OnlyCalm s t) : t.phase = s.phase := by rw [h]
theorem OnlyCalm.points {s t : State} (h : OnlyCalm s t) : t.points = s.points := by rw [h]
theorem OnlyCalm.flue {s t : State} (h : OnlyCalm s t) : t.flue = s.flue := by rw [h]
theorem OnlyCalm.circuits {s t : State} (h : OnlyCalm s t) : t.circuits = s.circuits := by rw [h]
theorem OnlyCalm.fault {s t : State} (h : OnlyCalm s t) : t.fault = s.fault := by rw [h]
theorem OnlyCalm.trace {s t : State} (h : OnlyCalm s t) : t.trace = s.trace := by rw [h]
theorem OnlyCalm.pins {s t : State} (h : OnlyCalm s t) : t.pins = s.pins := by rw [h]
theorem OnlyCalm.staging {s t : State} (h : OnlyCalm s t) : t.staging = s.staging := by rw [h]
theorem OnlyCalm.store {s t : State} (h : OnlyCalm s t) : t.store = s.store := by rw [h]
theorem OnlyCalm.clock {s t : State} (h : OnlyCalm s t) : t.clock = s.clock := by rw [h]
theorem OnlyCalm.up {s t : State} (h : OnlyCalm s t) : t.gate.up = s.gate.up := by rw [h]
theorem OnlyCalm.down {s t : State} (h : OnlyCalm s t) : t.gate.down = s.gate.down := by rw [h]
theorem OnlyCalm.reply {s t : State} (h : OnlyCalm s t) : t.gate.reply = s.gate.reply := by rw [h]
theorem OnlyCalm.present {s t : State} (h : OnlyCalm s t) : t.gate.present = s.gate.present := by rw [h]
theorem OnlyCalm.absence {s t : State} (h : OnlyCalm s t) : t.gate.absence = s.gate.absence := by rw [h]

/-- What the laws of claims and demand read of a state. -/
structure SameMatters (s t : State) : Prop where
  tables : t.tables = s.tables
  seq : t.seq = s.seq
  phase : t.phase = s.phase
  fault : t.fault = s.fault
  pins : t.pins = s.pins
  circuits : t.circuits = s.circuits
  present : t.gate.present = s.gate.present
  store : t.store = s.store

theorem OnlyCalm.matters {s t : State} (h : OnlyCalm s t) : SameMatters s t :=
  ⟨h.tables, h.seq, h.phase, h.fault, h.pins, h.circuits, h.present, h.store⟩

theorem SameMatters.switchCheck {s t : State} (h : SameMatters s t) (n : Nat) (c : Cause) : t.switchCheck n c = s.switchCheck n c := by
  unfold State.switchCheck State.active State.outranked State.top State.locked State.committing
  rw [h.tables, h.seq, h.fault, h.present, h.store]

theorem SameMatters.demandIdle {s t : State} (h : SameMatters s t) : t.demandIdle = s.demandIdle := by
  unfold State.demandIdle State.demandServed
  rw [h.switchCheck, h.tables]
  unfold State.noTriggers State.normal State.locked State.committing
  rw [h.seq, h.phase, h.fault, h.present, h.store]

theorem SameMatters.calms {s t : State} (h : SameMatters s t) (a : Act) : t.calms a = s.calms a := by
  have unheeded : t.unheeded = s.unheeded := by unfold State.unheeded; rw [h.tables, h.seq]
  have unasked (set : List (Nat × Tri)) : t.unasked set = s.unasked set := by unfold State.unasked; rw [h.tables, h.seq]
  have noTriggers : t.noTriggers = s.noTriggers := by unfold State.noTriggers; rw [h.seq]
  cases a <;> simp only [State.calms, unheeded, unasked, noTriggers, h.demandIdle]

theorem SameMatters.sequenceClaim {s t : State} (h : SameMatters s t) (r : Nat) : t.sequenceClaim r = s.sequenceClaim r := by
  unfold State.sequenceClaim; rw [h.seq, h.tables]

theorem SameMatters.lockoutSlot {s t : State} (h : SameMatters s t) (r : Nat) : t.lockoutSlot r = s.lockoutSlot r := by
  unfold State.lockoutSlot State.locked; rw [h.fault]

theorem SameMatters.limitSlot {s t : State} (h : SameMatters s t) (r : Nat) : t.limitSlot r = s.limitSlot r := by
  unfold State.limitSlot; rw [h.pins]

theorem SameMatters.frostClaim {s t : State} (h : SameMatters s t) (r : Nat) : t.frostClaim r = s.frostClaim r := by
  unfold State.frostClaim State.anyBlocked State.circuit; rw [h.tables, h.circuits]

/-! ### One action that moves nothing -/

/-- What one calm action may do to the state. -/
structure CalmStep (a : Act) (u t : State) : Prop where
  frame : OnlyCalm u t
  sized : u.sized → t.sized
  conds : u.undisturbed → t.conds = u.conds
  limit : ∀ r, r < 12 → (t.role r).limit = (u.role r).limit
  applied : u.appliedLaw → t.appliedLaw
  flags : ∀ k, (u.notice k).flag = true → (t.notice k).flag = true
  claimed : a = .sequenceClaims → ∀ r, r < 12 → (t.role r).sequence = u.sequenceClaim r ∧ (t.role r).lockout = u.lockoutSlot r
  claims : a ≠ .sequenceClaims → ∀ r, r < 12 → (t.role r).sequence = (u.role r).sequence ∧ (t.role r).lockout = (u.role r).lockout
  frosted : a = .frostClaims → ∀ r, r < 12 → (t.role r).frost = u.frostClaim r
  frosts : a ≠ .frostClaims → ∀ r, r < 12 → (t.role r).frost = (u.role r).frost
  chained : ∀ c k n, a = .chainNotice c k n → (t.notice .chain).flag = true
  mismatch : ∀ l, (t.line l).mismatch = (u.line l).mismatch

theorem CalmStep.same {a : Act} (u : State) (h1 : a ≠ .sequenceClaims) (h2 : a ≠ .frostClaims)
    (h3 : ∀ c k n, a ≠ .chainNotice c k n) : CalmStep a u u where
  frame := OnlyCalm.refl u
  sized := id
  conds _ := rfl
  limit _ _ := rfl
  applied := id
  flags _ := id
  claimed h := absurd h h1
  claims _ _ _ := ⟨rfl, rfl⟩
  frosted h := absurd h h2
  frosts _ _ _ := rfl
  chained c k n h := absurd h (h3 c k n)
  mismatch _ := rfl

theorem onlyCalm_walkedFrom {i : CondInput} {u t : State} (hw : t = u.walkedFrom i) :
    OnlyCalm u t := by
  have e := State.walkedFrom_eq u i
  rw [← hw] at e
  unfold OnlyCalm
  generalize hc : t.conds = c at e
  subst e
  rfl

theorem State.raiseNotice_flag {s : State} (hl : s.gate.notices.length = 7) (k : NoticeKind) (content : List Byte) (j : NoticeKind) :
    ((s.raiseNotice k content).notice k).flag = true ∧
      ((s.notice j).flag = true → ((s.raiseNotice k content).notice j).flag = true) := by
  have set (j : NoticeKind) : (s.raiseNotice k content).notice j =
      if codeOf NoticeKind.all k = codeOf NoticeKind.all j ∧ codeOf NoticeKind.all j < s.gate.notices.length then
        { flag := true, newer := true, content := content } else s.notice j := getD_set _ _ _ _ _
  have below (j : NoticeKind) : codeOf NoticeKind.all j < s.gate.notices.length := by rw [hl]; cases j <;> decide
  refine ⟨by rw [set, if_pos ⟨rfl, below k⟩], fun h => ?_⟩
  rw [set]
  split
  · rfl
  · exact h

/-- A notice raised at the end of an event. -/
theorem CalmStep.notice {a : Act} {u : State} (hl : u.gate.notices.length = 7) (k : NoticeKind) (content : List Byte)
    (h1 : a ≠ .sequenceClaims) (h2 : a ≠ .frostClaims) (h3 : ∀ c j n, a = .chainNotice c j n → k = .chain) :
    CalmStep a u (u.raiseNotice k content) where
  frame := rfl
  sized h := by
    obtain ⟨h1, h2, h3, h4, h5, h6, h7, h8, h9, h10, h11⟩ := h
    exact ⟨h1, h2, h3, h4, h5, h6, h7, h8, h9, List.length_set.trans h10, h11⟩
  conds _ := rfl
  limit _ _ := rfl
  applied := id
  flags j := (State.raiseNotice_flag hl k content j).2
  claimed h := absurd h h1
  claims _ _ _ := ⟨rfl, rfl⟩
  frosted h := absurd h h2
  frosts _ _ _ := rfl
  chained c j n h := by
    have e := h3 c j n h
    subst e
    exact (State.raiseNotice_flag hl .chain content .chain).1
  mismatch _ := rfl

theorem State.appliedSlot_claims {s : State} (sized : s.sized) (f : Nat → RoleRun → RoleRun) {r : Nat} (hr : r < 12) :
    let x := f r (s.role r)
    let y := (s.appliedSlots f (List.range 12)).role r
    y.limit = x.limit ∧ y.lockout = x.lockout ∧ y.sequence = x.sequence ∧ y.frost = x.frost := by
  obtain ⟨same, changed⟩ := State.appliedSlots_alone sized f hr
  have roles : s.roles.length = 12 := by obtain ⟨-, -, -, -, -, roles, -⟩ := sized; exact roles
  dsimp only
  by_cases e : f r (s.role r) = s.role r
  · rw [(same e).1, e]
    exact ⟨rfl, rfl, rfl, rfl⟩
  · have kept := s.actedRole_claims false r (f r (s.role r))
    rw [(changed e).1, State.changedRole_role s false _ (by omega), if_pos rfl]
    exact ⟨kept.limit, kept.lockout, kept.sequence, kept.frost⟩

theorem State.appliedSlots_sized {s : State} (sized : s.sized) (f : Nat → RoleRun → RoleRun) (l : List Nat) :
    (s.appliedSlots f l).sized := by
  induction l generalizing s with
  | nil => exact sized
  | cons r l ih =>
    rw [State.appliedSlots_cons]
    refine ih ?_
    unfold State.appliedSlot
    split
    · exact sized
    · exact State.changedRole_sized false r _ sized

theorem State.appliedSlots_appliedLaw {s : State} (h : s.appliedLaw) (f : Nat → RoleRun → RoleRun) (l : List Nat) :
    (s.appliedSlots f l).appliedLaw := by
  induction l generalizing s with
  | nil => exact h
  | cons r l ih =>
    rw [State.appliedSlots_cons]
    refine ih ?_
    unfold State.appliedSlot
    split
    · exact h
    · exact State.changedRole_appliedLaw h false r _

theorem onlyCalm_appliedSlots (s : State) (f : Nat → RoleRun → RoleRun) (l : List Nat) : OnlyCalm s (s.appliedSlots f l) := by
  have e := State.appliedSlots_eq s f l
  generalize s.appliedSlots f l = t at e ⊢
  unfold OnlyCalm
  generalize ha : t.roles = a at e ⊢
  generalize hb : t.lines = b at e ⊢
  generalize hc : t.gate.slots = c at e ⊢
  subst e
  rfl

theorem State.appliedSlots_conds (s : State) (f : Nat → RoleRun → RoleRun) (l : List Nat) :
    (s.appliedSlots f l).conds = s.conds := by rw [State.appliedSlots_eq]

theorem State.changedRole_mismatch (s : State) (carried : Bool) (r : Nat) (x : RoleRun) (l : Nat) :
    ((s.changedRole carried r x).line l).mismatch = (s.line l).mismatch := by
  have commanded (u : State) (hu : u.lines = s.lines) (k : Nat) (on : Bool) :
      ((u.setLine k ((u.line k).command on)).line l).mismatch = (s.line l).mismatch := by
    have line (j : Nat) : u.line j = s.line j := by unfold State.line; rw [hu]
    have set : (u.setLine k ((u.line k).command on)).line l =
        if k = l ∧ l < u.lines.length then (u.line k).command on else u.line l := getD_set _ _ _ _ _
    rw [set]
    split
    · next h =>
      obtain ⟨rfl, -⟩ := h
      unfold LineRun.command
      rw [line]
      split <;> rfl
    · rw [line]
  unfold State.changedRole
  split
  · unfold State.ownerOnly
    split <;> rfl
  · unfold State.actOnTarget
    dsimp only
    split
    · exact commanded _ rfl _ _
    · split
      · rfl
      · unfold State.placeSub
        split <;> rfl
    · rfl

theorem State.appliedSlots_mismatch (s : State) (f : Nat → RoleRun → RoleRun) (l : List Nat) (k : Nat) :
    ((s.appliedSlots f l).line k).mismatch = (s.line k).mismatch := by
  induction l generalizing s with
  | nil => rfl
  | cons r l ih =>
    rw [State.appliedSlots_cons, ih]
    unfold State.appliedSlot
    split
    · rfl
    · exact State.changedRole_mismatch s false r _ k

theorem State.appliedSlots_notice (s : State) (f : Nat → RoleRun → RoleRun) (l : List Nat) (k : NoticeKind) :
    (s.appliedSlots f l).notice k = s.notice k := by rw [State.appliedSlots_eq]; rfl

theorem CalmStep.sequenceClaims {u : State} (h : u.sized) : CalmStep .sequenceClaims u (u.appliedSlots
    (fun r x => { x with sequence := u.sequenceClaim r, lockout := u.lockoutSlot r }) (List.range 12)) where
  frame := onlyCalm_appliedSlots _ _ _
  sized _ := State.appliedSlots_sized h _ _
  conds _ := State.appliedSlots_conds _ _ _
  limit r hr := (State.appliedSlot_claims h _ hr).1
  applied ha := State.appliedSlots_appliedLaw ha _ _
  flags k hk := by rw [State.appliedSlots_notice]; exact hk
  claimed _ r hr := by
    obtain ⟨-, lockout, sequence, -⟩ := State.appliedSlot_claims h
      (fun r x => { x with sequence := u.sequenceClaim r, lockout := u.lockoutSlot r }) hr
    exact ⟨sequence, lockout⟩
  claims k := absurd rfl k
  frosted k := nomatch k
  frosts _ r hr := by
    obtain ⟨-, -, -, frost⟩ := State.appliedSlot_claims h
      (fun r x => { x with sequence := u.sequenceClaim r, lockout := u.lockoutSlot r }) hr
    exact frost
  chained _ _ _ k := nomatch k
  mismatch l := State.appliedSlots_mismatch _ _ _ l

theorem CalmStep.frostClaims {u : State} (h : u.sized) : CalmStep .frostClaims u (u.appliedSlots
    (fun r x => { x with frost := u.frostClaim r }) (List.range 12)) where
  frame := onlyCalm_appliedSlots _ _ _
  sized _ := State.appliedSlots_sized h _ _
  conds _ := State.appliedSlots_conds _ _ _
  limit r hr := (State.appliedSlot_claims h _ hr).1
  applied ha := State.appliedSlots_appliedLaw ha _ _
  flags k hk := by rw [State.appliedSlots_notice]; exact hk
  claimed k := nomatch k
  claims _ r hr := by
    obtain ⟨-, lockout, sequence, -⟩ := State.appliedSlot_claims h (fun r x => { x with frost := u.frostClaim r }) hr
    exact ⟨sequence, lockout⟩
  frosted _ r hr := by
    obtain ⟨-, -, -, frost⟩ := State.appliedSlot_claims h (fun r x => { x with frost := u.frostClaim r }) hr
    exact frost
  frosts k := absurd rfl k
  chained _ _ _ k := nomatch k
  mismatch l := State.appliedSlots_mismatch _ _ _ l

end Sys2Proof.Machine
end

section
/-! SUPPORT. The end of a calm cascade. -/

namespace Sys2Proof.Machine

theorem walkAt_length (i : CondInput) (acc : State × List Nat) (c : Nat) :
    (walkAt i acc c).1.conds.length = acc.1.conds.length := by
  unfold walkAt
  dsimp only
  split
  · exact List.length_set
  · rfl

theorem foldl_walkAt_length (i : CondInput) (l : List Nat) (acc : State × List Nat) :
    (l.foldl (walkAt i) acc).1.conds.length = acc.1.conds.length := by
  induction l generalizing acc with
  | nil => rfl
  | cons c l ih => rw [List.foldl_cons, ih, walkAt_length]

theorem State.walked_length (s : State) (i : CondInput) : (s.walked i).conds.length = s.conds.length := by
  unfold State.walked walk
  exact foldl_walkAt_length i (List.range 32) (s, [])

theorem sized_of_conds {s t : State} {c : List CondRun} (h : s.sized) (e : t = { s with conds := c }) (hc : c.length = 32) :
    t.sized := by
  subst e
  obtain ⟨points, -, rest⟩ := h
  exact ⟨points, hc, rest⟩

theorem State.walked_sized {s : State} (h : s.sized) (i : CondInput) : (s.walked i).sized := by
  obtain ⟨-, conds, -⟩ := id h
  exact sized_of_conds h (State.walked_eq s i) ((State.walked_length s i).trans conds)

theorem bestTrigger_of_none {s : State} (h : s.noTriggers = true) : s.bestTrigger = none := by
  have idle (n : Nat) : (s.trigger n).stands = false := by
    unfold State.trigger
    rw [List.getD_eq_getElem?_getD]
    cases hn : s.seq.triggers[n]? with
    | none => rfl
    | some t => simpa using (List.all_eq_true.1 h) t (List.mem_of_getElem? hn)
  have fold (l : List Nat) : l.foldl (fun m n =>
      if (s.trigger n).stands then
        match m with
        | some b => if (s.tables.seq b).priority < (s.tables.seq n).priority then some n else some b
        | none => some n
      else m) none = none := by
    induction l with
    | nil => rfl
    | cons n l ih => rw [List.foldl_cons, idle, if_neg Bool.false_ne_true, ih]
  exact fold _

theorem actExamineTriggers_of_none {w : Work} (h : w.st.noTriggers = true) : act .examineTriggers w = w := by
  have e : act .examineTriggers w = actExamineTriggers w := rfl
  rw [e, actExamineTriggers, bestTrigger_of_none h]
  exact ite_self _

theorem actExamineDemand_of_idle {w : Work} (h : w.st.demandIdle) : act .examineDemand w = w :=
  if_neg (by rw [h]; exact Bool.false_ne_true)

/-- The work with another state and more to do. -/
def Work.extended (w : Work) (t : State) (pushed emitted : List Act) : Work := ((w.withSt t).push pushed).emit emitted

theorem Work.extended_nil (w : Work) : w.extended w.st [] [] = w := by simp [Work.extended, Work.withSt, Work.push, Work.emit]

theorem emit_eq_extended (w : Work) (t : State) (l : List Act) : (w.withSt t).emit l = w.extended t [] l := by
  simp [Work.extended, Work.withSt, Work.push, Work.emit]

theorem withSt_eq_extended (w : Work) (t : State) : w.withSt t = w.extended t [] [] := by
  simp [Work.extended, Work.withSt, Work.push, Work.emit]

theorem push_eq_extended (w : Work) (l : List Act) : w.push l = w.extended w.st l [] := by
  simp [Work.extended, Work.withSt, Work.push, Work.emit]

theorem walkedFrom_calm {u : State} (hi : ∀ c, i ≠ .hold c) (h : ¬ u.undisturbed) :
    CalmStep (.condWalk i) u (u.walkedFrom i) := by
  rw [State.walkedFrom_of_no_hold hi]
  have roles := State.walked_roles u i
  have role (r : Nat) : (u.walked i).role r = u.role r := by unfold State.role; rw [roles]
  have lines : (u.walked i).lines = u.lines := by rw [State.walked_eq]
  have notice (k : NoticeKind) : (u.walked i).notice k = u.notice k := by
    unfold State.notice
    rw [show (u.walked i).gate = u.gate by rw [State.walked_eq]]
  exact {
    frame := onlyCalm_walkedFrom (State.walkedFrom_of_no_hold hi).symm
    sized := fun s => State.walked_sized s i
    conds := fun k => absurd k h
    limit := fun r _ => by rw [role]
    applied := fun ha => by unfold State.appliedLaw; rw [roles]; exact ha
    flags := fun k hk => by rw [notice]; exact hk
    claimed := fun k => (nomatch k)
    claims := fun _ r _ => by rw [role]; exact ⟨rfl, rfl⟩
    frosted := fun k => (nomatch k)
    frosts := fun _ r _ => by rw [role]
    chained := fun _ _ _ k => (nomatch k)
    mismatch := fun l => by unfold State.line; rw [lines] }

/-- What a calm action does: a calm step of the state, and calm actions of less weight to follow. -/
structure CalmAct (a : Act) (w : Work) : Prop where
  shape : ∃ t pushed emitted, act a w = w.extended t pushed emitted ∧ CalmStep a w.st t ∧
    (∀ x ∈ pushed ++ emitted, w.st.calms x) ∧ (pushed.map calmWeight).sum + (emitted.map calmWeight).sum < calmWeight a

theorem CalmAct.of_moved {a : Act} {w : Work} (t : State) (emitted : List Act) (e : act a w = (w.withSt t).emit emitted)
    (step : CalmStep a w.st t) (calm : ∀ x ∈ emitted, w.st.calms x) (light : (emitted.map calmWeight).sum < calmWeight a) :
    CalmAct a w :=
  ⟨t, [], emitted, e.trans (emit_eq_extended w t emitted), step, calm, by simpa using light⟩

theorem CalmAct.of_kept {a : Act} {w : Work} (t : State) (e : act a w = w.withSt t) (step : CalmStep a w.st t) : CalmAct a w :=
  ⟨t, [], [], e.trans (withSt_eq_extended w t), step, fun x hx => (nomatch hx), by cases a <;> simp [calmWeight]⟩

theorem CalmAct.idle {a : Act} {w : Work} (h : act a w = w) (h1 : a ≠ .sequenceClaims) (h2 : a ≠ .frostClaims)
    (h3 : ∀ c k n, a ≠ .chainNotice c k n) : CalmAct a w := by
  refine ⟨w.st, [], [], by rw [Work.extended_nil, h], CalmStep.same _ h1 h2 h3, fun _ hx => (nomatch hx), ?_⟩
  cases a <;> simp [calmWeight]

theorem CalmAct.slots {a : Act} {w : Work} (h : w.st.sized) {f : Nat → RoleRun → RoleRun} (e : act a w = applySlots f w)
    (step : CalmStep a w.st (w.st.appliedSlots f (List.range 12))) (heavy : calmWeight a = 40) : CalmAct a w := by
  refine CalmAct.of_moved (w.st.appliedSlots f (List.range 12))
    (((List.range 12).filter (w.st.movesApplied f)).map fun r => .condWalk (.role r)) (e.trans (applySlots_eq f h)) step
    (fun x hx => ?_) ?_
  · obtain ⟨r, -, rfl⟩ := List.mem_map.1 hx
    trivial
  · have few : ((List.range 12).filter (w.st.movesApplied f)).length ≤ 12 :=
      Nat.le_trans (List.length_filter_le _ _) (Nat.le_of_eq List.length_range)
    have sum : ∀ l : List Nat, ((l.map fun r => Act.condWalk (.role r)).map calmWeight).sum = 3 * l.length := by
      intro l
      induction l with
      | nil => rfl
      | cons r l ih => rw [List.map_cons, List.map_cons, List.sum_cons, ih, List.length_cons]; simp only [calmWeight]; omega
    rw [sum, heavy]
    omega

theorem calmAct_of_calms {a : Act} {w : Work} (hn : w.st.phase = .normal) (hs : w.st.sized)
    (quiet : w.st.undisturbed ∨ w.st.unheeded) (h : w.st.calms a) : CalmAct a w := by
  have notices : w.st.gate.notices.length = 7 := by obtain ⟨-, -, -, -, -, -, -, -, -, notices, -⟩ := hs; exact notices
  cases a with
  | condWalk i =>
    by_cases watched : w.st.undisturbed
    · exact CalmAct.idle (actCondWalk_undisturbed watched h) (fun k => nomatch k) (fun k => nomatch k)
        (fun _ _ _ k => nomatch k)
    · have unheeded := quiet.resolve_left watched
      have e := actCondWalk_of_normal hn (i := i)
      split at e
      · exact CalmAct.of_kept (w.st.walkedFrom i) e (walkedFrom_calm h.not_hold watched)
      · refine CalmAct.of_moved (w.st.walkedFrom i) _ e (walkedFrom_calm h.not_hold watched) (fun x hx => ?_) (by simp [calmWeight])
        cases List.mem_singleton.1 hx
        exact unheeded
  | handoff set =>
    refine ⟨w.st, [.applyTriggers set], [], ?_, CalmStep.same _ (fun k => nomatch k) (fun k => nomatch k) (fun _ _ _ k => nomatch k),
      ?_, by simp [calmWeight]⟩
    · have e : act (.handoff set) w = w.push [.applyTriggers set] := actHandoff_unheeded h set
      exact e.trans (push_eq_extended w _)
    · intro x hx
      cases List.mem_singleton.1 hx
      exact State.unasked_of_unheeded h set
  | applyTriggers set =>
    exact CalmAct.idle (actApplyTriggers_unasked h) (fun k => nomatch k) (fun k => nomatch k) (fun _ _ _ k => nomatch k)
  | examineTriggers =>
    exact CalmAct.idle (actExamineTriggers_of_none h) (fun k => nomatch k) (fun k => nomatch k) (fun _ _ _ k => nomatch k)
  | examineDemand =>
    exact CalmAct.idle (actExamineDemand_of_idle h) (fun k => nomatch k) (fun k => nomatch k) (fun _ _ _ k => nomatch k)
  | frostClaims => exact CalmAct.slots hs (if_pos (State.normal_of_phase hn)) (CalmStep.frostClaims hs) rfl
  | sequenceClaims => exact CalmAct.slots hs (if_pos (State.normal_of_phase hn)) (CalmStep.sequenceClaims hs) rfl
  | frostNotice c =>
    exact CalmAct.of_kept (w.st.raiseNotice .frost (w.st.frostContent c)) rfl (CalmStep.notice notices .frost (w.st.frostContent c)
      (fun k => nomatch k) (fun k => nomatch k) (fun _ _ _ k => nomatch k))
  | chainNotice c k n =>
    exact CalmAct.of_kept (w.st.raiseNotice .chain (w.st.chainContent c k n)) rfl (CalmStep.notice notices .chain (w.st.chainContent c k n)
      (fun k => nomatch k) (fun k => nomatch k) (fun _ _ _ _ => rfl))
  | traceNotice half =>
    exact CalmAct.of_kept (w.st.raiseNotice .trace (w.st.traceContent half)) rfl (CalmStep.notice notices .trace (w.st.traceContent half)
      (fun k => nomatch k) (fun k => nomatch k) (fun _ _ _ k => nomatch k))
  | _ => exact absurd h id

/-! ### The whole of a calm cascade -/

/-- What waits in a work. -/
def Work.waits (w : Work) : List Act := w.stack ++ w.fins ++ w.emitted ++ w.queue

theorem Work.take_waits {w w' : Work} {a : Act} (h : w.take = some (a, w')) :
    a ∈ w.waits ∧ (∀ x ∈ w'.waits, x ∈ w.waits) ∧ (∀ x ∈ w.waits, x = a ∨ x ∈ w'.waits) ∧ (∀ x ∈ w.fins, x = a ∨ x ∈ w'.fins) := by
  unfold Work.take at h
  split at h
  · next hs =>
    simp only [Option.some.injEq, Prod.mk.injEq] at h
    obtain ⟨rfl, rfl⟩ := h
    simp only [Work.waits, hs]
    refine ⟨by simp, fun x hx => by simp_all, fun x hx => by simp_all, fun x hx => .inr hx⟩
  · next hs =>
    split at h
    · next hf =>
      simp only [Option.some.injEq, Prod.mk.injEq] at h
      obtain ⟨rfl, rfl⟩ := h
      simp only [Work.waits, hs, hf]
      refine ⟨by simp, fun x hx => by simp_all, fun x hx => by simp_all, fun x hx => by simp_all⟩
    · next hf =>
      split at h
      · next hq =>
        simp only [Option.some.injEq, Prod.mk.injEq] at h
        obtain ⟨rfl, rfl⟩ := h
        have e : w.waits = w.emitted ++ w.queue := by simp [Work.waits, hs, hf]
        rw [e, hq, hf]
        simp only [Work.waits, List.nil_append]
        exact ⟨List.mem_cons_self, fun x hx => List.mem_cons_of_mem _ hx, fun x hx => List.mem_cons.1 hx, fun x hx => nomatch hx⟩
      · cases h

theorem Work.take_none {w : Work} (h : w.take = none) : w.waits = [] := by
  unfold Work.take at h
  split at h
  · cases h
  · next hs =>
    split at h
    · cases h
    · next hf =>
      split at h
      · cases h
      · next hq => simp only [Work.waits, hs, hf, hq, List.nil_append]

/-- A calm cascade that began with `w₀`, at `w`. -/
structure Calm (w₀ w : Work) : Prop where
  frame : OnlyCalm w₀.st w.st
  sized : w.st.sized
  waits : ∀ a ∈ w.waits, w₀.st.calms a
  conds : w₀.st.undisturbed → w.st.conds = w₀.st.conds
  limit : ∀ r, r < 12 → (w.st.role r).limit = (w₀.st.role r).limit
  applied : w₀.st.appliedLaw → w.st.appliedLaw
  flags : ∀ k, (w₀.st.notice k).flag = true → (w.st.notice k).flag = true
  claims : .sequenceClaims ∈ w₀.waits → .sequenceClaims ∈ w.waits ∨
    ∀ r, r < 12 → (w.st.role r).sequence = w₀.st.sequenceClaim r ∧ (w.st.role r).lockout = w₀.st.lockoutSlot r
  still : .sequenceClaims ∉ w₀.waits → .sequenceClaims ∉ w.waits ∧
    ∀ r, r < 12 → (w.st.role r).sequence = (w₀.st.role r).sequence ∧ (w.st.role r).lockout = (w₀.st.role r).lockout
  frosts : .frostClaims ∈ w₀.waits → .frostClaims ∈ w.waits ∨ ∀ r, r < 12 → (w.st.role r).frost = w₀.st.frostClaim r
  thawed : .frostClaims ∉ w₀.waits → .frostClaims ∉ w.waits ∧ ∀ r, r < 12 → (w.st.role r).frost = (w₀.st.role r).frost
  chained : ∀ c k n, .chainNotice c k n ∈ w₀.waits → .chainNotice c k n ∈ w.waits ∨ (w.st.notice .chain).flag = true
  mismatch : ∀ l, (w.st.line l).mismatch = (w₀.st.line l).mismatch

theorem Calm.start {w : Work} (hs : w.st.sized) (h : ∀ a ∈ w.waits, w.st.calms a) : Calm w w where
  frame := OnlyCalm.refl _
  sized := hs
  waits := h
  conds _ := rfl
  limit _ _ := rfl
  applied := id
  flags _ := id
  claims := .inl
  still h := ⟨h, fun _ _ => ⟨rfl, rfl⟩⟩
  frosts := .inl
  thawed h := ⟨h, fun _ _ => rfl⟩
  chained _ _ _ := .inl
  mismatch _ := rfl

theorem Work.extended_waits (w : Work) (t : State) (pushed emitted : List Act) (x : Act) :
    x ∈ (w.extended t pushed emitted).waits ↔ x ∈ pushed ∨ x ∈ emitted ∨ x ∈ w.waits := by
  simp only [Work.extended, Work.waits, Work.withSt, Work.push, Work.emit, List.mem_append]
  grind

theorem calmWeight_claims {x : Act} (h : x = .sequenceClaims ∨ x = .frostClaims) : calmWeight x = 40 := by
  rcases h with rfl | rfl <;> rfl

theorem weight_le_sum {x : Act} {l : List Act} (h : x ∈ l) : calmWeight x ≤ (l.map calmWeight).sum := by
  induction l with
  | nil => cases h
  | cons a l ih =>
    rw [List.map_cons, List.sum_cons]
    rcases List.mem_cons.1 h with rfl | below
    · exact Nat.le_add_right _ _
    · exact Nat.le_trans (ih below) (Nat.le_add_left _ _)

theorem calmWeight_le (a : Act) : calmWeight a ≤ 40 := by cases a <;> simp [calmWeight]

theorem Calm.next {w₀ w w' : Work} {a : Act} (hn : w₀.st.phase = .normal) (quiet : w₀.st.undisturbed ∨ w₀.st.unheeded)
    (h : Calm w₀ w) (ht : w.take = some (a, w')) :
    Calm w₀ (act a w') ∧ (act a w').weight calmWeight < w.weight calmWeight := by
  obtain ⟨taken, inside, others, -⟩ := Work.take_waits ht
  have st := Work.take_st ht
  have frame : OnlyCalm w₀.st w'.st := by rw [st]; exact h.frame
  have matters := frame.matters
  have sized' : w'.st.sized := by rw [st]; exact h.sized
  have undisturbed (k : w₀.st.undisturbed) : w'.st.undisturbed := fun c hc => by rw [frame.tables]; exact k c hc
  obtain ⟨t, pushed, emitted, shape, step, calm, light⟩ := calmAct_of_calms (w := w') (a := a) (frame.phase.trans hn) sized'
    (quiet.imp undisturbed fun k => unheeded_of_eq k frame.tables frame.seq) (by rw [matters.calms]; exact h.waits a taken)
  have heavy (x : Act) (hx : x = .sequenceClaims ∨ x = .frostClaims) : ¬ (x ∈ pushed ∨ x ∈ emitted) := fun k => by
    have := calmWeight_claims hx
    have := calmWeight_le a
    rcases k with k | k
    · have := weight_le_sum k; omega
    · have := weight_le_sum k; omega
  have stays (x : Act) (hx : x ∈ w.waits) (ne : x ≠ a) : x ∈ (w'.extended t pushed emitted).waits :=
    (Work.extended_waits _ _ _ _ _).2 (.inr (.inr ((others x hx).resolve_left ne)))
  have comes (x : Act) (hx : x = .sequenceClaims ∨ x = .frostClaims) (k : x ∈ (w'.extended t pushed emitted).waits) : x ∈ w.waits := by
    rcases (Work.extended_waits _ _ _ _ _).1 k with k | k | k
    · exact absurd (.inl k) (heavy x hx)
    · exact absurd (.inr k) (heavy x hx)
    · exact inside x k
  have st' : (w'.extended t pushed emitted).st = t := rfl
  rw [st] at step
  rw [shape]
  refine ⟨⟨?_, ?_, fun x hx => ?_, fun k => ?_, fun r hr => ?_, fun k => ?_, fun k hk => ?_, fun k => ?_, fun k => ?_, fun k => ?_,
    fun k => ?_, fun c j n k => ?_, fun l => ?_⟩, ?_⟩
  · rw [st']; exact h.frame.trans step.frame
  · rw [st']; exact step.sized h.sized
  · rcases (Work.extended_waits _ _ _ _ _).1 hx with k | k | k
    · rw [← matters.calms]; exact calm x (List.mem_append_left _ k)
    · rw [← matters.calms]; exact calm x (List.mem_append_right _ k)
    · exact h.waits x (inside x k)
  · rw [st', step.conds (by rw [← st]; exact undisturbed k), h.conds k]
  · rw [st', step.limit r hr, h.limit r hr]
  · rw [st']; exact step.applied (h.applied k)
  · rw [st']; exact step.flags k (h.flags k hk)
  · by_cases ha : a = .sequenceClaims
    · refine .inr fun r hr => ?_
      obtain ⟨sequence, lockout⟩ := step.claimed ha r hr
      rw [st', sequence, lockout, h.frame.matters.sequenceClaim, h.frame.matters.lockoutSlot]
      exact ⟨rfl, rfl⟩
    · rcases h.claims k with k | k
      · exact .inl (stays _ k (Ne.symm ha))
      · refine .inr fun r hr => ?_
        obtain ⟨sequence, lockout⟩ := step.claims ha r hr
        rw [st', sequence, lockout]
        exact k r hr
  · obtain ⟨none, same⟩ := h.still k
    have ha : a ≠ .sequenceClaims := fun e => none (e ▸ taken)
    refine ⟨fun m => none (comes _ (.inl rfl) m), fun r hr => ?_⟩
    obtain ⟨sequence, lockout⟩ := step.claims ha r hr
    rw [st', sequence, lockout]
    exact same r hr
  · by_cases ha : a = .frostClaims
    · refine .inr fun r hr => ?_
      rw [st', step.frosted ha r hr, h.frame.matters.frostClaim]
    · rcases h.frosts k with k | k
      · exact .inl (stays _ k (Ne.symm ha))
      · exact .inr fun r hr => by rw [st', step.frosts ha r hr]; exact k r hr
  · obtain ⟨none, same⟩ := h.thawed k
    have ha : a ≠ .frostClaims := fun e => none (e ▸ taken)
    exact ⟨fun m => none (comes _ (.inr rfl) m), fun r hr => by rw [st', step.frosts ha r hr]; exact same r hr⟩
  · rcases h.chained c j n k with k | k
    · by_cases ha : .chainNotice c j n = a
      · exact .inr (by rw [st']; exact step.chained c j n ha.symm)
      · exact .inl (stays _ k ha)
    · exact .inr (by rw [st']; exact step.flags _ k)
  · rw [st', step.mismatch, h.mismatch]
  · have := Work.take_weight calmWeight ht
    have weight : (w'.extended t pushed emitted).weight calmWeight =
        (pushed.map calmWeight).sum + (emitted.map calmWeight).sum + w'.weight calmWeight := by
      unfold Work.extended
      rw [Work.weight_emit, Work.weight_push, Work.weight_withSt]
      omega
    omega

/-- How a calm cascade ends. -/
theorem finish_calm {w : Work} (hn : w.st.phase = .normal) (hs : w.st.sized) (quiet : w.st.undisturbed ∨ w.st.unheeded)
    (h : ∀ a ∈ w.waits, w.st.calms a) (light : w.weight calmWeight ≤ Config.cascadeLimit) :
    ∃ e : Work, Calm w e ∧ e.waits = [] ∧ finish w = .next e.st.arbitrate := by
  obtain ⟨e, calm, none, run⟩ := runWork_ends (Calm w) calmWeight (fun a v v' ht hv => hv.next hn quiet ht)
    (w.weight calmWeight) w (Calm.start hs h) (Nat.le_refl _)
  exact ⟨e, calm, Work.take_none none, finish_next light run⟩

end Sys2Proof.Machine
end

section
/-! SUPPORT. What the shared operations of the Sequence and Fault Units hand on: actions that move nothing, of bounded weight;
and what they make of the trace, which depends on the Trace Unit, the clock and the tables alone. -/

namespace Sys2Proof.Machine

/-! ### Actions that move nothing from any state -/

/-- Actions that never move the chain or the faults. -/
def Act.tame : Act → Prop
  | .condWalk i => i.remote
  | .frostClaims => True
  | .sequenceClaims => True
  | .frostNotice _ => True
  | .chainNotice _ _ _ => True
  | .traceNotice _ => True
  | _ => False

theorem Act.tame.calms {a : Act} (h : a.tame) (s : State) : s.calms a := by
  cases a with
  | condWalk i => exact h
  | frostClaims | sequenceClaims | frostNotice c | chainNotice c k n | traceNotice half => exact trivial
  | _ => exact absurd h id

/-- The work `w'` has what `w` has to do, and actions that never move anything, of weight `m` at most. -/
structure Adds (m : Nat) (w w' : Work) : Prop where
  stack : w'.stack = w.stack
  stays : ∀ a ∈ w.waits, a ∈ w'.waits
  fresh : ∀ a ∈ w'.waits, a ∈ w.waits ∨ a.tame
  weight : w'.weight calmWeight ≤ w.weight calmWeight + m

theorem Adds.trans {m n : Nat} {a b c : Work} (h : Adds m a b) (g : Adds n b c) : Adds (m + n) a c where
  stack := g.stack.trans h.stack
  stays x hx := g.stays x (h.stays x hx)
  fresh x hx := (g.fresh x hx).elim (h.fresh x) .inr
  weight := by have := h.weight; have := g.weight; omega

theorem Adds.mono {m n : Nat} {a b : Work} (h : Adds m a b) (hm : m ≤ n) : Adds n a b where
  stack := h.stack
  stays := h.stays
  fresh := h.fresh
  weight := by have := h.weight; omega

theorem adds_withSt (w : Work) (t : State) : Adds 0 w (w.withSt t) := ⟨rfl, fun _ h => h, fun _ h => .inl h, Nat.le_refl _⟩

theorem adds_refl (w : Work) : Adds 0 w w := adds_withSt w w.st

theorem Work.fin_waits (w : Work) (a x : Act) : x ∈ (w.fin a).waits ↔ x ∈ w.waits ∨ x = a := by
  by_cases e : x = a <;> simp [Work.waits, Work.fin, e]

theorem Work.emit_waits (w : Work) (l : List Act) (x : Act) : x ∈ (w.emit l).waits ↔ x ∈ w.waits ∨ x ∈ l := by
  simp only [Work.waits, Work.emit, List.mem_append]
  grind

theorem Work.push_waits (w : Work) (l : List Act) (x : Act) : x ∈ (w.push l).waits ↔ x ∈ w.waits ∨ x ∈ l := by
  simp only [Work.waits, Work.push, List.mem_append]
  grind

theorem adds_fin (w : Work) {a : Act} (h : a.tame) : Adds (calmWeight a) w (w.fin a) where
  stack := rfl
  stays x hx := (w.fin_waits a x).2 (.inl hx)
  fresh x hx := by
    rcases (w.fin_waits a x).1 hx with k | rfl
    · exact .inl k
    · exact .inr h
  weight := by have := w.weight_fin calmWeight a; omega

theorem adds_emit (w : Work) {l : List Act} (h : ∀ a ∈ l, a.tame) : Adds (l.map calmWeight).sum w (w.emit l) where
  stack := rfl
  stays x hx := (w.emit_waits l x).2 (.inl hx)
  fresh x hx := ((w.emit_waits l x).1 hx).imp_right (h x)
  weight := by rw [Work.weight_emit]; omega

theorem adds_setTrace (w : Work) (t : TraceUnit) : Adds 2 w (w.setTrace t) := by
  have half (v : Work) (n : Nat) : Adds 1 v (v.fin (.traceNotice n)) := adds_fin v (a := .traceNotice n) trivial
  unfold Work.setTrace
  dsimp only
  have start := adds_withSt w (w.st.setTrace t)
  split
  · split
    · exact (start.trans (half _ 0)).trans (half _ 1)
    · exact (start.trans (half _ 1)).mono (Nat.le_succ 1)
  · split
    · exact (start.trans (half _ 0)).mono (Nat.le_succ 1)
    · exact start.mono (Nat.zero_le 2)

theorem adds_trace (w : Work) (k : TraceKind) : Adds 2 w (w.trace k) := by
  unfold Work.trace
  split
  · split
    · exact adds_setTrace w _
    · exact (adds_refl w).mono (by omega)
  · exact (adds_refl w).mono (by omega)

theorem adds_traceTop (w : Work) (n : Nat) : Adds 2 w (w.traceTop n) := by
  unfold Work.traceTop
  split
  · exact ((adds_withSt w _).trans (adds_trace _ _)).mono (by omega)
  · exact (adds_refl w).mono (by omega)

theorem adds_traceFinish (w : Work) : Adds 2 w w.traceFinish := by
  unfold Work.traceFinish
  split
  · split
    · dsimp only
      split
      · exact (adds_withSt w _).mono (by omega)
      · exact adds_setTrace w _
    · exact (adds_refl w).mono (by omega)
  · exact (adds_refl w).mono (by omega)

theorem adds_setFlue (w : Work) (f : FlueRun) : Adds 3 w (w.setFlue f) := by
  unfold Work.setFlue
  dsimp only
  split
  · exact (adds_withSt w _).mono (by omega)
  · refine ((adds_withSt w _).trans (adds_emit _ fun a ha => ?_)).mono (by simp [calmWeight])
    cases List.mem_singleton.1 ha
    exact trivial

theorem adds_frostMoved (l : List Nat) (w : Work) : Adds l.length w (w.frostMoved l) := by
  unfold Work.frostMoved
  induction l generalizing w with
  | nil => exact adds_refl w
  | cons c l ih =>
    rw [List.foldl_cons]
    have first : Adds 1 w (w.fin (.frostNotice c)) := adds_fin w (a := .frostNotice c) trivial
    exact (first.trans (ih _)).mono (by rw [List.length_cons]; omega)

theorem movedCircuits_length (s t : State) : (movedCircuits s t).length ≤ 6 :=
  Nat.le_trans (List.length_filter_le _ _) (Nat.le_of_eq List.length_range)

theorem claimsIfMoved_tame (moved : List Nat) : (∀ a ∈ claimsIfMoved moved, a.tame) ∧ ((claimsIfMoved moved).map calmWeight).sum ≤ 40 := by
  unfold claimsIfMoved
  split
  · exact ⟨fun a ha => (nomatch ha), by simp⟩
  · refine ⟨fun a ha => ?_, by simp [calmWeight]⟩
    cases List.mem_singleton.1 ha
    trivial

theorem adds_mapCircuits (f : CircuitEntry → CircuitRun → CircuitRun) (w : Work) : Adds 46 w (mapCircuits f w) := by
  unfold mapCircuits
  dsimp only
  generalize movedCircuits w.st _ = moved, movedCircuits_length w.st _ = few
  obtain ⟨tame, light⟩ := claimsIfMoved_tame moved
  exact (((adds_withSt w _).trans (adds_emit _ tame)).trans (adds_frostMoved moved _)).mono (by omega)

theorem adds_claims (w : Work) : Adds 40 w (w.fin .sequenceClaims) :=
  adds_fin w (a := .sequenceClaims) trivial

theorem adds_chainNotice (w : Work) (c : Option Cause) (k : SwitchKind) (n : Option Nat) : Adds 1 w (w.fin (.chainNotice c k n)) :=
  adds_fin w (a := .chainNotice c k n) trivial

theorem adds_leaveHead (w : Work) : Adds 86 w (leaveHead w) := by
  unfold leaveHead
  split
  · exact (((adds_withSt w _).trans (adds_mapCircuits _ _)).trans (adds_claims _)).mono (by omega)
  · exact (adds_refl w).mono (by omega)

theorem adds_joinTop (n : Nat) (w : Work) : Adds 88 w (joinTop n w) :=
  (((adds_withSt w _).trans (adds_mapCircuits _ _)).trans (adds_traceTop _ n)).trans (adds_claims _)

theorem adds_applyArming (k : Nat) (w : Work) : Adds 3 w (applyArming k w) := by
  unfold applyArming
  split
  · exact adds_setFlue w _
  · exact (adds_refl w).mono (by omega)

/-! ### What the trace makes of an event -/

/-- Two works in which the Trace Unit, the clock and the tables are the same. -/
structure AsRecorded (v w : Work) : Prop where
  trace : w.st.trace = v.st.trace
  clock : w.st.clock = v.st.clock
  tables : w.st.tables = v.st.tables

theorem Work.trace_st (w : Work) (k : TraceKind) : (w.trace k).st = w.st.setTrace (w.trace k).st.trace := by
  unfold Work.trace
  split
  · split
    · rw [Work.setTrace_st]; rfl
    · rfl
  · rfl

theorem Work.traceTop_st (w : Work) (n : Nat) : (w.traceTop n).st = w.st.setTrace (w.traceTop n).st.trace := by
  unfold Work.traceTop
  split
  · dsimp only
    rw [Work.trace_st]
    rfl
  · rfl

theorem Work.traceFinish_st (w : Work) : w.traceFinish.st = w.st.setTrace w.traceFinish.st.trace := by
  unfold Work.traceFinish
  split
  · split
    · dsimp only
      split
      · rfl
      · rw [Work.setTrace_st]; rfl
    · rfl
  · rfl

theorem AsRecorded.entry {v w : Work} (h : AsRecorded v w) (r : OpenRecord) (k : TraceKind) :
    traceEntry w.st r k = traceEntry v.st r k := by simp only [traceEntry, offsetOf, h.trace, h.clock]

theorem AsRecorded.of_sets {v w v' w' : Work} (h : AsRecorded v w) (hv : v'.st = v.st.setTrace v'.st.trace)
    (hw : w'.st = w.st.setTrace w'.st.trace) (e : w'.st.trace = v'.st.trace) : AsRecorded v' w' where
  trace := e
  clock := by rw [hv, hw]; exact h.clock
  tables := by rw [hv, hw]; exact h.tables

theorem AsRecorded.traced {v w : Work} (h : AsRecorded v w) (k : TraceKind) : AsRecorded (v.trace k) (w.trace k) := by
  refine h.of_sets (v.trace_st k) (w.trace_st k) ?_
  unfold Work.trace
  rw [h.trace]
  cases v.st.trace.opened with
  | none => exact h.trace
  | some r =>
    dsimp only
    split
    · rw [Work.setTrace_st, Work.setTrace_st, h.entry]; rfl
    · exact h.trace

theorem AsRecorded.replaced {v w : Work} (h : AsRecorded v w) (t : TraceUnit) :
    AsRecorded (v.withSt (v.st.setTrace t)) (w.withSt (w.st.setTrace t)) := ⟨rfl, h.clock, h.tables⟩

theorem AsRecorded.top {v w : Work} (h : AsRecorded v w) (n : Nat) : AsRecorded (v.traceTop n) (w.traceTop n) := by
  unfold Work.traceTop
  rw [h.tables, h.trace]
  split
  · dsimp only
    rw [h.clock]
    exact (h.replaced _).traced _
  · exact h

theorem AsRecorded.ended {v w : Work} (h : AsRecorded v w) : AsRecorded v.traceFinish w.traceFinish := by
  refine h.of_sets v.traceFinish_st w.traceFinish_st ?_
  unfold Work.traceFinish
  rw [h.trace]
  cases v.st.trace.opened with
  | none => exact h.trace
  | some r =>
    have offset : offsetOf w.st r = offsetOf v.st r := by simp only [offsetOf, h.clock]
    dsimp only
    split
    · split
      · rw [offset]; rfl
      · rw [Work.setTrace_st, Work.setTrace_st, offset]; rfl
    · exact h.trace

theorem AsRecorded.kinds {v w : Work} (h : AsRecorded v w) (kinds : List TraceKind) :
    AsRecorded (kinds.foldl Work.trace v) (kinds.foldl Work.trace w) := by
  induction kinds generalizing v w with
  | nil => exact h
  | cons k l ih => exact ih (h.traced k)

theorem asRecorded_idle (w : Work) : AsRecorded (Work.idle w.st) w := ⟨rfl, rfl, rfl⟩

/-- Whatever else has changed in between. -/
theorem AsRecorded.then {u v w : Work} (h : AsRecorded u v) (g : AsRecorded v w) : AsRecorded u w :=
  ⟨g.trace.trans h.trace, g.clock.trans h.clock, g.tables.trans h.tables⟩

end Sys2Proof.Machine
end

section
/-! SUPPORT. The entry of a step and of a sequence, and the quiet end of the event in which it happens: O25. -/

namespace Sys2Proof.Machine

/-! ### The state after an entered step (R62) -/

/-- The running-step record of an entered step, with the allowance of R53. -/
def State.enteredRun (s : State) (k : Nat) : Running :=
  runningOf (s.tables.step k) k 0 (if (s.tables.step k).warmup then some (allowanceNow s) else none)

/-- The Flue Unit after the entry of step `k` (R48, R53). -/
def State.enteredFlue (s : State) (k : Nat) : FlueRun :=
  let f := if (s.tables.step k).warmup then { s.flue with allowance := some (allowanceNow s), allowanceFrom := s.flueTemp } else s.flue
  if (s.tables.step k).armRise then armedFlue (s.setFlue f) else f

/-- The Sequence Unit after the entry of step `k` of S`n` (R62 actions 1, 2 and 4). -/
def State.enteredUnit (s : State) (n k : Nat) : SeqUnit :=
  { s.seq with
    running := some (s.enteredRun k)
    runs := if (s.tables.step k).success then s.seq.runs.set n { s.seqRun n with recycle := 0 } else s.seq.runs }

/-- The state after the entry of step `k` as the step of S`n`, before the end of the event. -/
def State.entered (s : State) (n k : Nat) : State :=
  { s with seq := s.enteredUnit n k, flue := s.enteredFlue k, trace := s.traced [.step n k] }

theorem startStep_eq (n k : Nat) (s : State) : startStep n k s =
    s.setSeq { s.seq with
      running := some (runningOf (s.tables.step k) k 0 none)
      runs := if (s.tables.step k).success then s.seq.runs.set n { s.seqRun n with recycle := 0 } else s.seq.runs } := by
  unfold startStep
  dsimp only
  by_cases success : (s.tables.step k).success = true
  · rw [if_pos success]; exact if_pos success
  · rw [if_neg success]; exact if_neg success

theorem applyAllowance_startStep (n k : Nat) (s : State) : applyAllowance k (startStep n k s) =
    { s with
      seq := s.enteredUnit n k
      flue := if (s.tables.step k).warmup then { s.flue with allowance := some (allowanceNow s), allowanceFrom := s.flueTemp }
        else s.flue } := by
  rw [startStep_eq]
  unfold applyAllowance State.enteredUnit State.enteredRun
  by_cases warmup : (s.tables.step k).warmup = true
  · rw [if_pos warmup, if_pos warmup]; exact if_pos warmup
  · rw [if_neg warmup, if_neg warmup]; exact if_neg warmup

/-- The work of an entry before its outcome is judged. -/
def Work.entering (w : Work) (n k : Nat) : Work :=
  (applyArming k (((w.withSt (startStep n k w.st)).fin .sequenceClaims).withSt (applyAllowance k (startStep n k w.st)))).trace (.step n k)

theorem actStepEntry_eq {w : Work} {n : Nat} (h : w.st.top = some n) (k : Nat) :
    actStepEntry k w = entryOutcome n k (w.entering n k) := by
  unfold actStepEntry
  rw [h]
  rfl

theorem Work.entering_st (w : Work) (n k : Nat) : (w.entering n k).st = w.st.entered n k := by
  have armed : (applyArming k (((w.withSt (startStep n k w.st)).fin .sequenceClaims).withSt (applyAllowance k (startStep n k w.st)))).st
      = { w.st with seq := w.st.enteredUnit n k, flue := w.st.enteredFlue k } := by
    unfold applyArming State.enteredFlue
    rw [Work.withSt_st, applyAllowance_startStep]
    by_cases arm : (w.st.tables.step k).armRise = true
    · rw [if_pos arm, if_pos arm, Work.armRise, Work.setFlue_st]; rfl
    · rw [if_neg arm, if_neg arm]; rfl
  unfold Work.entering
  generalize applyArming k _ = v at armed ⊢
  have recorded : AsRecorded (Work.idle w.st) v := ⟨by rw [armed]; rfl, by rw [armed]; rfl, by rw [armed]; rfl⟩
  rw [Work.trace_st, armed, (recorded.traced (.step n k)).trace]
  rfl

theorem Work.entering_adds (w : Work) (n k : Nat) : Adds 45 w (w.entering n k) :=
  ((((adds_withSt w _).trans (adds_claims _)).trans (adds_withSt _ _)).trans (adds_applyArming k _)).trans (adds_trace _ _)

theorem adds_sequenceClaims {m : Nat} {w v : Work} (h : Adds m (w.fin .sequenceClaims) v) : .sequenceClaims ∈ v.waits :=
  h.stays _ ((w.fin_waits .sequenceClaims _).2 (.inr rfl))

theorem Work.entering_claims (w : Work) (n k : Nat) : .sequenceClaims ∈ (w.entering n k).waits :=
  adds_sequenceClaims (((adds_withSt _ _).trans (adds_applyArming k _)).trans (adds_trace _ _))

theorem entryOutcome_quiet {w : Work} {n k : Nat} (h : w.st.entersQuietly k) : entryOutcome n k w = w := by
  obtain ⟨supervised, call⟩ := h
  unfold entryOutcome
  rw [supervised, call]
  rfl

theorem State.entered_quiet {s : State} {k : Nat} (n : Nat) (h : s.entersQuietly k) : (s.entered n k).entersQuietly k := h

theorem actStepEntry_quiet {w : Work} {n k : Nat} (ht : w.st.top = some n) (h : w.st.entersQuietly k) :
    actStepEntry k w = w.entering n k := by
  rw [actStepEntry_eq ht]
  exact entryOutcome_quiet (by rw [Work.entering_st]; exact State.entered_quiet n h)

theorem chain_of_top {s : State} {n : Nat} (h : s.top = some n) : s.seq.chain.isEmpty = false := by
  unfold State.top at h
  cases hc : s.seq.chain with
  | nil => rw [hc] at h; cases h
  | cons m l => rfl

theorem State.sequenceClaim_entered {s : State} {n k : Nat} (h : s.top = some n) (r : Nat) :
    (s.entered n k).sequenceClaim r = ((s.tables.step k).output r).claim :=
  if_neg (by rw [show (s.entered n k).seq.chain = s.seq.chain from rfl, chain_of_top h]; exact Bool.false_ne_true)

theorem actStepEntry_sized {w : Work} (k : Nat) (h : w.st.sized) : (actStepEntry k w).st.sized :=
  (actStepEntry_moves k w).keeps Move.sized h

theorem actEnterEntry_heard {w : Work} {n : Nat} (h : w.st.entryHeard (w.st.tables.seq n).entryStep = true) :
    actEnterEntry n w = w.push [.stepEntry (w.st.tables.seq n).entryStep] := if_pos h

/-! ### The end of a calm cascade, after what came before it -/

theorem finish_calm_after {m : Nat} {v w : Work} (lead : Leads m v w) (hn : w.st.phase = .normal) (hs : w.st.sized)
    (quiet : w.st.undisturbed ∨ w.st.unheeded) (h : ∀ a ∈ w.waits, w.st.calms a)
    (light : m + w.weight calmWeight ≤ Config.cascadeLimit) :
    ∃ e : Work, Calm w e ∧ e.waits = [] ∧ finish v = .next e.st.arbitrate := by
  obtain ⟨e, calm, none, run⟩ := runWork_ends (Calm w) calmWeight (fun a v v' ht hv => hv.next hn quiet ht)
    (w.weight calmWeight) w (Calm.start hs h) (Nat.le_refl _)
  exact ⟨e, calm, Work.take_none none, finish_next light ((lead _).trans run)⟩

/-- What a quiet entry of step `k` of S`n` leaves when the event of `w` is calmed, from the state `s` just before. -/
structure Entered (w : Work) (n k : Nat) (u : State) : Prop where
  frame : OnlyCalm (w.st.entered n k) u
  conds : u.conds = w.st.conds
  sequence : ∀ r, r < 12 → (u.role r).sequence = ((w.st.tables.step k).output r).claim
  lockout : ∀ r, r < 12 → (u.role r).lockout = w.st.lockoutSlot r
  flags : ∀ j, (w.st.notice j).flag = true → (u.notice j).flag = true
  chained : ∀ c j x, .chainNotice c j x ∈ w.waits → (u.notice .chain).flag = true
  limit : ∀ r, r < 12 → (u.role r).limit = (w.st.role r).limit
  applied : w.st.appliedLaw → u.appliedLaw
  mismatch : ∀ l, (u.line l).mismatch = (w.st.line l).mismatch

theorem finish_stepEntry {m : Nat} {v w : Work} {n k : Nat} (lead : Leads m v (actStepEntry k w)) (hn : w.st.phase = .normal)
    (hs : w.st.sized) (hu : w.st.undisturbed) (ht : w.st.top = some n) (quiet : w.st.entersQuietly k)
    (calm : ∀ a ∈ w.waits, (w.st.entered n k).calms a) (light : m + w.weight calmWeight ≤ 60000) :
    ∃ u : State, finish v = .next u.arbitrate ∧ Entered w n k u := by
  have sized := actStepEntry_sized k hs
  rw [actStepEntry_quiet ht quiet] at lead sized
  have st := w.entering_st n k
  have adds := w.entering_adds n k
  obtain ⟨e, calmed, none, run⟩ := finish_calm_after lead (by rw [st]; exact hn) sized (.inl (by rw [st]; exact hu))
    (fun a ha => by
      rw [st]
      exact (adds.fresh a ha).elim (calm a) (fun tame => tame.calms _))
    (by have := adds.weight; have : Config.cascadeLimit = 65536 := rfl; omega)
  have claims := (calmed.claims (w.entering_claims n k)).resolve_left (by rw [none]; exact List.not_mem_nil)
  refine ⟨e.st, run, ?_, ?_, fun r hr => ?_, fun r hr => ?_, fun j hj => ?_, fun c j x hx => ?_,
    fun r hr => ?_, fun h => ?_, fun l => ?_⟩
  · rw [← st]; exact calmed.frame
  · rw [calmed.conds (by rw [st]; exact hu), st]; rfl
  · rw [(claims r hr).1, st, State.sequenceClaim_entered ht]
  · rw [(claims r hr).2, st]; rfl
  · exact calmed.flags j (by rw [st]; exact hj)
  · exact (calmed.chained c j x (adds.stays _ hx)).resolve_left (by rw [none]; exact List.not_mem_nil)
  · rw [calmed.limit r hr, st]; rfl
  · exact calmed.applied (by rw [st]; exact h)
  · rw [calmed.mismatch, st]; rfl

/-- The claims of an entry, the rise test, and the rest of R62, from the state just before. -/
theorem Entered.enteredStep {w : Work} {n k : Nat} {u : State} (h : Entered w n k u) : w.st.enteredStep u n k := by
  have flue := h.frame.flue
  have armed : (w.st.tables.step k).armRise = true → u.flue = armedFlue (w.st.setFlue (if (w.st.tables.step k).warmup then
      { w.st.flue with allowance := some (allowanceNow w.st), allowanceFrom := w.st.flueTemp } else w.st.flue)) := fun k => by
    rw [flue]; exact if_pos k
  refine ⟨h.frame.seq, h.sequence, fun arm => ?_, fun arm b hb => ?_, fun arm hb => ?_, h.frame.trace, h.frame.points, h.conds,
    h.frame.circuits, h.frame.fault, h.frame.pins, h.frame.tables, h.frame.staging, h.frame.store, h.frame.up, h.frame.down, h.frame.reply⟩
  · have e : u.flue = if (w.st.tables.step k).warmup then
        { w.st.flue with allowance := some (allowanceNow w.st), allowanceFrom := w.st.flueTemp } else w.st.flue := by
      rw [flue]; exact if_neg (by rw [arm]; exact Bool.false_ne_true)
    rw [e]
    split <;> exact ⟨rfl, rfl⟩
  · rw [armed arm]
    have good (f : FlueRun) : (w.st.setFlue f).goodPoint (w.st.setFlue f).tables.flue.fluePt = some b := hb
    unfold armedFlue
    rw [good]
    exact ⟨rfl, rfl, rfl, rfl⟩
  · rw [armed arm]
    have bad (f : FlueRun) : (w.st.setFlue f).goodPoint (w.st.setFlue f).tables.flue.fluePt = none := hb
    unfold armedFlue
    rw [bad]
    exact ⟨rfl, rfl⟩

theorem startWith_leads (s : State) (a : Act) : Leads 1 (startWith s [a]) (act a (Work.idle s)) := Leads.take rfl

theorem top_of_chain {s : State} {n : Nat} {l : List Nat} (h : s.seq.chain = n :: l) : s.top = some n := by
  unfold State.top
  rw [h]
  rfl

end Sys2Proof.Machine

section
open Sys2Proof Sys2Proof.Machine

/-- Settles O25: the expiry of a step that has not run out, has none, or holds has no effect; a GOTO is a quiet entry. -/
theorem maxDwellExpiryActs : Obligations.MaxDwellExpiryActs := by
  unfold Obligations.MaxDwellExpiryActs
  intro s x n hx ht
  have e : exec .maxDwellExpiry s = finish (startWith s [.maxExpiry]) := rfl
  have first : Leads 1 (startWith s [.maxExpiry]) (actMaxExpiry (Work.idle s)) := startWith_leads s .maxExpiry
  have acts : actMaxExpiry (Work.idle s) = if x.maxDwell = 0 ∨ x.hold = true ∨ x.elapsed < x.maxDwell then Work.idle s
      else (Work.idle s).push (timeoutActs s n x) := by
    unfold actMaxExpiry
    rw [Work.idle_st, ht, hx]
  rw [acts] at first
  refine ⟨fun h => ?_, fun k h0 hh hm next hn hs hu quiet => ?_⟩
  · rw [if_pos h] at first
    rw [e]
    exact first.finish (by decide) rfl
  · have runs : ¬ (x.maxDwell = 0 ∨ x.hold = true ∨ x.elapsed < x.maxDwell) := by simp [h0, hh, hm]
    have goto : timeoutActs s n x = [.stepEntry k] := by unfold timeoutActs; rw [next]
    rw [if_neg runs, goto] at first
    have lead := first.trans (Leads.take (a := .stepEntry k) (w' := Work.idle s) rfl)
    obtain ⟨u, run, entered⟩ := finish_stepEntry lead hn hs (State.undisturbed_of_unwatched hu) ht quiet (fun a ha => nomatch ha) (by simp [Work.weight])
    exact ⟨u, by rw [e]; exact run, entered.enteredStep⟩

end
end

section
/-! SUPPORT. A sequence becoming the top: what joining and leaving the chain leave as it is, and the quiet end of the event in
which a sequence is entered or called. -/

namespace Sys2Proof.Machine

/-! ### What the entry of a sequence reads, and a switch leaves -/

/-- What a switch leaves as it is, apart from demand, faults, store and replies, that came before it. -/
structure SameGround (s t : State) : Prop where
  tables : t.tables = s.tables
  staging : t.staging = s.staging
  points : t.points = s.points
  conds : t.conds = s.conds
  pins : t.pins = s.pins
  roles : t.roles = s.roles
  phase : t.phase = s.phase
  clock : t.clock = s.clock
  up : t.gate.up = s.gate.up
  down : t.gate.down = s.gate.down
  triggers : t.seq.triggers = s.seq.triggers
  purgeDue : t.seq.purgeDue = s.seq.purgeDue

theorem SameGround.refl (s : State) : SameGround s s := ⟨rfl, rfl, rfl, rfl, rfl, rfl, rfl, rfl, rfl, rfl, rfl, rfl⟩

theorem SameGround.trans {s t u : State} (h : SameGround s t) (g : SameGround t u) : SameGround s u :=
  ⟨g.tables.trans h.tables, g.staging.trans h.staging, g.points.trans h.points, g.conds.trans h.conds, g.pins.trans h.pins,
    g.roles.trans h.roles, g.phase.trans h.phase, g.clock.trans h.clock, g.up.trans h.up, g.down.trans h.down,
    g.triggers.trans h.triggers, g.purgeDue.trans h.purgeDue⟩

theorem SameGround.entersQuietly {s t : State} (h : SameGround s t) {k : Nat} (q : s.entersQuietly k) : t.entersQuietly k := by
  unfold State.entersQuietly State.supervisionFails State.held State.cond at *
  rw [h.tables, h.conds]
  exact q

theorem SameGround.seqEntersQuietly {s t : State} (h : SameGround s t) {n : Nat} (q : s.seqEntersQuietly n) : t.seqEntersQuietly n := by
  obtain ⟨heard, quiet, idle⟩ := q
  refine ⟨?_, by rw [h.tables]; exact h.entersQuietly quiet, ?_⟩
  · unfold State.entryHeard State.role at *
    rw [h.tables, h.roles]
    exact heard
  · unfold State.noTriggers at *
    rw [h.triggers]
    exact idle

theorem SameGround.allowanceNow {s t : State} (h : SameGround s t) : allowanceNow t = allowanceNow s := by
  unfold Machine.allowanceNow State.flueTemp State.goodPoint State.point
  rw [h.tables, h.points]

theorem SameGround.unwatched {s t : State} (h : SameGround s t) (q : s.unwatched) : t.unwatched := by
  unfold State.unwatched
  rw [h.tables]
  exact q

theorem SameGround.undisturbed {s t : State} (h : SameGround s t) (q : s.undisturbed) : t.undisturbed := by
  unfold State.undisturbed
  rw [h.tables]
  exact q

theorem State.left_seq (s : State) : s.left.seq.triggers = s.seq.triggers ∧ s.left.seq.demand = s.seq.demand ∧
    s.left.seq.purgeDue = s.seq.purgeDue := by
  unfold State.left
  split <;> exact ⟨rfl, rfl, rfl⟩

theorem State.left_ground (s : State) : SameGround s s.left := by
  obtain ⟨triggers, -, purgeDue⟩ := s.left_seq
  have e := s.left_eq
  exact ⟨by rw [e], by rw [e], by rw [e], by rw [e], by rw [e], by rw [e], by rw [e], by rw [e], by rw [e], by rw [e], triggers, purgeDue⟩

theorem State.joined_ground (s : State) (n : Nat) : SameGround s (s.joined n) :=
  ⟨rfl, rfl, rfl, rfl, rfl, rfl, rfl, rfl, rfl, rfl, rfl, rfl⟩

theorem State.setTrace_ground (s : State) (t : TraceUnit) : SameGround s (s.setTrace t) :=
  ⟨rfl, rfl, rfl, rfl, rfl, rfl, rfl, rfl, rfl, rfl, rfl, rfl⟩

/-! ### The pieces of a switch -/

theorem joinTop_state (n : Nat) (w : Work) : (joinTop n w).st = (w.st.joined n).setTrace (w.traceTop n).st.trace := by
  rw [joinTop_st, Work.traceTop_st, reportActive_st]
  have recorded : AsRecorded w (reportActive n (w.withSt ((w.st.setChain (n :: w.st.seq.chain)).setRunning none))) := by
    have e := reportActive_st n w
    exact ⟨by rw [e]; rfl, by rw [e]; rfl, by rw [e]; rfl⟩
  rw [(recorded.top n).trace]

/-- The switch to S`n` once its place on the chain is free: it joins, and the CHAIN notice is due (R86, R87, R91). -/
def Work.joining (w : Work) (n : Nat) (c : Option Cause) (j : SwitchKind) : Work := (joinTop n w).fin (.chainNotice c j (some n))

theorem doEnter_eq (n : Nat) (c : Cause) (w : Work) : doEnter n c w = ((leaveHead w).joining n (some c) .enter).push (switchTail n) := rfl

theorem doCall_eq {w : Work} (h : w.st.seq.chain.isEmpty = false) (n : Nat) (c : Cause) :
    doCall n c w = ((suspendTop w).joining n (some c) .call).push (switchTail n) :=
  if_neg (by rw [h]; exact Bool.false_ne_true)

theorem Work.joining_adds (w : Work) (n : Nat) (c : Option Cause) (j : SwitchKind) : Adds 89 w (w.joining n c j) :=
  (adds_joinTop n w).trans (adds_chainNotice _ c j (some n))

theorem Work.joining_chained (w : Work) (n : Nat) (c : Option Cause) (j : SwitchKind) :
    .chainNotice c j (some n) ∈ (w.joining n c j).waits := ((joinTop n w).fin_waits _ _).2 (.inr rfl)

theorem Work.joining_st (w : Work) (n : Nat) (c : Option Cause) (j : SwitchKind) :
    (w.joining n c j).st = (w.st.joined n).setTrace (w.traceTop n).st.trace := joinTop_state n w

theorem Work.joining_sized {w : Work} (h : w.st.sized) (n : Nat) (c : Option Cause) (j : SwitchKind) : (w.joining n c j).st.sized := by
  show (joinTop n w).st.sized
  rw [joinTop_st]
  refine (Work.traceTop_moves _ n).keeps Move.sized ?_
  rw [reportActive_st]
  exact State.joined_sized n h

/-- Actions that move nothing once a sequence has been entered with no trigger waiting. -/
def Act.settles (a : Act) : Prop := a.tame ∨ a = .examineTriggers ∨ a = .examineDemand

/-- Actions that settle, among them a set of held values that no sequence waits for. -/
def State.settles (s : State) (a : Act) : Prop := a.settles ∨ ∃ set, a = .applyTriggers set ∧ s.unasked set

theorem SameGround.settles {s t : State} (h : SameGround s t) {a : Act} (k : s.settles a) : t.settles a := by
  refine k.imp_right fun ⟨set, e, unasked⟩ => ⟨set, e, ?_⟩
  unfold State.unasked
  rw [h.triggers, h.tables]
  exact unasked

theorem Act.settles.calms {a : Act} (h : a.settles) {s : State} (idle : s.noTriggers = true) (busy : s.seq.chain.isEmpty = false) :
    s.calms a := by
  rcases h with tame | rfl | rfl
  · exact tame.calms s
  · exact idle
  · show (s.demandServed && _) = false
    unfold State.demandServed
    rw [busy]
    simp

theorem State.settles.calms {s : State} {a : Act} (h : s.settles a) (idle : s.noTriggers = true) (busy : s.seq.chain.isEmpty = false) :
    s.calms a := by
  rcases h with settles | ⟨set, rfl, unasked⟩
  · exact Act.settles.calms settles idle busy
  · exact unasked

/-- What stands after a switch to S`n` that began in the state `t`. -/
structure Landed (t : State) (n : Nat) (u : State) : Prop where
  demand : u.seq.demand = t.seq.demand
  fault : u.fault = t.fault
  store : u.store = t.store
  reply : u.gate.reply = t.gate.reply
  present : u.gate.present = t.gate.present
  absence : u.gate.absence = t.gate.absence
  circuits : u.circuits = (t.joined n).circuits
  flags : ∀ j, (t.notice j).flag = true → (u.notice j).flag = true
  lockout : ∀ r, r < 12 → (u.role r).lockout = t.lockoutSlot r
  saved : ∀ i, (u.seqRun i).saved = (t.seqRun i).saved
  recycle : ∀ i, i ≠ n → (u.seqRun i).recycle = (t.seqRun i).recycle
  counted : ∀ i, (t.seqRun i).recycle = 0 → (u.seqRun i).recycle = 0
  limit : ∀ r, r < 12 → (u.role r).limit = (t.role r).limit
  applied : t.appliedLaw → u.appliedLaw
  mismatch : ∀ l, (u.line l).mismatch = (t.line l).mismatch

theorem State.entered_seqRun (s : State) (n k i : Nat) :
    ((s.entered n k).seqRun i).saved = (s.seqRun i).saved ∧
      (i ≠ n → ((s.entered n k).seqRun i).recycle = (s.seqRun i).recycle) ∧
      ((s.seqRun i).recycle = 0 → ((s.entered n k).seqRun i).recycle = 0) := by
  have e : (s.entered n k).seqRun i =
      (if (s.tables.step k).success then s.seq.runs.set n { s.seqRun n with recycle := 0 } else s.seq.runs).getD i SeqRun.reset := rfl
  rw [e]
  split
  · rw [getD_set]
    split
    · next h => obtain ⟨rfl, -⟩ := h; exact ⟨rfl, fun k => absurd rfl k, fun _ => rfl⟩
    · exact ⟨rfl, fun _ => rfl, id⟩
  · exact ⟨rfl, fun _ => rfl, id⟩

/-- What becoming the top leaves as it is. -/
structure SameUnits (p q : State) : Prop where
  demand : q.seq.demand = p.seq.demand
  runs : q.seq.runs = p.seq.runs
  fault : q.fault = p.fault
  store : q.store = p.store
  gate : q.gate = p.gate
  roles : q.roles = p.roles
  lines : q.lines = p.lines

theorem joined_sameUnits (p : State) (n : Nat) (t : TraceUnit) : SameUnits p ((p.joined n).setTrace t) :=
  ⟨rfl, rfl, rfl, rfl, rfl, rfl, rfl⟩

theorem Entered.landed {y : Work} {n k : Nat} {p u : State} {t : TraceUnit} (h : Entered y n k u)
    (st : y.st = (p.joined n).setTrace t) : Landed p n u := by
  have same : SameUnits p y.st := by rw [st]; exact joined_sameUnits p n t
  have circuits : y.st.circuits = (p.joined n).circuits := by rw [st]; rfl
  obtain ⟨demand, runs, fault, store, gate, roles, lines⟩ := same
  have run (i : Nat) := y.st.entered_seqRun n k i
  have seqRun (i : Nat) : y.st.seqRun i = p.seqRun i := by unfold State.seqRun; rw [runs]
  have runU (i : Nat) : u.seqRun i = (y.st.entered n k).seqRun i := by unfold State.seqRun; rw [h.frame.seq]
  have slot (r : Nat) : y.st.lockoutSlot r = p.lockoutSlot r := by unfold State.lockoutSlot State.locked; rw [fault]
  have limit := h.limit
  have lockout := h.lockout
  have applied := h.applied
  have flags := h.flags
  have mismatch := h.mismatch
  unfold State.appliedLaw State.role State.line State.notice at *
  rw [roles] at limit applied
  rw [lines] at mismatch
  rw [gate] at flags
  exact {
    demand := (congrArg SeqUnit.demand h.frame.seq).trans demand
    fault := h.frame.fault.trans fault
    store := h.frame.store.trans store
    reply := h.frame.reply.trans (congrArg Gate.reply gate)
    present := h.frame.present.trans (congrArg Gate.present gate)
    absence := h.frame.absence.trans (congrArg Gate.absence gate)
    circuits := h.frame.circuits.trans circuits
    flags := flags
    lockout := fun r hr => (lockout r hr).trans (slot r)
    saved := fun i => by rw [runU, (run i).1, seqRun]
    recycle := fun i hi => by rw [runU, (run i).2.1 hi, seqRun]
    counted := fun i hi => by rw [runU]; exact (run i).2.2 (by rw [seqRun]; exact hi)
    limit := limit
    applied := applied
    mismatch := mismatch }

theorem finish_join {m n : Nat} {v w : Work} {c : Option Cause} {j : SwitchKind} {s : State} {kinds : List TraceKind}
    (lead : Leads m v ((w.joining n c j).push (switchTail n))) (ground : SameGround s w.st)
    (recorded : AsRecorded (kinds.foldl Work.trace (Work.idle s)) w) (hn : s.phase = .normal) (hu : s.undisturbed)
    (sized : w.st.sized) (quiet : s.seqEntersQuietly n) (settles : ∀ a ∈ w.waits, s.settles a)
    (light : m + w.weight calmWeight ≤ 50000) :
    ∃ u : State, finish v = .next u.arbitrate ∧ s.enteredSeq u n w.st.seq.chain kinds ∧ Landed w.st n u := by
  obtain ⟨x, hx⟩ : ∃ x, x = w.joining n c j := ⟨_, rfl⟩
  have adds := w.joining_adds n c j
  have chained := w.joining_chained n c j
  have st := w.joining_st n c j
  have hs := Work.joining_sized sized n c j
  rw [← hx] at lead adds chained st hs
  have joined : SameGround s x.st := ground.trans ((w.st.joined_ground n).trans (by rw [st]; exact State.setTrace_ground _ _))
  have chain : x.st.seq.chain = n :: w.st.seq.chain := by rw [st]; rfl
  have trace : x.st.trace = ((kinds.foldl Work.trace (Work.idle s)).traceTop n).st.trace := by
    rw [st]; exact (recorded.top n).trace
  obtain ⟨heard, entry, idle⟩ := joined.seqEntersQuietly quiet
  rw [joined.tables] at heard entry
  have top := top_of_chain chain
  have start : Leads 1 (x.push (switchTail n)) ((x.push [.examineTriggers]).push [.stepEntry (s.tables.seq n).entryStep]) := by
    have e := actEnterEntry_heard (w := x.push [.examineTriggers]) (n := n) (by rw [Work.push_st, joined.tables]; exact heard)
    rw [Work.push_st, joined.tables] at e
    rw [← e]
    exact Leads.take (a := .enterEntry n) rfl
  have enter : Leads 1 ((x.push [.examineTriggers]).push [.stepEntry (s.tables.seq n).entryStep])
      (actStepEntry (s.tables.seq n).entryStep (x.push [.examineTriggers])) := Leads.take (a := .stepEntry _) rfl
  obtain ⟨u, run, h⟩ := finish_stepEntry ((lead.trans start).trans enter) (joined.phase.trans hn) hs (joined.undisturbed hu) top entry
    (fun a ha => by
      have settled : s.settles a := by
        rcases (x.push_waits [.examineTriggers] a).1 ha with k | k
        · exact (adds.fresh a k).elim (settles a) fun tame => .inl (.inl tame)
        · exact .inl (.inr (.inl (List.mem_singleton.1 k)))
      have entered : (x.st.entered n (s.tables.seq n).entryStep).settles a := (joined.settles settled).imp_right fun ⟨set, e, unasked⟩ =>
        ⟨set, e, unasked⟩
      exact entered.calms idle (chain_of_top top))
    (by
      rw [Work.weight_push]
      have := adds.weight
      simp only [List.map_cons, List.map_nil, List.sum_cons, List.sum_nil, calmWeight]
      omega)
  have seq := h.frame.seq
  have st' : x.st = (w.st.joined n).setTrace (w.traceTop n).st.trace := st
  refine ⟨u, run, ⟨?_, ?_, fun r hr => ?_, ?_, ?_, ?_, ?_, ?_, ?_, ?_, ?_, ?_, ?_, ?_⟩, ?_⟩
  · rw [seq]; exact chain
  · rw [seq]
    show some (x.st.enteredRun _) = _
    unfold State.enteredRun
    rw [joined.tables, joined.allowanceNow]
  · rw [h.sequence r hr, Work.push_st, joined.tables]
  · rw [seq]; exact joined.triggers
  · rw [seq]; exact joined.purgeDue
  · exact h.chained c j (some n) ((x.push_waits _ _).2 (.inl chained))
  · have same : AsRecorded ((kinds.foldl Work.trace (Work.idle s)).traceTop n) (Work.idle x.st) := by
      have base := recorded.top n
      refine ⟨trace, ?_, ?_⟩
      · rw [show (Work.idle x.st).st.clock = w.st.clock by rw [Work.idle_st, st]; rfl, recorded.clock, Work.traceTop_st]; rfl
      · rw [show (Work.idle x.st).st.tables = w.st.tables by rw [Work.idle_st, st]; rfl, recorded.tables, Work.traceTop_st]; rfl
    exact h.frame.trace.trans (same.traced (.step n (s.tables.seq n).entryStep)).trace
  · exact h.frame.points.trans joined.points
  · exact h.conds.trans joined.conds
  · exact h.frame.pins.trans joined.pins
  · exact h.frame.tables.trans joined.tables
  · exact h.frame.staging.trans joined.staging
  · exact h.frame.up.trans joined.up
  · exact h.frame.down.trans joined.down
  · exact h.landed st

/-- The place of the top taken by S`n` (R86). -/
theorem finish_enter {m n : Nat} {v w : Work} {c : Cause} {s : State} {kinds : List TraceKind} (lead : Leads m v (doEnter n c w))
    (ground : SameGround s w.st) (recorded : AsRecorded (kinds.foldl Work.trace (Work.idle s)) w) (hn : s.phase = .normal)
    (hu : s.undisturbed) (hs : w.st.sized) (quiet : s.seqEntersQuietly n) (settles : ∀ a ∈ w.waits, s.settles a)
    (light : m + w.weight calmWeight ≤ 40000) :
    ∃ u : State, finish v = .next u.arbitrate ∧ s.enteredSeq u n w.st.seq.chain.tail kinds ∧ Landed w.st.left n u := by
  have left := w.st.left_ground
  have st := leaveHead_st w
  have adds := adds_leaveHead w
  have e := w.st.left_eq
  obtain ⟨u, run, entered, landed⟩ := finish_join (w := leaveHead w) lead (by rw [st]; exact ground.trans left)
    (recorded.then ⟨by rw [st, e], by rw [st, e], by rw [st, e]⟩) hn hu (by rw [st]; exact State.left_sized hs) quiet
    (fun a ha => (adds.fresh a ha).elim (settles a) fun tame => .inl (.inl tame)) (by have := adds.weight; omega)
  rw [st] at entered landed
  rw [State.left_chain] at entered
  exact ⟨u, run, entered, landed⟩

end Sys2Proof.Machine
end

section
/-! SUPPORT. Demand, RUN, STOP and absence: which check refuses, and the sequence that is entered: O27, O29, O30. -/

namespace Sys2Proof.Machine

/-- The checks that are left for a cause that calls nothing, while the controller is present. -/
theorem switchCheck_enters {s : State} {c : Cause} (h : c = .run ∨ c = .stopLink) (present : s.gate.present = true) (n : Nat) :
    s.switchCheck n c =
      if !(n < 12 && (s.tables.seq n).inUse) then some .notInUse
      else if !c.allows (s.tables.seq n).cls then some .notPermitted
      else if s.active n then some .active
      else if s.locked then some .locked
      else if s.committing then some .committing
      else none := by
  unfold State.switchCheck
  rw [present]
  rcases h with rfl | rfl <;> simp [Cause.calls]

/-- The chain, the tables and the phase as the part stands while it handles a request from the controller. -/
structure Handling (s h : State) : Prop where
  ground : SameGround s h
  chain : h.seq.chain = s.seq.chain
  demand : h.seq.demand = s.seq.demand
  fault : h.fault = s.fault
  trace : h.trace = s.trace
  store : h.store = s.store
  present : h.gate.present = true
  runs : h.seq.runs = s.seq.runs
  running : h.seq.running = s.seq.running
  sized : s.sized → h.sized

theorem handling_heardFrom {s : State} {src : Byte} (h : s.manages src) : Handling s (s.heardFrom src) := by
  obtain ⟨-, -, ctl, -⟩ := h
  rw [State.heardFrom_eq]
  exact ⟨⟨rfl, rfl, rfl, rfl, rfl, rfl, rfl, rfl, rfl, rfl, rfl, rfl⟩, rfl, rfl, rfl, rfl, rfl, by rw [ctl]; rfl, rfl, rfl, id⟩

theorem Handling.reply {s h : State} (k : Handling s h) (dst : Byte) (r : Result) : Handling s (h.reply dst r) where
  ground := k.ground.trans ⟨rfl, rfl, rfl, rfl, rfl, rfl, rfl, rfl, rfl, rfl, rfl, rfl⟩
  chain := k.chain
  demand := k.demand
  fault := k.fault
  trace := k.trace
  store := k.store
  present := k.present
  runs := k.runs
  running := k.running
  sized := k.sized

theorem Handling.active {s h : State} (k : Handling s h) (n : Nat) : h.active n = decide (n ∈ s.seq.chain) := by
  unfold State.active
  rw [k.chain, List.contains_eq_mem]

theorem Handling.locked {s h : State} (k : Handling s h) : h.locked = s.locked := by unfold State.locked; rw [k.fault]

theorem Handling.committing {s h : State} (k : Handling s h) : h.committing = s.committing := by unfold State.committing; rw [k.store]

theorem Handling.check {s h : State} (k : Handling s h) {c : Cause} (hc : c = .run ∨ c = .stopLink) (n : Nat) :
    h.switchCheck n c =
      if !(n < 12 && (s.tables.seq n).inUse) then some .notInUse
      else if !c.allows (s.tables.seq n).cls then some .notPermitted
      else if n ∈ s.seq.chain then some .active
      else if s.locked then some .locked
      else if s.committing then some .committing
      else none := by
  rw [switchCheck_enters hc k.present, k.ground.tables, k.active, k.locked, k.committing]
  simp only [decide_eq_true_eq]

/-- An entry within the handling of a request, or of an event that clears demand. -/
theorem finish_entered {n : Nat} {w : Work} {c : Cause} {s : State} (ground : SameGround s w.st) (trace : w.st.trace = s.trace)
    (hn : s.phase = .normal) (hu : s.unwatched) (hs : w.st.sized) (quiet : s.seqEntersQuietly n)
    (settles : ∀ a ∈ w.waits, a.settles) (light : w.weight calmWeight ≤ 40000) :
    ∃ u : State, finish (doEnter n c w) = .next u.arbitrate ∧ s.enteredSeq u n w.st.seq.chain.tail [] ∧ Landed w.st.left n u :=
  finish_enter (kinds := []) (Leads.refl _) ground ⟨trace, ground.clock, ground.tables⟩ hn (State.undisturbed_of_unwatched hu) hs quiet
    (fun a ha => .inl (settles a ha)) (by omega)

theorem State.left_frame (s : State) : s.left.fault = s.fault ∧ s.left.store = s.store ∧ s.left.gate = s.gate ∧ s.left.roles = s.roles := by
  rw [s.left_eq]
  exact ⟨rfl, rfl, rfl, rfl⟩

/-- What an entry leaves of demand, faults and the gate, from the state just before it. -/
structure SwitchKept (t u : State) : Prop where
  demand : u.seq.demand = t.seq.demand
  fault : u.fault = t.fault
  store : u.store = t.store
  reply : u.gate.reply = t.gate.reply
  present : u.gate.present = t.gate.present
  absence : u.gate.absence = t.gate.absence

theorem Landed.kept {t u : State} {n : Nat} (h : Landed t.left n u) : SwitchKept t u := by
  obtain ⟨fault, store, gate, -⟩ := t.left_frame
  obtain ⟨-, demand, -⟩ := t.left_seq
  exact ⟨h.demand.trans demand, h.fault.trans fault, h.store.trans store, by rw [h.reply, gate], by rw [h.present, gate],
    by rw [h.absence, gate]⟩

theorem idle_settles (s : State) : ∀ a ∈ (Work.idle s).waits, a.settles := fun _ ha => nomatch ha

theorem idle_light (s : State) (m : Act → Nat) (k : Nat) : (Work.idle s).weight m ≤ k := Nat.zero_le k

/-! ### Demand (R75) and RUN (R78) -/

/-- The state with the demand flag set or cleared. -/
def State.withDemand (s : State) (b : Bool) : State := s.setSeq { s.seq with demand := b }

theorem withDemand_ground (s : State) (b : Bool) : SameGround s (s.withDemand b) :=
  ⟨rfl, rfl, rfl, rfl, rfl, rfl, rfl, rfl, rfl, rfl, rfl, rfl⟩

theorem switchCheck_withDemand (s : State) (b : Bool) (n : Nat) (c : Cause) : (s.withDemand b).switchCheck n c = s.switchCheck n c := rfl

theorem Work.idle_withSt (s t : State) : (Work.idle s).withSt t = Work.idle t := rfl

theorem doDemandOff_hot {h : State} {t : Nat} {dst : Byte} (top : h.top = some t) (heat : (h.tables.seq t).cls = .heat) :
    doDemandOff dst (Work.idle h) = clearDemand false (Work.idle (h.reply dst (.ok []))) := by
  unfold doDemandOff
  rw [Work.idle_st, (heatTop_iff h).2 ⟨t, top, heat⟩]
  rfl

theorem Handling.calm {s h : State} (k : Handling s h) {n : Nat} {c : Cause} (check : h.switchCheck n c = none) : s.committing = false := by
  obtain ⟨-, -, -, -, -, -, -, calm⟩ := (switchCheck_eq_none_iff _ _ _).1 check
  rw [← k.committing]
  exact calm

/-- A sequence entered while a request is handled, its answer given. -/
theorem Handling.answers {s h : State} (k : Handling s h) (c : Cause) (dst : Byte) {n : Nat} (hn : s.phase = .normal) (hu : s.unwatched)
    (hs : s.sized) (quiet : s.seqEntersQuietly n) :
    ∃ u : State, finish (doEnter n c (Work.idle (h.reply dst (.ok [])))) = .next u.arbitrate ∧
      s.enteredSeq u n s.seq.chain.tail [] ∧ SwitchKept (h.reply dst (.ok [])) u := by
  have k' := k.reply dst (.ok [])
  rw [← k.chain]
  generalize hr : h.reply dst (.ok []) = r at k' ⊢
  have chain : r.seq.chain = h.seq.chain := by rw [← hr]; rfl
  obtain ⟨u, run, entered, landed⟩ := finish_entered (c := c) (w := Work.idle r) k'.ground k'.trace hn hu (k'.sized hs) quiet
    (idle_settles r) (idle_light r _ _)
  rw [Work.idle_st, chain] at entered
  exact ⟨u, run, entered, landed.kept⟩

/-- The same with the demand flag set or cleared as well. -/
theorem Handling.enters {s h : State} (k : Handling s h) (c : Cause) (b : Bool) (dst : Byte) {n : Nat} (hn : s.phase = .normal)
    (hu : s.unwatched) (hs : s.sized) (quiet : s.seqEntersQuietly n) :
    ∃ u : State, finish (doEnter n c (Work.idle ((h.reply dst (.ok [])).withDemand b))) = .next u.arbitrate ∧
      s.enteredSeq u n s.seq.chain.tail [] ∧ SwitchKept ((h.reply dst (.ok [])).withDemand b) u := by
  have k' := k.reply dst (.ok [])
  rw [← k.chain]
  generalize hr : h.reply dst (.ok []) = r at k' ⊢
  have chain : r.seq.chain = h.seq.chain := by rw [← hr]; rfl
  have ground := k'.ground.trans (withDemand_ground r b)
  obtain ⟨u, run, entered, landed⟩ := finish_entered (c := c) (w := Work.idle (r.withDemand b)) ground k'.trace hn hu (k'.sized hs) quiet
    (idle_settles _) (idle_light _ _ _)
  rw [Work.idle_st, show (r.withDemand b).seq.chain = h.seq.chain from chain] at entered
  exact ⟨u, run, entered, landed.kept⟩

theorem doDemandOn_served {s h : State} (k : Handling s h) (hn : s.phase = .normal) (hc : s.seq.chain = [])
    (check : h.switchCheck s.tables.device.startSeq .demand = none) (idle : s.noTriggers = true) (dst : Byte) :
    doDemandOn dst (Work.idle h) =
      doEnter s.tables.device.startSeq .demand (Work.idle ((h.reply dst (.ok [])).withDemand true)) := by
  obtain ⟨-, -, -, -, -, -, free, calm⟩ := (switchCheck_eq_none_iff h _ .demand).1 check
  have unlocked : h.locked = false := Bool.eq_false_iff.2 fun e => nomatch free e
  have served : (h.withDemand true).demandServed = true := by
    have normal : h.normal = true := State.normal_of_phase (k.ground.phase.trans hn)
    have chain : h.seq.chain.isEmpty = true := by rw [k.chain, hc]; rfl
    have none : h.noTriggers = true := by unfold State.noTriggers at *; rw [k.ground.triggers]; exact idle
    show (h.normal && true && h.seq.chain.isEmpty && !h.locked && h.noTriggers && h.gate.present && !h.committing) = true
    rw [normal, chain, unlocked, none, k.present, calm]
    rfl
  have device : h.tables.device = s.tables.device := by rw [k.ground.tables]
  have entered : ((h.withDemand true).demandServed && ((h.withDemand true).switchCheck (h.withDemand true).tables.device.startSeq .demand).isNone) = true := by
    rw [switchCheck_withDemand, served, show (h.withDemand true).tables.device = h.tables.device from rfl, device, check]
    rfl
  have shape : doDemandOn dst (Work.idle h) = actExamineDemand ((Work.idle (h.withDemand true)).answer dst
      (if ((h.withDemand true).demandServed && ((h.withDemand true).switchCheck (h.withDemand true).tables.device.startSeq .demand).isNone)
          || (h.withDemand true).heatOnChain then okEmpty else .deferred)) := rfl
  rw [shape, entered]
  refine (if_pos ?_).trans ?_
  · exact entered
  · rw [← device]; rfl

theorem doRun_refused {w : Work} {n : Nat} {r : Refuse} (hn : w.st.phase = .normal) (h : w.st.switchCheck n .run = some r) (dst : Byte) :
    doRun dst n w = w.answer dst (.refused r.reason []) := by
  unfold doRun
  rw [if_neg (by rw [hn]; decide), h]
  rfl

theorem doRun_passed {w : Work} {n : Nat} (hn : w.st.phase = .normal) (h : w.st.switchCheck n .run = none) (dst : Byte) :
    doRun dst n w = if w.st.seq.chain.isEmpty then doEnter n .run (w.answer dst (.ok [])) else w.answer dst (.refused reasonChainBusy []) := by
  unfold doRun
  rw [if_neg (by rw [hn]; decide), h]
  rfl

theorem exec_run {s : State} {src n : Byte} (h : s.manages src) (hc : s.committing = false) (hn : n.toNat < 12) :
    exec (.run src n) s = finish (doRun src n.toNat (Work.idle (s.heardFrom src))) := by
  refine request_performed (p := [n]) h (by omega) (Nat.le_add_left 1 23) (q := .run n.toNat) ?_ (.inl hc)
  rw [readRequest_run]
  unfold readIndex
  rw [if_pos hn]
  rfl

/-! ### STOP (R78) -/

theorem doStop_of_top {w : Work} {t : Nat} (hn : w.st.phase = .normal) (ht : w.st.top = some t) (dst : Byte) :
    doStop dst w = if (w.st.tables.seq t).cls.stoppable then stopTop dst t w else w.answer dst (.refused reasonNotPermitted []) := by
  unfold doStop
  rw [if_neg (by rw [hn]; decide), ht]
  rfl

theorem stopTop_refused {w : Work} {t : Nat} {r : Refuse} (h : w.st.switchCheckOpt (w.st.tables.seq t).stopLink .stopLink = some r)
    (dst : Byte) : stopTop dst t w = w.answer dst (.refused r.reason []) := by
  unfold stopTop
  rw [h]
  cases (w.st.tables.seq t).stopLink <;> rfl

theorem stopTop_passed {w : Work} {t m : Nat} (hl : (w.st.tables.seq t).stopLink = some m)
    (h : w.st.switchCheck m .stopLink = none) (dst : Byte) : stopTop dst t w = doEnter m .stopLink (w.answer dst (.ok [])) := by
  unfold stopTop
  rw [hl, show w.st.switchCheckOpt (some m) .stopLink = none from h]
  rfl

theorem stoppable_iff (c : SeqClass) : c.stoppable = true ↔ c = .heat ∨ c = .service := by
  cases c <;> simp [SeqClass.stoppable, SeqClass.needsController]

theorem exec_stop {s : State} {src : Byte} (h : s.manages src) (hc : s.committing = false) :
    exec (.stop src) s = finish (doStop src (Work.idle (s.heardFrom src))) :=
  request_performed (p := []) h (by omega) (Nat.zero_le 24) readRequest_stop (.inl hc)

/-! ### A top replaced by its stop link (R77, R78) -/

theorem replaceByStop_passed {w : Work} {c : Cause} {l m : Nat} (hl : (w.st.tables.seq l).stopLink = some m)
    (h : w.st.switchCheck m c = none) : replaceByStop c l w = doEnter m c w := by
  unfold replaceByStop
  rw [hl, show w.st.switchCheckOpt (some m) c = none from h]

theorem clearDemand_heat {w : Work} {t : Nat} (absent : Bool) (ht : w.st.top = some t) (hc : (w.st.tables.seq t).cls = .heat) :
    clearDemand absent w = replaceByStop .demandOff t (w.withSt (w.st.withDemand false)) := by
  unfold clearDemand
  have top : (w.withSt (w.st.setSeq { w.st.seq with demand := false })).st.top = some t := ht
  have cls : ((w.withSt (w.st.setSeq { w.st.seq with demand := false })).st.tables.seq t).cls = .heat := hc
  dsimp only
  rw [top]
  dsimp only
  rw [cls]
  rfl

theorem clearDemand_service {w : Work} {t : Nat} (ht : w.st.top = some t) (hc : (w.st.tables.seq t).cls = .service) :
    clearDemand true w = replaceByStop .absence t (w.withSt (w.st.withDemand false)) := by
  unfold clearDemand
  have top : (w.withSt (w.st.setSeq { w.st.seq with demand := false })).st.top = some t := ht
  have cls : ((w.withSt (w.st.setSeq { w.st.seq with demand := false })).st.tables.seq t).cls = .service := hc
  dsimp only
  rw [top]
  dsimp only
  rw [cls]
  rfl

theorem clearDemand_empty {w : Work} (absent : Bool) (h : w.st.seq.chain = []) :
    clearDemand absent w = w.withSt (w.st.withDemand false) := by
  unfold clearDemand
  have top : (w.withSt (w.st.setSeq { w.st.seq with demand := false })).st.top = none := by
    show w.st.seq.chain.head? = none
    rw [h]
    rfl
  dsimp only
  rw [top]
  rfl

/-! ### Absence (R138) -/

/-- The state after the controller has become absent. -/
def State.absent (s : State) : State := s.setGate { s.gate with present := false, absence := none }

/-- A STOP sequence is entered whether the controller is present or not. -/
theorem absent_switchCheck {s : State} {m : Nat} {c : Cause} (hc : c = .demandOff ∨ c = .absence) (h : s.switchCheck m c = none) :
    s.absent.switchCheck m c = none := by
  obtain ⟨known, allowed, off, room, rank, -, locked, calm⟩ := (switchCheck_eq_none_iff s m c).1 h
  have stop : (s.tables.seq m).cls = .stop := by
    rcases hc with rfl | rfl <;> exact of_decide_eq_true allowed
  refine (switchCheck_eq_none_iff s.absent m c).2 ⟨known, allowed, off, room, rank, fun _ => ?_, locked, calm⟩
  show (s.tables.seq m).cls.needsController = false
  rw [stop]
  rfl

theorem absence_leads {s : State} (h : s.gate.absence = some 0) :
    Leads 1 (absenceExpired (Work.idle s)) (clearDemand true (Work.waiting s.absent [])) := by
  have e : absenceExpired (Work.idle s) = (Work.idle s.absent).emit [.absenceStart] :=
    if_pos ((ranOut_iff s.gate.absence).2 h)
  rw [e]
  have first := Leads.emitted (w := (Work.idle s.absent).emit [.absenceStart]) rfl rfl
  have next : Leads 1 (Work.waiting s.absent [.absenceStart]) (actAbsenceStart (Work.waiting s.absent [])) :=
    Leads.take (Work.take_waiting s.absent .absenceStart [])
  have both := first.trans next
  rw [Nat.zero_add] at both
  exact both

end Sys2Proof.Machine

section
open Sys2Proof Sys2Proof.Machine

/-- Settles O27: RUN is refused by its first failing check or by a chain; demand and RUN on an empty chain are entries. -/
theorem demandOnAndRunEnter : Obligations.DemandOnAndRunEnter := by
  unfold Obligations.DemandOnAndRunEnter
  refine ⟨fun s src n hm hc hn => ?_, fun s src hm hn chain hs hu => ?_⟩
  · have k := handling_heardFrom hm
    have e := exec_run hm hc hn
    have refuse {r : Nat} (h : doRun src n.toNat (Work.idle (s.heardFrom src)) = (Work.idle (s.heardFrom src)).answer src (.refused r [])) :
        exec (.run src n) s = .next ((s.heardFrom src).reply src (.refused r [])).arbitrate := by
      rw [e, h]
      exact finish_idle_answer _ _ _
    dsimp only
    refine ⟨fun fallback => refuse (if_pos (k.ground.phase.trans fallback)), fun normal => ?_⟩
    have phase : (Work.idle (s.heardFrom src)).st.phase = .normal := k.ground.phase.trans normal
    have check := k.check (.inl rfl) n.toNat
    have range : decide (n.toNat < 12) = true := decide_eq_true hn
    refine ⟨fun unused => ?_, fun used other => ?_, fun used service on => ?_, fun used service off locked => ?_,
      fun used service off unlocked busy => ?_⟩
    · exact refuse (doRun_refused phase (r := .notInUse) (by rw [Work.idle_st, check, range, unused]; rfl) src)
    · refine refuse (doRun_refused phase (r := .notPermitted) ?_ src)
      rw [Work.idle_st, check, range, used]
      exact (if_neg (by decide)).trans (if_pos (by simp [Cause.allows, other]))
    · refine refuse (doRun_refused phase (r := .active) ?_ src)
      rw [Work.idle_st, check, range, used, service]
      exact if_pos on
    · refine refuse (doRun_refused phase (r := .locked) ?_ src)
      rw [Work.idle_st, check, range, used, service, if_neg off, locked]
      rfl
    · refine refuse ?_
      rw [doRun_passed phase]
      · refine if_neg ?_
        rw [Work.idle_st, k.chain, List.isEmpty_iff]
        exact busy
      · rw [Work.idle_st, check, range, used, service, if_neg off, unlocked, hc]
        rfl
  · have k := handling_heardFrom hm
    dsimp only
    refine ⟨fun check quiet => ?_, fun n hn12 check quiet => ?_⟩
    · obtain ⟨-, -, idle⟩ := id quiet
      have e : exec (.demandOn src) s = finish (doDemandOn src (Work.idle (s.heardFrom src))) :=
        request_performed (p := []) hm (by omega) (Nat.zero_le 24) readRequest_demandOn (.inl (k.calm check))
      rw [e, doDemandOn_served k hn chain check idle]
      generalize s.heardFrom src = h at k ⊢
      obtain ⟨u, run, entered, kept⟩ := k.enters .demand true src hn hu hs quiet
      rw [chain] at entered
      exact ⟨u, run, entered, kept.demand, kept.reply, kept.fault.trans k.fault⟩
    · rw [exec_run hm (k.calm check) hn12, doRun_passed (k.ground.phase.trans hn) check,
        if_pos (by rw [Work.idle_st, k.chain, chain]; rfl)]
      generalize s.heardFrom src = h at k ⊢
      obtain ⟨u, run, entered, kept⟩ := k.answers .run src hn hu hs quiet
      rw [chain] at entered
      exact ⟨u, run, entered, kept.demand.trans k.demand, kept.reply, kept.fault.trans k.fault⟩

/-- Settles O29: STOP is refused by the top, the link or its first failing check; else the stop link is entered. -/
theorem stopLinkEntered : Obligations.StopLinkEntered := by
  unfold Obligations.StopLinkEntered
  refine ⟨fun s src hm hc => ?_, fun s src t m below hm hn chain link hs hu quiet => ?_⟩
  · have k := handling_heardFrom hm
    have refuse {r : Nat} (h : doStop src (Work.idle (s.heardFrom src)) = (Work.idle (s.heardFrom src)).answer src (.refused r [])) :
        exec (.stop src) s = .next ((s.heardFrom src).reply src (.refused r [])).arbitrate := by
      rw [exec_stop hm hc, h]
      exact finish_idle_answer _ _ _
    dsimp only
    refine ⟨fun fallback => refuse (if_pos (k.ground.phase.trans fallback)), fun normal empty => refuse ?_, fun t below normal chain => ?_⟩
    · have top : (Work.idle (s.heardFrom src)).st.top = none := by
        show (s.heardFrom src).seq.chain.head? = none
        rw [k.chain, empty]; rfl
      unfold doStop
      rw [if_neg (by rw [Work.idle_st, k.ground.phase, normal]; decide), top]
      rfl
    · have top : (Work.idle (s.heardFrom src)).st.top = some t := top_of_chain (k.chain.trans chain)
      have stop := doStop_of_top (w := Work.idle (s.heardFrom src)) (k.ground.phase.trans normal) top src
      rw [Work.idle_st, k.ground.tables] at stop
      refine ⟨fun h1 h2 => refuse (stop.trans (if_neg fun h => ?_)), fun class_ok => ?_⟩
      · exact ((stoppable_iff _).1 h).elim h1 h2
      · rw [if_pos ((stoppable_iff _).2 class_ok)] at stop
        have refused {o : Option Nat} (ho : (s.tables.seq t).stopLink = o) {r : Refuse} (h : (s.heardFrom src).switchCheckOpt o .stopLink = some r) :
            exec (.stop src) s = .next ((s.heardFrom src).reply src (.refused r.reason [])).arbitrate :=
          refuse (stop.trans (stopTop_refused (by rw [Work.idle_st, k.ground.tables, ho]; exact h) src))
        refine ⟨fun none => refused none (r := .notInUse) rfl, fun m link => ?_⟩
        have check := k.check (.inr rfl) m
        refine ⟨fun unused => ?_, fun range used other => ?_, fun range used stops on => ?_, fun range used stops off locked => ?_⟩
        · refine refused link (r := .notInUse) (check.trans (if_pos ?_))
          rcases unused with h | h
          · simp [Nat.not_lt.2 h]
          · simp [h]
        · refine refused link (r := .notPermitted) ?_
          show (s.heardFrom src).switchCheck m .stopLink = _
          rw [check, decide_eq_true range, used]
          exact (if_neg (by decide)).trans (if_pos (by simp [Cause.allows, other]))
        · refine refused link (r := .active) ?_
          show (s.heardFrom src).switchCheck m .stopLink = _
          rw [check, decide_eq_true range, used, stops]
          exact if_pos on
        · refine refused link (r := .locked) ?_
          show (s.heardFrom src).switchCheck m .stopLink = _
          rw [check, decide_eq_true range, used, stops, if_neg off, locked]
          rfl
  · have k := handling_heardFrom hm
    dsimp only
    have top : (s.heardFrom src).top = some t := top_of_chain (k.chain.trans chain)
    refine ⟨fun heat check => ?_, fun class_ok check => ?_⟩
    · have e : exec (.demandOff src) s = finish (doDemandOff src (Work.idle (s.heardFrom src))) :=
        request_performed (p := []) hm (by omega) (Nat.zero_le 24) readRequest_demandOff (.inl (k.calm check))
      rw [e]
      generalize s.heardFrom src = h at k check top ⊢
      have cls : (h.tables.seq t).cls = .heat := by rw [k.ground.tables]; exact heat
      have stop : (h.tables.seq t).stopLink = some m := by rw [k.ground.tables]; exact link
      rw [doDemandOff_hot top cls, clearDemand_heat (w := Work.idle (h.reply src (.ok []))) false top cls, Work.idle_st, Work.idle_withSt,
        replaceByStop_passed (w := Work.idle ((h.reply src (.ok [])).withDemand false)) stop check]
      obtain ⟨u, run, entered, kept⟩ := k.enters .demandOff false src hn hu hs quiet
      rw [chain] at entered
      exact ⟨u, run, entered, kept.demand, kept.reply, kept.fault.trans k.fault⟩
    · rw [exec_stop hm (k.calm check)]
      generalize s.heardFrom src = h at k check top ⊢
      have stop : (h.tables.seq t).stopLink = some m := by rw [k.ground.tables]; exact link
      rw [doStop_of_top (w := Work.idle h) (k.ground.phase.trans hn) top src,
        if_pos (by rw [Work.idle_st, k.ground.tables]; exact (stoppable_iff _).2 class_ok),
        stopTop_passed (w := Work.idle h) stop check]
      obtain ⟨u, run, entered, kept⟩ := k.answers .stopLink src hn hu hs quiet
      rw [chain] at entered
      exact ⟨u, run, entered, kept.demand.trans k.demand, kept.reply, kept.fault.trans k.fault⟩

/-- Settles O30: a timer that runs, or stands still, does not expire; absence clears demand and replaces a HEAT or SERVICE top. -/
theorem absenceBegins : Obligations.AbsenceBegins := by
  unfold Obligations.AbsenceBegins
  intro s
  have e : exec .absenceTimerExpiry s = finish (absenceExpired (Work.idle s)) := rfl
  refine ⟨fun h => ?_, fun h empty => ?_, fun t m below h chain hn hs hu link quiet passes => ?_⟩
  · rw [e]
    exact (congrArg finish (if_neg fun k => h ((ranOut_iff s.gate.absence).1 k))).trans (finish_idleState s)
  · have lead := absence_leads h
    rw [clearDemand_empty true (by exact empty)] at lead
    rw [e]
    exact lead.finish (by decide) rfl
  · have lead := absence_leads h
    have top : (Work.waiting s.absent []).st.top = some t := top_of_chain chain
    have ground : SameGround s (s.absent.withDemand false) := ⟨rfl, rfl, rfl, rfl, rfl, rfl, rfl, rfl, rfl, rfl, rfl, rfl⟩
    have enters (c : Cause) (lead : Leads 1 (absenceExpired (Work.idle s)) (doEnter m c (Work.waiting (s.absent.withDemand false) []))) :
        ∃ u : State, exec .absenceTimerExpiry s = .next u.arbitrate ∧ s.enteredSeq u m below [] ∧
          u.seq.demand = false ∧ u.gate.present = false ∧ u.gate.absence = none ∧ u.fault = s.fault := by
      obtain ⟨u, run, entered, landed⟩ := finish_enter (kinds := []) lead ground ⟨rfl, rfl, rfl⟩ hn
        (State.undisturbed_of_unwatched hu) hs quiet (fun _ ha => nomatch ha) (Nat.succ_le_of_lt (Nat.zero_lt_succ 39999))
      have tail : (Work.waiting (s.absent.withDemand false) []).st.seq.chain.tail = below := by
        show s.seq.chain.tail = below
        rw [chain]; rfl
      have kept := landed.kept
      exact ⟨u, by rw [e]; exact run, tail ▸ entered, kept.demand, kept.present, kept.absence, kept.fault⟩
    rcases passes with ⟨heat, check⟩ | ⟨service, check⟩
    · rw [clearDemand_heat true top heat, replaceByStop_passed (m := m) (by exact link) (absent_switchCheck (.inl rfl) check)] at lead
      exact enters .demandOff lead
    · rw [clearDemand_service top service, replaceByStop_passed (m := m) (by exact link) (absent_switchCheck (.inr rfl) check)] at lead
      exact enters .absence lead

end
end

section
/-! SUPPORT. Faults, lockout and the teardown of the chain: which fault does what, and what a lockout leaves: O26, O46, O47. -/

namespace Sys2Proof.Machine

/-! ### The weight of a cleared chain -/

/-- The circuits that fire. -/
def State.firing (s : State) : Nat := ((List.range 6).filter fun c => (s.circuit c).stage = .firing).length

theorem State.firing_le (s : State) : s.firing ≤ 6 := Nat.le_trans (List.length_filter_le _ _) (Nat.le_of_eq List.length_range)

theorem filter_disjoint_length {α : Type} {l : List α} {p q r : α → Bool} (hp : ∀ a ∈ l, p a = true → r a = true ∧ q a = false)
    (hq : ∀ a ∈ l, q a = true → r a = true) : (l.filter p).length + (l.filter q).length ≤ (l.filter r).length := by
  induction l with
  | nil => simp
  | cons a l ih =>
    have rest := ih (fun b hb => hp b (List.mem_cons_of_mem a hb)) fun b hb => hq b (List.mem_cons_of_mem a hb)
    cases ep : p a with
    | true =>
      obtain ⟨er, eq⟩ := hp a List.mem_cons_self ep
      simp only [List.filter_cons, ep, er, eq, if_true, Bool.false_eq_true, if_false, List.length_cons]
      omega
    | false =>
      cases eq : q a with
      | true =>
        have er := hq a List.mem_cons_self eq
        simp only [List.filter_cons, ep, er, eq, if_true, Bool.false_eq_true, if_false, List.length_cons]
        omega
      | false =>
        simp only [List.filter_cons, ep, eq, Bool.false_eq_true, if_false]
        split
        · rw [List.length_cons]; omega
        · exact rest

theorem circuitMoved_releasedBy (n : Nat) (e : CircuitEntry) (c : CircuitRun) (h : circuitMoved c (releasedBy n e c) = true) :
    c.stage = .firing ∧ (releasedBy n e c).stage ≠ .firing := by
  unfold releasedBy at *
  split
  · next k => exact ⟨k.1, by simp⟩
  · next k => rw [if_neg k] at h; simp [circuitMoved] at h

theorem releasedBy_firing (n : Nat) (e : CircuitEntry) (c : CircuitRun) (h : (releasedBy n e c).stage = .firing) : c.stage = .firing := by
  unfold releasedBy at h
  split at h
  · cases h
  · exact h

/-- Each circuit that a report of leaving moves has fired, and fires no longer. -/
theorem movedCircuits_released (s : State) (n : Nat) :
    (movedCircuits s (s.mappedCircuits (releasedBy n))).length + (s.mappedCircuits (releasedBy n)).firing ≤ s.firing := by
  unfold movedCircuits State.firing
  have circuit {c : Nat} (hc : c ∈ List.range 6) := State.mappedCircuits_circuit s (releasedBy n) (List.mem_range.1 hc)
  refine filter_disjoint_length (fun c hc moved => ?_) fun c hc fires => ?_
  · rw [circuit hc] at moved ⊢
    split at moved
    · next used =>
      obtain ⟨before, after⟩ := circuitMoved_releasedBy n _ _ moved
      rw [if_pos used]
      exact ⟨decide_eq_true before, decide_eq_false after⟩
    · simp [circuitMoved] at moved
  · rw [circuit hc] at fires
    split at fires
    · exact decide_eq_true (releasedBy_firing n _ _ (of_decide_eq_true fires))
    · exact fires

theorem adds_reportLeft (n : Nat) (w : Work) : ∃ m, Adds m w (reportLeft n w) ∧ m + 41 * (reportLeft n w).st.firing ≤ 41 * w.st.firing := by
  obtain ⟨moved, hm⟩ : ∃ moved, moved = movedCircuits w.st (w.st.mappedCircuits (releasedBy n)) := ⟨_, rfl⟩
  have few := movedCircuits_released w.st n
  have st : (reportLeft n w).st = w.st.mappedCircuits (releasedBy n) := mapCircuits_st _ w
  have shape : reportLeft n w = ((w.withSt (w.st.mappedCircuits (releasedBy n))).emit (claimsIfMoved moved)).frostMoved moved := by
    rw [hm]; rfl
  have claims : ((claimsIfMoved moved).map calmWeight).sum ≤ 40 * moved.length := by
    unfold claimsIfMoved
    cases moved with
    | nil => simp
    | cons c l =>
      show 40 + 0 ≤ 40 * (l.length + 1)
      omega
  refine ⟨((claimsIfMoved moved).map calmWeight).sum + moved.length, ?_, ?_⟩
  · rw [shape]
    exact (((adds_withSt w _).trans (adds_emit _ (claimsIfMoved_tame moved).1)).trans (adds_frostMoved moved _)).mono (by omega)
  · rw [st]
    rw [← hm] at few
    omega

theorem adds_clearChain (w : Work) : Adds 286 w (clearChain w) := by
  have fold : ∀ (l : List Nat) (v : Work), ∃ m,
      Adds m v (l.foldl (fun w n => reportLeft n (w.withSt (w.st.discardSaved n))) v) ∧
        m + 41 * (l.foldl (fun w n => reportLeft n (w.withSt (w.st.discardSaved n))) v).st.firing ≤ 41 * v.st.firing := by
    intro l
    induction l with
    | nil => exact fun v => ⟨0, adds_refl v, by rw [List.foldl_nil]; omega⟩
    | cons n l ih =>
      intro v
      obtain ⟨m, first, spent⟩ := adds_reportLeft n (v.withSt (v.st.discardSaved n))
      obtain ⟨k, rest, later⟩ := ih (reportLeft n (v.withSt (v.st.discardSaved n)))
      have same : (v.withSt (v.st.discardSaved n)).st.firing = v.st.firing := rfl
      exact ⟨0 + m + k, ((adds_withSt v _).trans first).trans rest, by rw [List.foldl_cons]; omega⟩
  obtain ⟨m, all, spent⟩ := fold w.st.seq.chain w
  have := w.st.firing_le
  exact ((all.trans (adds_withSt _ _)).trans (adds_claims _)).mono (by omega)

theorem adds_teardown (w : Work) : Adds 291 w (teardown w) :=
  (((adds_clearChain w).trans (adds_withSt _ _)).trans (adds_setFlue _ _)).trans (adds_traceFinish _)

/-! ### The state after a teardown (R94) -/

theorem State.cleared_chain (s : State) : s.cleared.seq.chain = [] ∧ s.cleared.seq.running = none := ⟨rfl, rfl⟩

theorem State.cleared_ground (s : State) : SameGround s s.cleared :=
  State.cleared_keeps (P := SameGround s) (fun _ _ h => h.trans ⟨rfl, rfl, rfl, rfl, rfl, rfl, rfl, rfl, rfl, rfl, rfl, rfl⟩)
    (fun _ h => h.trans ⟨rfl, rfl, rfl, rfl, rfl, rfl, rfl, rfl, rfl, rfl, rfl, rfl⟩) (SameGround.refl s)

theorem State.cleared_demand (s : State) : s.cleared.seq.demand = s.seq.demand :=
  State.cleared_keeps (P := fun t => t.seq.demand = s.seq.demand) (fun _ _ h => h) (fun _ h => h) rfl

theorem teardown_st (w : Work) : (teardown w).st =
    ((w.st.cleared.clearRecycles).setFlue (idleFlue w.st.flue)).setTrace w.traceFinish.st.trace := by
  have st := clearChain_st w
  have e := w.st.cleared_eq
  have flue : (((clearChain w).withSt (clearChain w).st.clearRecycles).riseIdle).st = (w.st.cleared.clearRecycles).setFlue (idleFlue w.st.flue) := by
    unfold Work.riseIdle
    rw [Work.setFlue_st, Work.withSt_st, st]
    refine congrArg (fun f => (w.st.cleared.clearRecycles).setFlue (idleFlue f)) ?_
    rw [e]; rfl
  unfold teardown
  dsimp only
  generalize (((clearChain w).withSt (clearChain w).st.clearRecycles).riseIdle) = v at flue ⊢
  have recorded : AsRecorded w v := by
    refine ⟨?_, ?_, ?_⟩ <;> rw [flue, e] <;> rfl
  rw [Work.traceFinish_st, recorded.ended.trace, flue]

/-! ### Lockout (R145) -/

/-- The work of a lockout before its purge. -/
def Work.lockedOut (f : FaultIn) (mark : Bool) (w : Work) : Work :=
  let r := w.st.faultRecord f .lockout .lockedOut mark
  let v := lockoutEntered (teardown (w.withSt ((w.st.setData (w.st.fault.data.lock r)).noteFault r)))
  v.withSt v.st.raiseLockout.requestPersist

theorem lockOut_eq (f : FaultIn) (mark : Bool) (w : Work) : lockOut f mark w = enterPurge (w.lockedOut f mark) := rfl

theorem adds_lockedOut (f : FaultIn) (mark : Bool) (w : Work) : Adds 337 w (w.lockedOut f mark) :=
  (((adds_withSt w _).trans (adds_teardown _)).trans (adds_mapCircuits _ _)).trans (adds_withSt _ _)

theorem requestPersist_eq (s : State) : s.requestPersist = s.setStore s.requestPersist.store := rfl

theorem requestPersist_store (s : State) : (s.requestPersist.store.write.isSome = true ∨ s.requestPersist.store.again = true) ∧
    s.requestPersist.store.commit = s.store.commit := by
  unfold State.requestPersist
  split
  · exact ⟨.inr rfl, rfl⟩
  · refine ⟨.inl ?_, (Store.startWrite_keeps s.store s.fault.data).2.2.2⟩
    show (s.store.startWrite s.fault.data).write.isSome = true
    unfold Store.startWrite
    split <;> rfl

/-- What a lockout leaves before its purge, from the state in which the fault was decided. -/
structure TornDown (s : State) (f : FaultIn) (mark : Bool) (t : TraceUnit) (p : State) : Prop where
  ground : SameGround s p
  trace : p.trace = t
  data : p.fault.data = s.fault.data.lock (s.faultRecord f .lockout .lockedOut mark)
  record : p.fault.record = some (s.faultRecord f .lockout .lockedOut mark)
  chain : p.seq.chain = []
  recycle : ∀ i, (p.seqRun i).recycle = 0
  demand : p.seq.demand = s.seq.demand
  commit : p.store.commit = s.store.commit
  writes : p.store.write.isSome = true ∨ p.store.again = true
  notices : s.gate.notices.length = 7 → (p.notice .lockout).flag = true ∧ (p.notice .fault).flag = true
  lines : p.lines = s.lines

/-- What a change of the circuits leaves. -/
theorem fields_of_circuits {b c : State} {x : List CircuitRun} (e : c = { b with circuits := x }) :
    SameGround b c ∧ c.fault = b.fault ∧ c.gate = b.gate ∧ c.seq = b.seq ∧ c.store = b.store ∧ c.trace = b.trace ∧ c.lines = b.lines := by
  subst e
  exact ⟨⟨rfl, rfl, rfl, rfl, rfl, rfl, rfl, rfl, rfl, rfl, rfl, rfl⟩, rfl, rfl, rfl, rfl, rfl, rfl⟩

theorem mapCircuits_eq (f : CircuitEntry → CircuitRun → CircuitRun) (w : Work) :
    (mapCircuits f w).st = { w.st with circuits := (w.st.mappedCircuits f).circuits } := mapCircuits_st f w

/-- What a teardown leaves: the chain empty, every count 0, the trace record ended. -/
structure Cleared (a : State) (t : TraceUnit) (b : State) : Prop where
  ground : SameGround a b
  fault : b.fault = a.fault
  gate : b.gate = a.gate
  store : b.store = a.store
  lines : b.lines = a.lines
  trace : b.trace = t
  chain : b.seq.chain = []
  demand : b.seq.demand = a.seq.demand
  recycle : ∀ i, (b.seqRun i).recycle = 0

theorem cleared_eq_fields {a b : State} {u : SeqUnit} {x : List CircuitRun} (e : b = { a with seq := u, circuits := x }) :
    b.fault = a.fault ∧ b.gate = a.gate ∧ b.store = a.store ∧ b.lines = a.lines := by
  subst e
  exact ⟨rfl, rfl, rfl, rfl⟩

theorem teardown_cleared (w : Work) : Cleared w.st w.traceFinish.st.trace (teardown w).st := by
  have st := teardown_st w
  have ground := w.st.cleared_ground
  have demand := w.st.cleared_demand
  obtain ⟨chain, -⟩ := w.st.cleared_chain
  obtain ⟨fault, gate, store, lines⟩ := cleared_eq_fields w.st.cleared_eq
  generalize w.st.cleared = c at st ground demand chain fault gate store lines
  rw [st]
  exact {
    ground := ground.trans ⟨rfl, rfl, rfl, rfl, rfl, rfl, rfl, rfl, rfl, rfl, rfl, rfl⟩
    fault := fault
    gate := gate
    store := store
    lines := lines
    trace := rfl
    chain := chain
    demand := demand
    recycle := fun i => by
      show ((c.seq.runs.map fun x => { x with recycle := 0 }).getD i SeqRun.reset).recycle = 0
      rw [List.getD_eq_getElem?_getD, List.getElem?_map]
      cases c.seq.runs[i]? <;> rfl }

theorem noteFault_flag {s : State} (h : s.gate.notices.length = 7) (r : FaultRecord) :
    ((s.noteFault r).notice .fault).flag = true ∧ (s.noteFault r).gate.notices.length = 7 :=
  ⟨(State.raiseNotice_flag (s := s.setFault { s.fault with record := some r }) h .fault _ .fault).1, List.length_set.trans h⟩

theorem raiseLockout_flag {s : State} (hl : s.gate.notices.length = 7) :
    (s.raiseLockout.requestPersist.notice .lockout).flag = true ∧
      ((s.notice .fault).flag = true → (s.raiseLockout.requestPersist.notice .fault).flag = true) :=
  State.raiseNotice_flag hl .lockout [] .fault

/-- The Fault Unit and its notice when a lockout begins (R145 actions 1 to 3). -/
def State.lockedBy (s : State) (r : FaultRecord) : State := (s.setData (s.fault.data.lock r)).noteFault r

theorem lockedBy_ground (s : State) (r : FaultRecord) : SameGround s (s.lockedBy r) :=
  ⟨rfl, rfl, rfl, rfl, rfl, rfl, rfl, rfl, rfl, rfl, rfl, rfl⟩

theorem lockedBy_fields (s : State) (r : FaultRecord) : (s.lockedBy r).fault.data = s.fault.data.lock r ∧
    (s.lockedBy r).fault.record = some r ∧ (s.lockedBy r).seq = s.seq ∧ (s.lockedBy r).store = s.store ∧
    (s.lockedBy r).lines = s.lines ∧ (s.lockedBy r).trace = s.trace := ⟨rfl, rfl, rfl, rfl, rfl, rfl⟩

/-- What the LOCKOUT notice and the write leave. -/
theorem raiseLockout_fields (c : State) : SameGround c c.raiseLockout.requestPersist ∧
    c.raiseLockout.requestPersist.fault = c.fault ∧ c.raiseLockout.requestPersist.seq = c.seq ∧
    c.raiseLockout.requestPersist.lines = c.lines ∧ c.raiseLockout.requestPersist.trace = c.trace :=
  ⟨⟨rfl, rfl, rfl, rfl, rfl, rfl, rfl, rfl, rfl, rfl, rfl, rfl⟩, rfl, rfl, rfl, rfl⟩

theorem Work.lockedOut_eq (f : FaultIn) (mark : Bool) (w : Work) {r : FaultRecord} (hr : r = w.st.faultRecord f .lockout .lockedOut mark) :
    (w.lockedOut f mark).st = (lockoutEntered (teardown (w.withSt (w.st.lockedBy r)))).st.raiseLockout.requestPersist := by
  subst hr
  rfl

theorem Work.lockedOut_st (f : FaultIn) (mark : Bool) (w : Work) :
    TornDown w.st f mark w.traceFinish.st.trace (w.lockedOut f mark).st := by
  obtain ⟨r, hr⟩ : ∃ r, r = w.st.faultRecord f .lockout .lockedOut mark := ⟨_, rfl⟩
  have st := w.lockedOut_eq f mark hr
  have groundA := lockedBy_ground w.st r
  have noted := noteFault_flag (s := w.st.setData (w.st.fault.data.lock r)) (r := r)
  obtain ⟨data, record, seqA, storeA, linesA, traceA⟩ := lockedBy_fields w.st r
  rw [show (w.st.setData (w.st.fault.data.lock r)).noteFault r = w.st.lockedBy r from rfl] at noted
  have down := teardown_cleared (w.withSt (w.st.lockedBy r))
  have same : AsRecorded w (w.withSt (w.st.lockedBy r)) := ⟨traceA, groundA.clock, groundA.tables⟩
  rw [Work.withSt_st, same.ended.trace] at down
  have entered : (lockoutEntered (teardown (w.withSt (w.st.lockedBy r)))).st = _ := mapCircuits_eq _ _
  obtain ⟨ground, fault, gate, seq, store, trace, lines⟩ := fields_of_circuits entered
  rw [st]
  generalize (lockoutEntered (teardown (w.withSt (w.st.lockedBy r)))).st = c at *
  generalize (teardown (w.withSt (w.st.lockedBy r))).st = b at *
  generalize w.st.lockedBy r = a at *
  obtain ⟨writes, commit⟩ := requestPersist_store c.raiseLockout
  obtain ⟨groundC, faultC, seqC, linesC, traceC⟩ := raiseLockout_fields c
  have raised := raiseLockout_flag (s := c)
  rw [State.raiseLockout_store] at commit
  generalize c.raiseLockout.requestPersist = p at *
  exact {
    ground := groundA.trans (down.ground.trans (ground.trans groundC))
    trace := traceC.trans (trace.trans down.trace)
    data := by rw [faultC, fault, down.fault, data, hr]
    record := by rw [faultC, fault, down.fault, record, hr]
    chain := by rw [seqC, seq, down.chain]
    recycle := fun i => by
      have e : p.seqRun i = b.seqRun i := by unfold State.seqRun; rw [seqC, seq]
      rw [e]
      exact down.recycle i
    demand := by rw [seqC, seq, down.demand, seqA]
    commit := by rw [commit, store, down.store, storeA]
    writes := writes
    notices := fun h => by
      obtain ⟨flagged, length⟩ := noted h
      obtain ⟨lockout, kept⟩ := raised (by rw [gate, down.gate]; exact length)
      refine ⟨lockout, kept ?_⟩
      unfold State.notice at *
      rw [gate, down.gate]
      exact flagged
    lines := linesC.trans (lines.trans (down.lines.trans linesA)) }

end Sys2Proof.Machine
end

section
/-! SUPPORT. Faults taken: which fault locks out, what a lockout and its purge leave, a fault while locked, and a recycled
step: O26, O46, O47. -/

namespace Sys2Proof.Machine

/-! ### A fault taken while unlocked (R144) -/

theorem actTakeFault_unlocked {f : FaultIn} {w : Work} (h : w.st.locked = false) :
    actTakeFault f w = faultUnlocked f (w.trace (.fault f.code)) := by
  unfold actTakeFault
  refine if_neg ?_
  have e : (w.trace (.fault f.code)).st.locked = w.st.locked := by rw [Work.trace_st]; rfl
  rw [e, h]
  exact Bool.false_ne_true

theorem actTakeFault_locked {f : FaultIn} {w : Work} (h : w.st.locked = true) :
    actTakeFault f w = faultLocked f (w.trace (.fault f.code)) := by
  unfold actTakeFault
  refine if_pos ?_
  have e : (w.trace (.fault f.code)).st.locked = w.st.locked := by rw [Work.trace_st]; rfl
  exact e.trans h

theorem faultRecord_trace (f : FaultIn) (w : Work) (k : TraceKind) (cls : FaultClass) (o : FaultOutcome) (mark : Bool) :
    (w.trace k).st.faultRecord f cls o mark = w.st.faultRecord f cls o mark := by rw [Work.trace_st]; rfl

theorem actTakeFault_notice {f : FaultIn} {w : Work} (h : w.st.locked = false) (hc : f.cls = .notice) :
    actTakeFault f w = (w.trace (.fault f.code)).withSt ((w.trace (.fault f.code)).st.noteFault (w.st.faultRecord f .notice .noted false)) := by
  rw [actTakeFault_unlocked h]
  unfold faultUnlocked
  rw [hc]
  dsimp only
  rw [faultRecord_trace]

theorem actTakeFault_lockout {f : FaultIn} {w : Work} (h : w.st.locked = false) (hc : f.cls = .lockout) :
    actTakeFault f w = lockOut f false (w.trace (.fault f.code)) := by
  rw [actTakeFault_unlocked h]
  unfold faultUnlocked
  rw [hc]

/-- The work of a fault of class RECYCLE, counted (R144). -/
def Work.counted (w : Work) (code n : Nat) : Work :=
  (w.trace (.fault code)).withSt ((w.trace (.fault code)).st.setRecycle n ((w.st.seqRun n).recycle + 1))

theorem seqRun_setRecycle {s : State} {n : Nat} (h : n < s.seq.runs.length) (k i : Nat) :
    ((s.setRecycle n k).seqRun i) = if i = n then { s.seqRun n with recycle := k } else s.seqRun i := by
  have e : (s.setRecycle n k).seqRun i = (s.seq.runs.set n { s.seqRun n with recycle := k }).getD i SeqRun.reset := rfl
  rw [e, getD_set]
  by_cases hi : i = n
  · subst hi
    rw [if_pos ⟨rfl, h⟩, if_pos rfl]
  · rw [if_neg (fun k => hi k.1.symm), if_neg hi]
    rfl

theorem recycle_limit {f : FaultIn} {n : Nat} {w c : Work} (hc : c = w.withSt (w.st.setRecycle n ((w.st.seqRun n).recycle + 1)))
    (h : (c.st.tables.seq n).recycleLimit ≤ (c.st.seqRun n).recycle) : recycle f n w = lockOut f true c := by
  subst hc
  exact if_pos h

theorem recycle_refused {f : FaultIn} {n : Nat} {w c : Work} (hc : c = w.withSt (w.st.setRecycle n ((w.st.seqRun n).recycle + 1)))
    (h : ¬ (c.st.tables.seq n).recycleLimit ≤ (c.st.seqRun n).recycle)
    (refused : ∀ m, (c.st.tables.seq n).recoveryLink = some m → c.st.switchCheck m .recycle ≠ none) :
    recycle f n w = lockOut f false c := by
  subst hc
  unfold recycle
  refine (if_neg h).trans ?_
  split
  · next m link check => exact absurd (State.switchCheck_of_opt link check) (refused m link)
  · rfl

theorem recycle_recovers {f : FaultIn} {n m : Nat} {w c : Work} (hc : c = w.withSt (w.st.setRecycle n ((w.st.seqRun n).recycle + 1)))
    (h : ¬ (c.st.tables.seq n).recycleLimit ≤ (c.st.seqRun n).recycle) (link : (c.st.tables.seq n).recoveryLink = some m)
    (check : c.st.switchCheck m .recycle = none) :
    recycle f n w = doEnter m .recycle (c.withSt (c.st.noteFault (c.st.faultRecord f .recycle .recycled false))) := by
  subst hc
  unfold recycle
  refine (if_neg h).trans ?_
  split
  · next k link' _ =>
    rw [link] at link'
    cases link'
    rfl
  · next other => exact absurd (show State.switchCheckOpt _ (some m) .recycle = none from check) (by rw [← link]; exact other m link)

/-- What the count of a fault of class RECYCLE leaves. -/
structure Counts (w : Work) (code n : Nat) : Prop where
  shape : ∀ f : FaultIn, w.st.locked = false → f.cls = .recycle → f.seq = some n → f.code = code →
    actTakeFault f w = recycle f n (w.trace (.fault code))
  counted : w.counted code n = (w.trace (.fault code)).withSt ((w.trace (.fault code)).st.setRecycle n
    (((w.trace (.fault code)).st.seqRun n).recycle + 1))
  tables : (w.counted code n).st.tables = w.st.tables
  count : ((w.counted code n).st.seqRun n).recycle = (w.st.seqRun n).recycle + 1
  check : ∀ m, (w.counted code n).st.switchCheck m .recycle = w.st.switchCheck m .recycle
  record : ∀ (f : FaultIn) cls o mark, (w.counted code n).st.faultRecord f cls o mark = w.st.faultRecord f cls o mark

theorem Work.counted_st (w : Work) (code n : Nat) :
    (w.counted code n).st = (w.st.setTrace (w.trace (.fault code)).st.trace).setRecycle n ((w.st.seqRun n).recycle + 1) := by
  show (w.trace (.fault code)).st.setRecycle _ _ = _
  rw [Work.trace_st]
  rfl

theorem counts {w : Work} {n : Nat} (code : Nat) (hn : n < w.st.seq.runs.length) : Counts w code n where
  shape f h hc hs hf := by
    subst hf
    rw [actTakeFault_unlocked h]
    unfold faultUnlocked
    rw [hc, hs]
  counted := by
    have run : (w.trace (.fault code)).st.seqRun n = w.st.seqRun n := by rw [Work.trace_st]; rfl
    rw [run]
    rfl
  tables := by rw [Work.counted_st]; rfl
  count := by
    have e := seqRun_setRecycle (s := w.st.setTrace (w.trace (.fault code)).st.trace) (n := n) hn ((w.st.seqRun n).recycle + 1) n
    rw [if_pos rfl] at e
    rw [Work.counted_st]
    exact congrArg SeqRun.recycle e
  check m := by rw [Work.counted_st]; rfl
  record f cls o mark := by rw [Work.counted_st]; rfl

theorem actTakeFault_limit {f : FaultIn} {w : Work} {n : Nat} (h : w.st.locked = false) (hc : f.cls = .recycle)
    (hs : f.seq = some n) (hn : n < w.st.seq.runs.length)
    (limit : (w.st.tables.seq n).recycleLimit ≤ (w.st.seqRun n).recycle + 1) :
    actTakeFault f w = lockOut f true (w.counted f.code n) := by
  have k := counts (w := w) f.code hn
  rw [k.shape f h hc hs rfl]
  exact recycle_limit k.counted (by rw [k.tables, k.count]; exact limit)

theorem actTakeFault_refused {f : FaultIn} {w : Work} {n : Nat} (h : w.st.locked = false) (hc : f.cls = .recycle)
    (hs : f.seq = some n) (hn : n < w.st.seq.runs.length)
    (limit : (w.st.seqRun n).recycle + 1 < (w.st.tables.seq n).recycleLimit)
    (refused : ∀ m, (w.st.tables.seq n).recoveryLink = some m → w.st.switchCheck m .recycle ≠ none) :
    actTakeFault f w = lockOut f false (w.counted f.code n) := by
  have k := counts (w := w) f.code hn
  rw [k.shape f h hc hs rfl]
  exact recycle_refused k.counted (by rw [k.tables, k.count]; omega) (by rw [k.tables]; intro m hm; rw [k.check]; exact refused m hm)

theorem actTakeFault_recovers {f : FaultIn} {w : Work} {n m : Nat} (h : w.st.locked = false) (hc : f.cls = .recycle)
    (hs : f.seq = some n) (hn : n < w.st.seq.runs.length)
    (limit : (w.st.seqRun n).recycle + 1 < (w.st.tables.seq n).recycleLimit)
    (link : (w.st.tables.seq n).recoveryLink = some m) (check : w.st.switchCheck m .recycle = none) :
    actTakeFault f w = doEnter m .recycle ((w.counted f.code n).withSt
      ((w.counted f.code n).st.noteFault (w.st.faultRecord f .recycle .recycled false))) := by
  have k := counts (w := w) f.code hn
  rw [k.shape f h hc hs rfl, ← k.record]
  exact recycle_recovers k.counted (by rw [k.tables, k.count]; omega) (by rw [k.tables]; exact link) (by rw [k.check]; exact check)

theorem adds_counted (w : Work) (code n : Nat) : Adds 2 w (w.counted code n) := (adds_trace w _).trans (adds_withSt _ _)

/-- A counted fault, before it is decided, has left what a switch reads. -/
theorem Work.counted_ground (w : Work) (code n : Nat) : SameGround w.st (w.counted code n).st := by
  rw [Work.counted_st]
  exact ⟨rfl, rfl, rfl, rfl, rfl, rfl, rfl, rfl, rfl, rfl, rfl, rfl⟩

theorem Work.counted_recorded (w : Work) (code n : Nat) : AsRecorded (w.trace (.fault code)) (w.counted code n) := ⟨rfl, rfl, rfl⟩

theorem Work.counted_sized {w : Work} (h : w.st.sized) (code n : Nat) : (w.counted code n).st.sized :=
  Moves.keeps (s := w.st) Move.sized ((w.trace_moves (.fault code)).trans (State.setSeqRun_moves _ n _)) h

/-- The work of a fault that is RECYCLED, before the recovery entry. -/
def Work.recovered (w : Work) (f : FaultIn) (n : Nat) : Work :=
  (w.counted f.code n).withSt ((w.counted f.code n).st.noteFault (w.st.faultRecord f .recycle .recycled false))

theorem noteFault_ground (s : State) (r : FaultRecord) : SameGround s (s.noteFault r) :=
  ⟨rfl, rfl, rfl, rfl, rfl, rfl, rfl, rfl, rfl, rfl, rfl, rfl⟩

theorem Work.recovered_ground (w : Work) (f : FaultIn) (n : Nat) : SameGround w.st (w.recovered f n).st :=
  (w.counted_ground f.code n).trans (noteFault_ground _ _)

theorem Work.recovered_recorded (w : Work) (f : FaultIn) (n : Nat) : AsRecorded (w.trace (.fault f.code)) (w.recovered f n) := ⟨rfl, rfl, rfl⟩

theorem Work.recovered_sized {w : Work} (h : w.st.sized) (f : FaultIn) (n : Nat) : (w.recovered f n).st.sized :=
  (State.noteFault_moves _ _).keeps Move.sized (Work.counted_sized h _ _)

theorem adds_recovered (w : Work) (f : FaultIn) (n : Nat) : Adds 2 w (w.recovered f n) :=
  (adds_counted w f.code n).trans (adds_withSt _ _)

/-- What a fault that is RECYCLED leaves of the chain, the counts and the Fault Unit. -/
theorem Work.recovered_st (w : Work) (f : FaultIn) {n : Nat} (hn : n < w.st.seq.runs.length) :
    (w.recovered f n).st.seq.chain = w.st.seq.chain ∧
      ((w.recovered f n).st.seqRun n).recycle = (w.st.seqRun n).recycle + 1 ∧
      (w.recovered f n).st.fault = { w.st.fault with record := some (w.st.faultRecord f .recycle .recycled false) } := by
  have e : (w.recovered f n).st = (w.counted f.code n).st.noteFault (w.st.faultRecord f .recycle .recycled false) := rfl
  refine ⟨?_, (counts f.code hn).count, ?_⟩ <;> rw [e, Work.counted_st] <;> rfl

/-! ### The lockout purge (R95) -/

theorem lockoutSeq_of_device {t : Tables} (h : deviceCheck t = true) :
    t.device.lockoutSeq < 12 ∧ (t.seq t.device.lockoutSeq).inUse = true ∧ (t.seq t.device.lockoutSeq).cls = .lockoutPurge := by
  unfold deviceCheck Tables.seqOf at h
  simp only [Bool.and_eq_true, decide_eq_true_eq] at h
  obtain ⟨-, ⟨range, inUse⟩, cls⟩ := h
  exact ⟨range, inUse, cls⟩

theorem purge_admitted {p : State} (h : deviceCheck p.tables = true) (hc : p.seq.chain = []) (calm : p.committing = false) :
    p.switchCheck p.tables.device.lockoutSeq .lockout = none := by
  obtain ⟨range, inUse, cls⟩ := lockoutSeq_of_device h
  refine (switchCheck_eq_none_iff p _ _).2 ⟨⟨range, inUse⟩, by rw [cls]; rfl, by rw [hc]; exact List.not_mem_nil, fun k => (nomatch k),
    fun k => (nomatch k), fun _ => by rw [cls]; rfl, fun _ => rfl, calm⟩

theorem purge_waits {p : State} (h : deviceCheck p.tables = true) (hc : p.seq.chain = []) (busy : p.committing = true) :
    p.switchCheck p.tables.device.lockoutSeq .lockout = some .committing := by
  obtain ⟨range, inUse, cls⟩ := lockoutSeq_of_device h
  unfold State.switchCheck State.active
  rw [decide_eq_true range, inUse, cls, hc, busy]
  simp [Cause.allows, Cause.calls, SeqClass.needsController]

theorem enterPurge_admitted {w : Work} (h : w.st.switchCheck w.st.tables.device.lockoutSeq .lockout = none) :
    enterPurge w = doEnter w.st.tables.device.lockoutSeq .lockout w := by unfold enterPurge; rw [h]

theorem enterPurge_waits {w : Work} (h : w.st.switchCheck w.st.tables.device.lockoutSeq .lockout = some .committing) :
    enterPurge w = w.withSt (w.st.setSeq { w.st.seq with purgeDue := true }) := by unfold enterPurge; rw [h]

theorem leaveHead_empty {w : Work} (h : w.st.seq.chain = []) : leaveHead w = w := by unfold leaveHead; rw [h]

theorem State.left_empty {s : State} (h : s.seq.chain = []) : s.left = s := by unfold State.left; rw [h]

theorem committing_of_commit {s t : State} (h : t.store.commit = s.store.commit) : t.committing = s.committing := by
  unfold State.committing; rw [h]

theorem Work.lockedOut_moves (f : FaultIn) (mark : Bool) (w : Work) : Moves w.st (w.lockedOut f mark).st := by
  unfold Work.lockedOut
  dsimp only
  refine Moves.trans ?_ ((State.raiseNotice_moves _ _ _).trans (State.requestPersist_moves _))
  refine Moves.trans ?_ (lockoutEntered_moves _)
  refine Moves.trans ?_ (teardown_moves (w.withSt _))
  exact (w.st.setFault_moves (LockoutData.lock_lawful _)).trans (State.noteFault_moves _ _)

theorem asRecorded_lockedOut (f : FaultIn) (mark : Bool) (w : Work) : AsRecorded w.traceFinish (w.lockedOut f mark) := by
  have torn := w.lockedOut_st f mark
  exact ⟨torn.trace, torn.ground.clock.trans (by rw [Work.traceFinish_st]; rfl),
    torn.ground.tables.trans (by rw [Work.traceFinish_st]; rfl)⟩

/-- What a lockout leaves, its purge entered or due (R145, R94, R95). -/
structure LocksOut (w : Work) (f : FaultIn) (mark : Bool) (t : State) : Prop where
  data : t.fault.data = w.st.fault.data.lock (w.st.faultRecord f .lockout .lockedOut mark)
  record : t.fault.record = some (w.st.faultRecord f .lockout .lockedOut mark)
  recycle : ∀ n, (t.seqRun n).recycle = 0
  entered : w.st.committing = false → t.seq.chain = [w.st.tables.device.lockoutSeq] ∧ t.seq.purgeDue = w.st.seq.purgeDue
  due : w.st.committing = true → t.seq.chain = [] ∧ t.seq.purgeDue = true
  ended : w.st.committing = true → t.trace = w.traceFinish.st.trace
  begun : w.st.committing = false → t.trace = (w.traceFinish.traceTop w.st.tables.device.lockoutSeq).st.trace
  demand : t.seq.demand = w.st.seq.demand
  triggers : t.seq.triggers = w.st.seq.triggers
  points : t.points = w.st.points
  tables : t.tables = w.st.tables
  writes : t.store.write.isSome = true ∨ t.store.again = true

theorem lockOut_locksOut (f : FaultIn) (mark : Bool) {w : Work} (device : deviceCheck w.st.tables = true) :
    LocksOut w f mark (lockOut f mark w).st := by
  have torn := w.lockedOut_st f mark
  have finished := asRecorded_lockedOut f mark w
  rw [lockOut_eq]
  generalize w.lockedOut f mark = p at torn finished ⊢
  have device' : deviceCheck p.st.tables = true := by rw [torn.ground.tables]; exact device
  have calm := committing_of_commit torn.commit
  cases hc : w.st.committing with
  | true =>
    rw [enterPurge_waits (purge_waits device' torn.chain (calm.trans hc)), Work.withSt_st]
    exact {
      data := torn.data
      record := torn.record
      recycle := torn.recycle
      entered := fun k => by rw [hc] at k; cases k
      due := fun _ => ⟨torn.chain, rfl⟩
      ended := fun _ => torn.trace
      begun := fun k => by rw [hc] at k; cases k
      demand := torn.demand
      triggers := torn.ground.triggers
      points := torn.ground.points
      tables := torn.ground.tables
      writes := torn.writes }
  | false =>
    have st := p.joining_st p.st.tables.device.lockoutSeq (some .lockout) .enter
    have same := joined_sameUnits p.st p.st.tables.device.lockoutSeq (p.traceTop p.st.tables.device.lockoutSeq).st.trace
    have ground : SameGround p.st _ := (p.st.joined_ground p.st.tables.device.lockoutSeq).trans
      (State.setTrace_ground _ (p.traceTop p.st.tables.device.lockoutSeq).st.trace)
    rw [enterPurge_admitted (purge_admitted device' torn.chain (calm.trans hc)), doEnter_eq, leaveHead_empty torn.chain, Work.push_st]
    rw [← st] at same ground
    have chain : (p.joining p.st.tables.device.lockoutSeq (some .lockout) .enter).st.seq.chain = [w.st.tables.device.lockoutSeq] := by
      rw [st, ← torn.ground.tables]
      exact congrArg (List.cons _) torn.chain
    have trace : (p.joining p.st.tables.device.lockoutSeq (some .lockout) .enter).st.trace =
        (w.traceFinish.traceTop w.st.tables.device.lockoutSeq).st.trace := by
      rw [st, ← torn.ground.tables]
      exact (finished.top _).trace
    generalize (p.joining p.st.tables.device.lockoutSeq (some .lockout) .enter).st = q at *
    exact {
      data := by rw [same.fault, torn.data]
      record := by rw [same.fault, torn.record]
      recycle := fun n => by
        have e : q.seqRun n = p.st.seqRun n := by unfold State.seqRun; rw [same.runs]
        rw [e]
        exact torn.recycle n
      entered := fun _ => ⟨chain, ground.purgeDue.trans torn.ground.purgeDue⟩
      due := fun k => by rw [hc] at k; cases k
      ended := fun k => by rw [hc] at k; cases k
      begun := fun _ => trace
      demand := same.demand.trans torn.demand
      triggers := ground.triggers.trans torn.ground.triggers
      points := ground.points.trans torn.ground.points
      tables := ground.tables.trans torn.ground.tables
      writes := by rw [same.store]; exact torn.writes }

/-- The whole of a lockout that ends in its purge, up to the end of the event. -/
theorem finish_lockOut {m : Nat} {v w : Work} {s : State} {f : FaultIn} {mark : Bool} (lead : Leads m v (lockOut f mark w))
    (ground : SameGround s w.st) (recorded : AsRecorded ((Work.idle s).trace (.fault f.code)) w) (fault : w.st.fault = s.fault)
    (demand : w.st.seq.demand = s.seq.demand) (commit : w.st.store.commit = s.store.commit) (quiet : s.locksQuietly)
    (sized : w.st.sized) (settles : ∀ a ∈ w.waits, a.settles) (light : m + w.weight calmWeight ≤ 30000) :
    ∃ u : State, finish v = .next u.arbitrate ∧ s.lockedOut u f mark ∧
      (∀ r, r < 12 → (u.role r).limit = (w.st.role r).limit) ∧ (w.st.appliedLaw → u.appliedLaw) ∧
      ∀ l, (u.line l).mismatch = (w.st.line l).mismatch := by
  obtain ⟨unlocked, calm, hn, -, hu, device, enters⟩ := quiet
  have torn := w.lockedOut_st f mark
  have adds := adds_lockedOut f mark w
  have finished := asRecorded_lockedOut f mark w
  have roles (r : Nat) : (w.lockedOut f mark).st.role r = w.st.role r := by unfold State.role; rw [torn.ground.roles]
  have lines (l : Nat) : (w.lockedOut f mark).st.line l = w.st.line l := by unfold State.line; rw [torn.lines]
  obtain ⟨p, hp⟩ : ∃ p, p = w.lockedOut f mark := ⟨_, rfl⟩
  have sizedP : p.st.sized := by
    rw [hp]
    exact (Work.lockedOut_moves f mark w).keeps Move.sized sized
  rw [← hp] at torn adds finished roles lines
  have all : SameGround s p.st := ground.trans torn.ground
  have tables : p.st.tables = s.tables := all.tables
  have admitted : p.st.switchCheck p.st.tables.device.lockoutSeq .lockout = none :=
    purge_admitted (by rw [tables]; exact device) torn.chain
      ((committing_of_commit (torn.commit.trans commit)).trans calm)
  rw [lockOut_eq, ← hp, enterPurge_admitted admitted, tables] at lead
  obtain ⟨u, run, entered, landed⟩ := finish_enter (s := p.st) (kinds := []) lead (SameGround.refl p.st) (asRecorded_idle p)
    (all.phase.trans hn) (State.undisturbed_of_unwatched (all.unwatched hu)) sizedP (all.seqEntersQuietly enters)
    (fun a ha => .inl ((adds.fresh a ha).elim (settles a) .inl)) (by have := adds.weight; omega)
  rw [State.left_empty torn.chain] at landed
  obtain ⟨chain, running, sequence, triggers, purgeDue, chained, trace, points, conds, pins, tablesU, staging, up, down⟩ := entered
  rw [tables] at running sequence
  rw [all.allowanceNow] at running
  rw [torn.chain] at chain
  have length : w.st.gate.notices.length = 7 := by obtain ⟨-, -, -, -, -, -, -, -, -, notices, -⟩ := sized; exact notices
  obtain ⟨lockoutFlag, faultFlag⟩ := torn.notices length
  have time : w.st.faultTime = s.faultTime := by unfold State.faultTime; rw [ground.clock]
  have temp : w.st.flueTemp = s.flueTemp := by
    unfold State.flueTemp State.goodPoint State.point
    rw [ground.tables, ground.points]
  have record (cls : FaultClass) (o : FaultOutcome) (b : Bool) : w.st.faultRecord f cls o b = s.faultRecord f cls o b := by
    unfold State.faultRecord; rw [time, temp]
  have data : w.st.fault.data = s.fault.data := by rw [fault]
  refine ⟨u, run, ⟨?_, ?_, chain, running, fun i _ => landed.counted i (torn.recycle i), sequence, fun r hr => ?_,
    landed.demand.trans (torn.demand.trans demand), triggers.trans all.triggers, purgeDue.trans all.purgeDue,
    landed.flags _ lockoutFlag, landed.flags _ faultFlag, chained, ?_, points.trans all.points, conds.trans all.conds,
    pins.trans all.pins, tablesU.trans all.tables, staging.trans all.staging,
    up.trans all.up, down.trans all.down, by rw [landed.store]; exact torn.writes⟩,
    fun r hr => by rw [landed.limit r hr, roles], fun ha => landed.applied ?_, fun l => by rw [landed.mismatch, lines]⟩
  · rw [landed.fault, torn.data, record, data]; rfl
  · rw [landed.fault, torn.record, record]; rfl
  · rw [landed.lockout r hr]
    unfold State.lockoutSlot State.locked
    rw [torn.data]
    rfl
  · have base : AsRecorded (((Work.idle s).trace (.fault f.code)).traceFinish) (Work.idle p.st) :=
      recorded.ended.then (finished.then ⟨rfl, rfl, rfl⟩)
    rw [trace]
    exact ((base.top _).traced (.step _ _)).trace.trans (by rw [tables])
  · unfold State.appliedLaw
    rw [torn.ground.roles]
    exact ha

theorem State.left_recycle (s : State) (i : Nat) : (s.left.seqRun i).recycle = (s.seqRun i).recycle := by
  unfold State.left
  split
  · next n rest _ =>
    have e : ((((s.discardSaved n).setChain rest).setRunning none).mappedCircuits (releasedBy n)).seqRun i =
        (s.seq.runs.set n { s.seqRun n with saved := none }).getD i SeqRun.reset := rfl
    rw [e, getD_set]
    split
    · next h => obtain ⟨rfl, -⟩ := h; rfl
    · rfl
  · rfl

/-- A fault of class RECYCLE below the limit, up to the end of the event: the recovery link is entered (R73, R144). -/
theorem finish_recovery {k n m : Nat} {v w : Work} {f : FaultIn} {below : List Nat} (lead : Leads k v (actTakeFault f w))
    (chain : w.st.seq.chain = n :: below) (hn : n < w.st.seq.runs.length) (recycled : f.cls = .recycle) (seq : f.seq = some n)
    (low : (w.st.seqRun n).recycle + 1 < (w.st.tables.seq n).recycleLimit) (link : (w.st.tables.seq n).recoveryLink = some m)
    (check : w.st.switchCheck m .recycle = none) (unlocked : w.st.locked = false) (normal : w.st.phase = .normal) (hs : w.st.sized)
    (hu : w.st.undisturbed) (quiet : w.st.seqEntersQuietly m) (settles : ∀ a ∈ w.waits, w.st.settles a)
    (light : k + w.weight calmWeight ≤ 30000) :
    ∃ u : State, finish v = .next u.arbitrate ∧ w.st.enteredSeq u m below [.fault f.code] ∧
      (u.seqRun n).recycle = (w.st.seqRun n).recycle + 1 ∧
      u.fault = { w.st.fault with record := some (w.st.faultRecord f .recycle .recycled false) } := by
  rw [actTakeFault_recovers unlocked recycled seq hn low link check] at lead
  have adds := adds_recovered w f n
  obtain ⟨chain', count, fault⟩ := w.recovered_st f hn
  have ground := w.recovered_ground f n
  have recorded : AsRecorded ([TraceKind.fault f.code].foldl Work.trace (Work.idle w.st)) (w.recovered f n) :=
    (AsRecorded.traced (v := Work.idle w.st) (w := w) ⟨rfl, rfl, rfl⟩ (.fault f.code)).then (w.recovered_recorded f n)
  obtain ⟨u, run, entered, landed⟩ := finish_enter (s := w.st) (kinds := [.fault f.code]) (w := w.recovered f n) lead ground recorded
    normal hu (Work.recovered_sized hs f n) quiet
    (fun a ha => (adds.fresh a ha).elim (settles a) fun tame => .inl (.inl tame)) (by have := adds.weight; omega)
  obtain ⟨known, -, off, -⟩ := (switchCheck_eq_none_iff w.st m .recycle).1 check
  have other : n ≠ m := fun e => off (by rw [chain, ← e]; exact List.mem_cons_self)
  rw [chain', chain] at entered
  have kept := landed.kept
  refine ⟨u, run, entered, ?_, kept.fault.trans fault⟩
  rw [landed.recycle n other, State.left_recycle, count]

theorem maxExpiry_fault_leads {s : State} {x : Running} {n : Nat} (hx : s.seq.running = some x) (ht : s.top = some n)
    (h0 : x.maxDwell ≠ 0) (hh : x.hold = false) (hm : x.maxDwell ≤ x.elapsed) (timeout : (s.tables.step x.step).onTimeout = .fault) :
    Leads 1 (act .maxExpiry (Work.idle s)) (actTakeFault (s.stepFault n x.step) (Work.idle s)) := by
  have runs : ¬ (x.maxDwell = 0 ∨ x.hold = true ∨ x.elapsed < x.maxDwell) := by simp [h0, hh, hm]
  have acts : act .maxExpiry (Work.idle s) = (Work.idle s).push [.takeFault (s.stepFault n x.step)] := by
    show actMaxExpiry (Work.idle s) = _
    unfold actMaxExpiry
    rw [Work.idle_st, ht, hx]
    refine (if_neg runs).trans ?_
    unfold timeoutActs
    rw [timeout]
  rw [acts]
  exact Leads.take (a := .takeFault _) rfl

end Sys2Proof.Machine

section
open Sys2Proof Sys2Proof.Machine

/-- Settles O26: the count, the record and the recovery entry, all in the fault's event. -/
theorem timeoutFaultRecycles : Obligations.TimeoutFaultRecycles := by
  unfold Obligations.TimeoutFaultRecycles
  intro s x n m below hx hc hn h0 hh hm timeout cls low link check unlocked normal hs hu quiet
  have lead := (startWith_leads s .maxExpiry).trans (maxExpiry_fault_leads hx (top_of_chain hc) h0 hh hm timeout)
  obtain ⟨f, hf⟩ : ∃ f, f = s.stepFault n x.step := ⟨_, rfl⟩
  have code : f.code = (s.tables.step x.step).faultCode := by rw [hf]; rfl
  have recycled : f.cls = .recycle := by rw [hf]; unfold State.stepFault; rw [cls]
  have seq : f.seq = some n := by rw [hf]; rfl
  have runs : s.seq.runs.length = 12 := by obtain ⟨-, -, runs, -⟩ := hs; exact runs
  rw [← hf] at lead
  obtain ⟨u, run, entered, count, fault⟩ := finish_recovery lead hc (by rw [Work.idle_st, runs]; exact hn) recycled seq low link check unlocked
    normal hs (State.undisturbed_of_unwatched hu) quiet (fun a ha => nomatch ha) (by simp [Work.weight, Work.idle])
  rw [code] at entered
  refine ⟨u, run, entered, count, ?_, ?_⟩
  · rw [fault]; rfl
  · rw [fault, hf]; rfl

/-- Settles O46: the row of R144 that a fault meets, the lockout at a max-dwell expiry, and what every lockout leaves. -/
theorem lockoutEntry : Obligations.LockoutEntry := by
  unfold Obligations.LockoutEntry
  refine ⟨fun f w unlocked => ?_, fun s x n quiet hx ht hn h0 hh hm timeout => ?_, fun f mark w device => ?_⟩
  · dsimp only
    refine ⟨fun hc => actTakeFault_notice unlocked hc, fun hc => actTakeFault_lockout unlocked hc, fun n hc hs hn => ?_⟩
    exact ⟨fun limit => actTakeFault_limit unlocked hc hs hn limit, fun low refused => actTakeFault_refused unlocked hc hs hn low refused,
      fun m low link check => actTakeFault_recovers unlocked hc hs hn low link check⟩
  · have lead := (startWith_leads s .maxExpiry).trans (maxExpiry_fault_leads hx ht h0 hh hm timeout)
    obtain ⟨unlocked, -, -, hs, -⟩ := id quiet
    have runs : s.seq.runs.length = 12 := by obtain ⟨-, -, runs, -⟩ := hs; exact runs
    have range : n < (Work.idle s).st.seq.runs.length := by rw [Work.idle_st, runs]; exact hn
    have fresh {w : Work} (adds : Adds 2 (Work.idle s) w) : (∀ a ∈ w.waits, a.settles) ∧ w.weight calmWeight ≤ 2 :=
      ⟨fun a ha => (adds.fresh a ha).elim (fun k => nomatch k) .inl, adds.weight⟩
    have locks {f : FaultIn} {mark : Bool} {w : Work} (hf : f = s.stepFault n x.step) (lock : actTakeFault f (Work.idle s) = lockOut f mark w)
        (hw : w = (Work.idle s).trace (.fault f.code) ∨ w = (Work.idle s).counted f.code n) :
        ∃ u : State, exec .maxDwellExpiry s = .next u.arbitrate ∧ s.lockedOut u f mark := by
      rw [← hf, lock] at lead
      have adds : Adds 2 (Work.idle s) w := by
        rcases hw with rfl | rfl
        · exact adds_trace _ _
        · exact adds_counted _ _ _
      obtain ⟨settles, light⟩ := fresh adds
      have st : w.st = s.setTrace ((Work.idle s).trace (.fault f.code)).st.trace ∨
          w.st = (s.setTrace ((Work.idle s).trace (.fault f.code)).st.trace).setRecycle n ((s.seqRun n).recycle + 1) := by
        rcases hw with rfl | rfl
        · exact .inl (Work.trace_st _ _)
        · exact .inr (Work.counted_st _ _ _)
      have sized : w.st.sized := by
        rcases hw with rfl | rfl
        · exact ((Work.idle s).trace_moves _).keeps Move.sized hs
        · exact Work.counted_sized (w := Work.idle s) hs _ _
      have recorded : AsRecorded ((Work.idle s).trace (.fault f.code)) w := by
        rcases hw with rfl | rfl
        · exact ⟨rfl, rfl, rfl⟩
        · exact Work.counted_recorded _ _ _
      obtain ⟨u, run, locked, -⟩ := finish_lockOut lead
        (by rcases st with e | e <;> rw [e] <;> exact ⟨rfl, rfl, rfl, rfl, rfl, rfl, rfl, rfl, rfl, rfl, rfl, rfl⟩) recorded
        (by rcases st with e | e <;> rw [e] <;> rfl) (by rcases st with e | e <;> rw [e] <;> rfl)
        (by rcases st with e | e <;> rw [e] <;> rfl) quiet sized settles (by omega)
      exact ⟨u, run, locked⟩
    dsimp only
    refine ⟨fun cls => ?_, fun cls limit => ?_, fun cls low refused => ?_⟩
    · exact locks (by unfold State.stepFault; rw [cls]) (actTakeFault_lockout unlocked rfl) (.inl rfl)
    · exact locks (by unfold State.stepFault; rw [cls]) (actTakeFault_limit unlocked rfl rfl range limit) (.inr rfl)
    · exact locks (by unfold State.stepFault; rw [cls]) (actTakeFault_refused unlocked rfl rfl range low refused) (.inr rfl)
  · have locks := lockOut_locksOut f mark device
    dsimp only
    generalize (lockOut f mark w).st = t at locks ⊢
    exact ⟨locks.data, locks.record, fun n _ => locks.recycle n, locks.entered, locks.due, locks.ended, locks.begun, locks.demand,
      locks.triggers, locks.points, locks.tables, locks.writes⟩

end
end

section
/-! SUPPORT. A fault while locked: the purge leaves the chain, and the newest entry takes a second code: O47. -/

namespace Sys2Proof.Machine

/-- What the end of a purge leaves (R146 step 1). -/
structure PurgeEnded (a b : State) : Prop where
  ground : SameGround a b
  fault : b.fault = a.fault
  gate : b.gate = a.gate
  store : b.store = a.store
  chain : b.seq.chain = []
  demand : b.seq.demand = a.seq.demand

theorem chainEmptied_cleared_st (w : Work) : (chainEmptied (clearChain w)).st =
    (w.st.cleared.setFlue (idleFlue w.st.flue)).setTrace w.traceFinish.st.trace := by
  have st := clearChain_st w
  have e := w.st.cleared_eq
  have flue : (clearChain w).riseIdle.st = w.st.cleared.setFlue (idleFlue w.st.flue) := by
    unfold Work.riseIdle
    rw [Work.setFlue_st, st]
    refine congrArg (fun f => w.st.cleared.setFlue (idleFlue f)) ?_
    rw [e]
  show (clearChain w).riseIdle.traceFinish.st = _
  generalize (clearChain w).riseIdle = v at flue ⊢
  have recorded : AsRecorded w v := by refine ⟨?_, ?_, ?_⟩ <;> rw [flue, e] <;> rfl
  rw [Work.traceFinish_st, recorded.ended.trace, flue]

theorem purgeEnded_endPurge (w : Work) : PurgeEnded w.st (endPurge w).st ∧
    (w.st.seq.chain = [] → (endPurge w).st.trace = w.st.trace) ∧
    (w.st.seq.chain ≠ [] → (endPurge w).st.trace = w.traceFinish.st.trace) := by
  unfold endPurge
  by_cases h : w.st.seq.chain = []
  · rw [if_pos (List.isEmpty_iff.2 h)]
    exact ⟨⟨SameGround.refl _, rfl, rfl, rfl, h, rfl⟩, fun _ => rfl, fun k => absurd h k⟩
  · rw [if_neg (fun k => h (List.isEmpty_iff.1 k)), chainEmptied_cleared_st]
    have ground := w.st.cleared_ground
    have demand := w.st.cleared_demand
    obtain ⟨chain, -⟩ := w.st.cleared_chain
    obtain ⟨fault, gate, store, -⟩ := cleared_eq_fields w.st.cleared_eq
    generalize w.st.cleared = c at ground demand chain fault gate store ⊢
    exact ⟨⟨ground.trans ⟨rfl, rfl, rfl, rfl, rfl, rfl, rfl, rfl, rfl, rfl, rfl, rfl⟩, fault, gate, store, chain, demand⟩,
      fun k => absurd k h, fun _ => rfl⟩

theorem recordSecond_seq (code : Nat) (s : State) : (recordSecond code s).seq = s.seq ∧ (recordSecond code s).trace = s.trace ∧
    (recordSecond code s).gate.notices.length = s.gate.notices.length := by
  unfold recordSecond
  split
  · exact ⟨rfl, rfl, List.length_set⟩
  · exact ⟨rfl, rfl, rfl⟩

theorem recordSecond_empty {s : State} {e : HistoryEntry} {rest : List HistoryEntry} (code : Nat)
    (h : s.fault.data.history = e :: rest) (he : e.second = none) :
    (recordSecond code s).fault = { s.fault with data := { s.fault.data with history := { e with second := some code } :: rest } } ∧
      ((recordSecond code s).store.write.isSome = true ∨ (recordSecond code s).store.again = true) := by
  have filled : fillSecond code s.fault.data.history = some ({ e with second := some code } :: rest) := by
    rw [h]
    exact if_pos (by rw [he]; rfl)
  unfold recordSecond
  rw [filled]
  exact ⟨rfl, (requestPersist_store _).1⟩

theorem recordSecond_taken {s : State} {e : HistoryEntry} {rest : List HistoryEntry} (code : Nat)
    (h : s.fault.data.history = e :: rest) (he : e.second.isSome = true) : recordSecond code s = s := by
  have filled : fillSecond code s.fault.data.history = none := by
    rw [h]
    exact if_neg (by rw [Option.isNone_eq_false_iff.2 he]; exact Bool.false_ne_true)
  unfold recordSecond
  rw [filled]

/-- The state after a fault taken while LOCKED (R146). -/
theorem actTakeFault_locked_st {f : FaultIn} {w : Work} (h : w.st.locked = true) :
    (actTakeFault f w).st = (recordSecond f.code (endPurge (w.trace (.fault f.code))).st).noteFault
      (w.st.faultRecord f f.cls .whileLocked false) := by
  rw [actTakeFault_locked h, ← faultRecord_trace f w (.fault f.code)]
  rfl

end Sys2Proof.Machine

section
open Sys2Proof Sys2Proof.Machine

/-- Settles O47: the purge ends, the second fault is filled once, and the record says WHILE_LOCKED. -/
theorem faultWhileLocked : Obligations.FaultWhileLocked := by
  unfold Obligations.FaultWhileLocked
  intro f w locked
  dsimp only
  rw [actTakeFault_locked_st locked]
  obtain ⟨purged, kept, finished⟩ := purgeEnded_endPurge (w.trace (.fault f.code))
  have traced := w.trace_st (.fault f.code)
  have chain : (w.trace (.fault f.code)).st.seq = w.st.seq := by rw [traced]; rfl
  have fault : (endPurge (w.trace (.fault f.code))).st.fault = w.st.fault := purged.fault.trans (by rw [traced]; rfl)
  generalize (endPurge (w.trace (.fault f.code))).st = p at purged kept finished fault ⊢
  obtain ⟨seq, trace, -⟩ := recordSecond_seq f.code p
  rw [chain] at kept finished
  refine ⟨?_, ?_, fun none => ?_, fun some => ?_, rfl, fun e rest history empty => ?_, fun e rest history taken => ?_⟩
  · show (recordSecond f.code p).seq.chain = []
    rw [seq, purged.chain]
  · show (recordSecond f.code p).seq.demand = _
    rw [seq, purged.demand, chain]
  · exact trace.trans (kept none)
  · exact trace.trans (finished some)
  · obtain ⟨filled, writes⟩ := recordSecond_empty (s := p) f.code (by rw [fault]; exact history) empty
    refine ⟨?_, writes⟩
    show (recordSecond f.code p).fault.data = _
    rw [filled, fault]
  · show (recordSecond f.code p).fault.data = _
    rw [recordSecond_taken (s := p) f.code (by rw [fault]; exact history) taken, fault]

end
end

section
/-! SUPPORT. The minimum-dwell mark: the advance to HOLD, to a step, to a step that calls, and to the END of a lone sequence. -/

namespace Sys2Proof.Machine

/-! ### The mark and the advance (R64 to R66) -/

/-- The state after the mark of the running step has been taken. -/
def State.dwelt (s : State) (x : Running) : State := s.setRunning (some { x with markTaken := true })

theorem minMark_idle {s : State} (h : ∀ x, s.seq.running = some x → x.markTaken = true ∨ x.elapsed < x.minDwell) :
    actMinMark (Work.idle s) = Work.idle s := by
  unfold actMinMark
  rw [Work.idle_st]
  cases hx : s.seq.running with
  | none => rfl
  | some x => exact if_pos (h x hx)

theorem minMark_taken {s : State} {x : Running} (hx : s.seq.running = some x) (h0 : x.markTaken = false) (hm : x.minDwell ≤ x.elapsed) :
    actMinMark (Work.idle s) = if s.proved x.step then (Work.idle (s.dwelt x)).push [.advance] else Work.idle (s.dwelt x) := by
  unfold actMinMark
  rw [Work.idle_st, hx]
  refine (if_neg ?_).trans rfl
  rw [h0]
  rintro (h | h)
  · exact Bool.false_ne_true h
  · omega

theorem advance_leads {s : State} {x : Running} (hx : s.seq.running = some x) (h0 : x.markTaken = false) (hm : x.minDwell ≤ x.elapsed)
    (hp : s.proved x.step = true) : Leads 2 (startWith s [.minMark]) (actAdvance (Work.idle (s.dwelt x))) := by
  have first := startWith_leads s .minMark
  have e : act .minMark (Work.idle s) = (Work.idle (s.dwelt x)).push [.advance] := (minMark_taken hx h0 hm).trans (if_pos hp)
  rw [e] at first
  exact first.trans (Leads.take (a := .advance) rfl)

theorem actAdvance_dwelt (s : State) (x : Running) : actAdvance (Work.idle (s.dwelt x)) =
    match (s.tables.step x.step).next with
    | .step k => (Work.idle (s.dwelt x)).push [.stepEntry k]
    | .finish => (Work.idle (s.dwelt x)).push [.finishTop]
    | .hold => Work.idle (s.setRunning (some { x with markTaken := true, hold := true })) := rfl

theorem next_leads {s : State} {x : Running} {k : Nat} (hx : s.seq.running = some x) (h0 : x.markTaken = false)
    (hm : x.minDwell ≤ x.elapsed) (hp : s.proved x.step = true) (next : (s.tables.step x.step).next = .step k) :
    Leads 3 (startWith s [.minMark]) (actStepEntry k (Work.idle (s.dwelt x))) := by
  have e := actAdvance_dwelt s x
  rw [next] at e
  have lead := advance_leads hx h0 hm hp
  rw [e] at lead
  exact lead.trans (Leads.take (a := .stepEntry k) rfl)

theorem end_leads {s : State} {x : Running} (hx : s.seq.running = some x) (h0 : x.markTaken = false)
    (hm : x.minDwell ≤ x.elapsed) (hp : s.proved x.step = true) (next : (s.tables.step x.step).next = .finish) :
    Leads 3 (startWith s [.minMark]) (actFinishTop (Work.idle (s.dwelt x))) := by
  have e := actAdvance_dwelt s x
  rw [next] at e
  have lead := advance_leads hx h0 hm hp
  rw [e] at lead
  exact lead.trans (Leads.take (a := .finishTop) rfl)

/-- What an entered step says does not depend on the running step before it. -/
theorem enteredStep_of_dwelt {s u : State} {x : Running} {n k : Nat} (h : (s.dwelt x).enteredStep u n k) : s.enteredStep u n k := by
  obtain ⟨seq, claims, unarmed, armed, failed, trace, rest⟩ := h
  exact ⟨seq, claims, unarmed, armed, failed, trace.trans (State.traced_of_eq (s := s) (t := s.dwelt x) rfl rfl _), rest⟩

/-! ### A step that calls (R62 action 9, R85) -/

/-- The state after the top has been suspended at step `k` (R71, R87). -/
theorem suspendTop_st {w : Work} {n : Nat} {x : Running} (ht : w.st.top = some n) (hx : w.st.seq.running = some x) :
    suspendTop w = w.withSt ((w.st.setSeqRun n { w.st.seqRun n with
      saved := some { step := x.step, elapsed := x.elapsed, allowance := x.allowance } }).setRunning none) := by
  unfold suspendTop
  rw [ht, hx]

theorem seqRun_setSeqRun {s : State} {n : Nat} (h : n < s.seq.runs.length) (x : SeqRun) (i : Nat) :
    (s.setSeqRun n x).seqRun i = if i = n then x else s.seqRun i := by
  have e : (s.setSeqRun n x).seqRun i = (s.seq.runs.set n x).getD i SeqRun.reset := rfl
  rw [e, getD_set]
  by_cases hi : i = n
  · subst hi
    rw [if_pos ⟨rfl, h⟩, if_pos rfl]
  · rw [if_neg (fun k => hi k.1.symm), if_neg hi]
    rfl

/-- A CALL over a running top, up to the end of the event (R87). -/
theorem finish_called {m n k : Nat} {v w : Work} {c : Cause} {s : State} {x : Running} {below : List Nat} {kinds : List TraceKind}
    (lead : Leads m v (doCall k c w)) (chain : w.st.seq.chain = n :: below) (hx : w.st.seq.running = some x)
    (hn : n < w.st.seq.runs.length) (ground : SameGround s w.st) (recorded : AsRecorded (kinds.foldl Work.trace (Work.idle s)) w)
    (demand : w.st.seq.demand = s.seq.demand) (fault : w.st.fault = s.fault) (store : w.st.store = s.store)
    (normal : s.phase = .normal) (hu : s.undisturbed) (hs : w.st.sized) (quiet : s.seqEntersQuietly k)
    (settles : ∀ a ∈ w.waits, s.settles a) (light : m + w.weight calmWeight ≤ 50000) :
    ∃ u : State, finish v = .next u.arbitrate ∧ s.calledSeq u k (n :: below) kinds ∧
      (u.seqRun n).saved = some { step := x.step, elapsed := x.elapsed, allowance := x.allowance } ∧
      u.circuits = (w.st.joined k).circuits := by
  have top := top_of_chain chain
  have suspended := suspendTop_st top hx
  rw [doCall_eq (chain_of_top top)] at lead
  have sized : (suspendTop w).st.sized := (suspendTop_moves w).keeps Move.sized hs
  have waits : (suspendTop w).waits = w.waits := by rw [suspended]; rfl
  have weight : (suspendTop w).weight calmWeight = w.weight calmWeight := by rw [suspended]; rfl
  obtain ⟨u, run, entered, landed⟩ := finish_join lead
    (ground.trans (by rw [suspended]; exact ⟨rfl, rfl, rfl, rfl, rfl, rfl, rfl, rfl, rfl, rfl, rfl, rfl⟩))
    (recorded.then (by rw [suspended]; exact ⟨rfl, rfl, rfl⟩)) normal hu sized quiet (by rw [waits]; exact settles)
    (by rw [weight]; exact light)
  rw [suspendTop_chain, chain] at entered
  rw [suspended] at landed
  refine ⟨u, run, ⟨entered, landed.demand.trans demand, landed.fault.trans fault, landed.store.trans store⟩, ?_, landed.circuits⟩
  rw [landed.saved n]
  exact congrArg SeqRun.saved ((seqRun_setSeqRun hn _ n).trans (if_pos rfl))

theorem actCallRequest_passed {w : Work} {n m : Nat} {x : Running} (ht : w.st.top = some n) (hx : w.st.seq.running = some x)
    (h : w.st.switchCheck m .stepCall = none) : actCallRequest m w = doCall m .stepCall w := by
  unfold actCallRequest
  rw [ht, hx]
  dsimp only
  rw [h]

theorem entryOutcome_calls {w : Work} {n k m : Nat} (h : w.st.supervisionFails k = false) (hc : (w.st.tables.step k).call = some m) :
    entryOutcome n k w = w.push [.callRequest m] := by
  unfold entryOutcome
  rw [h, hc]
  rfl

/-- A step whose entry ends in a CALL. -/
theorem finish_calling {m n k q : Nat} {v w : Work} {below : List Nat} (lead : Leads m v (actStepEntry k w))
    (chain : w.st.seq.chain = n :: below) (hn : n < w.st.seq.runs.length) (supervised : w.st.supervisionFails k = false)
    (call : (w.st.tables.step k).call = some q) (check : w.st.switchCheck q .stepCall = none) (normal : w.st.phase = .normal)
    (hs : w.st.sized) (hu : w.st.unwatched) (quiet : w.st.seqEntersQuietly q) (settles : ∀ a ∈ w.waits, a.settles)
    (light : m + w.weight calmWeight ≤ 40000) :
    ∃ u : State, finish v = .next u.arbitrate ∧ w.st.calledSeq u q (n :: below) [.step n k] ∧
      (u.seqRun n).saved = some { step := k, elapsed := 0
                                  allowance := if (w.st.tables.step k).warmup then some (allowanceNow w.st) else none } := by
  have top := top_of_chain chain
  have st := w.entering_st n k
  have sized := actStepEntry_sized k hs
  have shape : actStepEntry k w = (w.entering n k).push [.callRequest q] := by
    rw [actStepEntry_eq top]
    exact entryOutcome_calls (by rw [st]; exact supervised) (by rw [st]; exact call)
  rw [shape] at lead sized
  have adds := w.entering_adds n k
  have topE : (w.entering n k).st.top = some n := by rw [st]; exact top
  have runE : (w.entering n k).st.seq.running = some (w.st.enteredRun k) := by rw [st]; rfl
  have runs : n < (w.entering n k).st.seq.runs.length := by
    rw [st]
    show n < (if (w.st.tables.step k).success then w.st.seq.runs.set n _ else w.st.seq.runs).length
    split
    · rw [List.length_set]; exact hn
    · exact hn
  have next : Leads 1 ((w.entering n k).push [.callRequest q]) (doCall q .stepCall (w.entering n k)) := by
    rw [← actCallRequest_passed topE runE (by rw [st]; exact check)]
    exact Leads.take (a := .callRequest q) rfl
  obtain ⟨u, run, called, saved, -⟩ := finish_called (s := w.st) (kinds := [.step n k]) (lead.trans next)
    (by rw [st]; exact chain) runE runs (by rw [st]; exact ⟨rfl, rfl, rfl, rfl, rfl, rfl, rfl, rfl, rfl, rfl, rfl, rfl⟩)
    (by
      show AsRecorded ((Work.idle w.st).trace (.step n k)) (w.entering n k)
      refine ⟨by rw [st]; rfl, ?_, ?_⟩ <;> rw [st, Work.trace_st] <;> rfl)
    (by rw [st]; rfl) (by rw [st]; rfl) (by rw [st]; rfl) normal (State.undisturbed_of_unwatched hu) sized quiet
    (fun a ha => .inl ((adds.fresh a ha).elim (settles a) .inl)) (by have := adds.weight; omega)
  exact ⟨u, run, called, saved⟩

/-! ### The END of a lone sequence (R90) -/

/-- The work of a chain that has become empty, before its examinations. -/
def Work.emptied (w : Work) : Work := ((w.riseIdle.traceFinish).fin .sequenceClaims).fin (.chainNotice none .empty none)

theorem chainEmptied_eq (w : Work) : chainEmptied w = w.emptied.push [.examineTriggers, .examineDemand] := rfl

theorem Work.emptied_st (w : Work) : w.emptied.st = (w.st.setFlue (idleFlue w.st.flue)).setTrace w.traceFinish.st.trace := by
  have flue : w.riseIdle.st = w.st.setFlue (idleFlue w.st.flue) := Work.setFlue_st w _
  show w.riseIdle.traceFinish.st = _
  have recorded : AsRecorded w w.riseIdle := by refine ⟨?_, ?_, ?_⟩ <;> rw [flue] <;> rfl
  rw [Work.traceFinish_st, recorded.ended.trace, flue]

theorem adds_emptied (w : Work) : Adds 46 w w.emptied :=
  (((adds_setFlue w _).trans (adds_traceFinish _)).trans (adds_claims _)).trans (adds_chainNotice _ none .empty none)

theorem Work.emptied_waits (w : Work) : .sequenceClaims ∈ w.emptied.waits ∧ .chainNotice none .empty none ∈ w.emptied.waits :=
  ⟨(adds_chainNotice _ none .empty none).stays _ ((Work.fin_waits _ _ _).2 (.inr rfl)), (Work.fin_waits _ _ _).2 (.inr rfl)⟩

theorem traceFinish_ended (w : Work) (r : OpenRecord) (h : w.traceFinish.st.trace.opened = some r) : r.ended.isSome = true := by
  unfold Work.traceFinish at h
  cases ho : w.st.trace.opened with
  | none => rw [ho] at h; rw [ho] at h; cases h
  | some r' =>
    rw [ho] at h
    dsimp only at h
    split at h
    · split at h
      · cases h; rfl
      · rw [Work.setTrace_st] at h
        have closed : (closeRecord w.st.trace r'.number (sat16 (r'.count + 1)) (offsetOf w.st r')).opened = none := by
          unfold closeRecord TraceUnit.writeEnd
          rw [TraceUnit.leave_opened]
        rw [show (w.st.setTrace (closeRecord w.st.trace r'.number (sat16 (r'.count + 1)) (offsetOf w.st r'))).trace.opened = none from closed] at h
        cases h
    · next going =>
      rw [ho] at h
      cases h
      cases he : r.ended with
      | none => rw [he] at going; exact absurd rfl going
      | some o => rfl

end Sys2Proof.Machine
end

section
/-! SUPPORT. The END of a sequence: the chain that empties, and the member beneath that is taken up or replaced: O24. -/

namespace Sys2Proof.Machine

/-! ### What does not depend on the step that has been left -/

theorem idle_weight (m : Act → Nat) (s : State) : (Work.idle s).weight m = 0 := rfl

theorem State.tracedTop_of_eq {s t : State} (h : AsRecorded (Work.idle s) (Work.idle t)) (kinds : List TraceKind) (n k : Nat) :
    t.tracedTop kinds n k = s.tracedTop kinds n k := (((h.kinds kinds).top n).traced (.step n k)).trace

theorem calledSeq_of_dwelt {s u : State} {x : Running} {n : Nat} {below : List Nat} {kinds : List TraceKind}
    (h : (s.dwelt x).calledSeq u n below kinds) : s.calledSeq u n below kinds := by
  obtain ⟨⟨chain, running, sequence, triggers, purgeDue, notice, trace, rest⟩, kept⟩ := h
  exact ⟨⟨chain, running, sequence, triggers, purgeDue, notice,
    trace.trans (State.tracedTop_of_eq (s := s) (t := s.dwelt x) ⟨rfl, rfl, rfl⟩ kinds n _), rest⟩, kept⟩

/-! ### The top that has reached END (R89) -/

theorem State.left_seqRun {s : State} {n : Nat} {rest : List Nat} (hc : s.seq.chain = n :: rest) (hn : n < s.seq.runs.length) (i : Nat) :
    s.left.seqRun i = if i = n then { s.seqRun n with saved := none } else s.seqRun i := by
  unfold State.left
  rw [hc]
  exact seqRun_setSeqRun hn { s.seqRun n with saved := none } i

theorem State.left_running {s : State} {n : Nat} {rest : List Nat} (hc : s.seq.chain = n :: rest) : s.left.seq.running = none := by
  unfold State.left
  rw [hc]
  rfl

/-- The work after the top has left at its END. -/
def State.ended (s : State) (x : Running) (n : Nat) : Work := leaveHead (Work.idle ((s.dwelt x).setRecycle n 0))

/-- What the top leaves behind at its END. -/
structure Ended (s : State) (n : Nat) (rest : List Nat) (w : Work) : Prop where
  ground : SameGround s w.st
  chain : w.st.seq.chain = rest
  running : w.st.seq.running = none
  own : w.st.seqRun n = { saved := none, recycle := 0 }
  others : ∀ i, i ≠ n → w.st.seqRun i = s.seqRun i
  demand : w.st.seq.demand = s.seq.demand
  fault : w.st.fault = s.fault
  store : w.st.store = s.store
  gate : w.st.gate = s.gate
  trace : w.st.trace = s.trace
  sized : w.st.sized
  fresh : ∀ a ∈ w.waits, a.tame
  light : w.weight calmWeight ≤ 86

theorem ended_ended {s : State} (x : Running) {n : Nat} {rest : List Nat} (hc : s.seq.chain = n :: rest) (hn : n < 12) (hs : s.sized) :
    Ended s n rest (s.ended x n) := by
  obtain ⟨base, hb⟩ : ∃ base, base = (s.dwelt x).setRecycle n 0 := ⟨_, rfl⟩
  have runs : s.seq.runs.length = 12 := by obtain ⟨-, -, runs, -⟩ := hs; exact runs
  have range : n < (s.dwelt x).seq.runs.length := by show n < s.seq.runs.length; omega
  have st : (s.ended x n).st = base.left := by rw [hb]; exact leaveHead_st _
  have adds : Adds 86 (Work.idle base) (s.ended x n) := by rw [hb]; exact adds_leaveHead _
  have chain : base.seq.chain = n :: rest := by rw [hb]; exact hc
  have run (i : Nat) : base.seqRun i = if i = n then { s.seqRun n with recycle := 0 } else s.seqRun i := by
    rw [hb]; exact seqRun_setRecycle range 0 i
  have length : n < base.seq.runs.length := by rw [hb]; exact (List.length_set (as := s.seq.runs)).symm ▸ range
  have ground : SameGround s base := by rw [hb]; exact ⟨rfl, rfl, rfl, rfl, rfl, rfl, rfl, rfl, rfl, rfl, rfl, rfl⟩
  have sized : base.sized := by
    rw [hb]
    exact Moves.keeps Move.sized ((State.setRunning_moves s _).trans (State.setSeqRun_moves _ n _)) hs
  have frame := base.left_eq
  obtain ⟨-, demand, -⟩ := base.left_seq
  have fields : base.fault = s.fault ∧ base.store = s.store ∧ base.gate = s.gate ∧ base.trace = s.trace ∧ base.seq.demand = s.seq.demand := by
    rw [hb]; exact ⟨rfl, rfl, rfl, rfl, rfl⟩
  obtain ⟨fault, store, gate, trace, demand'⟩ := fields
  have left := State.left_seqRun chain length
  obtain ⟨fresh, light⟩ : (∀ a ∈ (s.ended x n).waits, a.tame) ∧ (s.ended x n).weight calmWeight ≤ 86 :=
    ⟨fun a ha => (adds.fresh a ha).elim (fun k => nomatch k) id, adds.weight⟩
  refine ⟨?_, ?_, ?_, ?_, fun i hi => ?_, ?_, ?_, ?_, ?_, ?_, ?_, fresh, light⟩ <;> rw [st]
  · exact ground.trans base.left_ground
  · rw [State.left_chain, chain]; rfl
  · exact State.left_running chain
  · rw [left, if_pos rfl, run, if_pos rfl]
  · rw [left, if_neg hi, run, if_neg hi]
  · rw [demand, demand']
  · rw [frame]; exact fault
  · rw [frame]; exact store
  · rw [frame]; exact gate
  · rw [frame]; exact trace
  · exact State.left_sized sized

theorem actFinishTop_eq {s : State} {x : Running} {n : Nat} (ht : s.top = some n) :
    actFinishTop (Work.idle (s.dwelt x)) = afterLeaving (s.ended x n) := by
  unfold actFinishTop
  rw [show (Work.idle (s.dwelt x)).st.top = some n from ht]
  rfl

theorem afterLeaving_empty {w : Work} (h : w.st.seq.chain = []) : afterLeaving w = chainEmptied w :=
  if_pos (List.isEmpty_iff.2 h)

theorem afterLeaving_member {w : Work} {l : Nat} {below : List Nat} (h : w.st.seq.chain = l :: below) : afterLeaving w = w.push [.takeUp] := by
  unfold afterLeaving
  rw [h]
  rfl

theorem idle_of_no_demand {s : State} (h : s.seq.demand = false) : s.demandIdle := by
  show (s.demandServed && _) = false
  unfold State.demandServed
  rw [h]
  simp

/-! ### The chain that empties (R90) -/

theorem finish_emptied {m : Nat} {v w : Work} (lead : Leads m v (chainEmptied w))
    (running : w.st.seq.running = none) (idle : w.st.noTriggers = true) (demand : w.st.seq.demand = false)
    (hn : w.st.phase = .normal) (hs : w.st.sized) (hu : w.st.unwatched) (fresh : ∀ a ∈ w.waits, a.tame)
    (light : m + w.weight calmWeight ≤ 60000) :
    ∃ u : State, finish v = .next u.arbitrate ∧ OnlyCalm ((w.st.setFlue (idleFlue w.st.flue)).setTrace w.traceFinish.st.trace) u ∧
      (∀ r, r < 12 → (u.role r).sequence = none) ∧ (u.notice .chain).flag = true := by
  have adds := adds_emptied w
  have st := w.emptied_st
  obtain ⟨claims, notice⟩ := w.emptied_waits
  rw [chainEmptied_eq] at lead
  have sized : (w.emptied.push [.examineTriggers, .examineDemand]).st.sized := by
    rw [← chainEmptied_eq]; exact (chainEmptied_moves w).keeps Move.sized hs
  obtain ⟨e, calm, none, run⟩ := finish_calm_after lead (by rw [Work.push_st, st]; exact hn) sized (.inl (by rw [Work.push_st, st]; exact State.undisturbed_of_unwatched hu))
    (fun a ha => by
      rw [Work.push_st, st]
      rcases (Work.push_waits _ _ a).1 ha with k | k
      · exact ((adds.fresh a k).elim (fresh a) id).calms _
      · rcases List.mem_cons.1 k with rfl | k
        · exact idle
        · cases List.mem_singleton.1 k
          exact idle_of_no_demand demand)
    (by
      rw [Work.weight_push]
      have := adds.weight
      simp only [List.map_cons, List.map_nil, List.sum_cons, List.sum_nil, calmWeight]
      have : Config.cascadeLimit = 65536 := rfl
      omega)
  have claimed := (calm.claims ((Work.push_waits _ _ _).2 (.inl claims))).resolve_left (by rw [none]; exact List.not_mem_nil)
  have frame := calm.frame
  rw [Work.push_st, st] at frame claimed
  refine ⟨e.st, run, frame, fun r hr => ?_, ?_⟩
  · rw [(claimed r hr).1]
    unfold State.sequenceClaim
    rw [show ((w.st.setFlue (idleFlue w.st.flue)).setTrace w.traceFinish.st.trace).seq.running = Option.none from running]
  · exact (calm.chained .none .empty .none ((Work.push_waits _ _ _).2 (.inl notice))).resolve_left (by rw [none]; exact List.not_mem_nil)

/-! ### The member beneath (R71, R89) -/

/-- The work of a member taken up, before its step is continued or entered. -/
def Work.takenUp (w : Work) (l : Nat) : Work :=
  ((((w.withSt (w.st.discardSaved l)).fin .sequenceClaims).fin (.chainNotice none .ret (some l))).traceTop l).push [.examineTriggers]

theorem actTakeUp_saved {w : Work} {l : Nat} {c : Saved} (ht : w.st.top = some l) (hr : w.st.replaceCause l = none)
    (hc : (w.st.seqRun l).saved = some c) : actTakeUp w = resume l c (w.takenUp l) := by
  unfold actTakeUp
  rw [ht]
  dsimp only
  rw [hr]
  dsimp only
  rw [hc]
  rfl

theorem Work.takenUp_st (w : Work) (l : Nat) : (w.takenUp l).st = (w.st.discardSaved l).setTrace (w.traceTop l).st.trace := by
  show (Work.traceTop _ l).st = _
  rw [Work.traceTop_st]
  have recorded : AsRecorded w (((w.withSt (w.st.discardSaved l)).fin .sequenceClaims).fin (.chainNotice none .ret (some l))) := ⟨rfl, rfl, rfl⟩
  rw [(recorded.top l).trace]
  rfl

/-- What a member taken up brings with it. -/
structure TakenUp (w : Work) (l : Nat) : Prop where
  claims : .sequenceClaims ∈ (w.takenUp l).waits
  notice : .chainNotice none .ret (some l) ∈ (w.takenUp l).waits
  settles : (∀ a ∈ w.waits, a.tame) → ∀ a ∈ (w.takenUp l).waits, a.settles
  light : (w.takenUp l).weight calmWeight ≤ w.weight calmWeight + 44

theorem takenUp_takenUp (w : Work) (l : Nat) : TakenUp w l := by
  obtain ⟨t, ht⟩ : ∃ t, t = (((w.withSt (w.st.discardSaved l)).fin .sequenceClaims).fin (.chainNotice none .ret (some l))).traceTop l := ⟨_, rfl⟩
  have e : w.takenUp l = t.push [.examineTriggers] := by rw [ht]; rfl
  have adds : Adds 43 w t := by
    rw [ht]
    exact (((adds_withSt w _).trans (adds_claims _)).trans (adds_chainNotice _ none .ret (some l))).trans (adds_traceTop _ l)
  have claims : .sequenceClaims ∈ t.waits := by
    rw [ht]
    exact adds_sequenceClaims ((adds_chainNotice _ none .ret (some l)).trans (adds_traceTop _ l))
  have notice : .chainNotice none .ret (some l) ∈ t.waits := by
    rw [ht]
    exact (adds_traceTop _ l).stays _ ((Work.fin_waits _ _ _).2 (.inr rfl))
  refine ⟨?_, ?_, fun fresh a ha => ?_, ?_⟩
  · rw [e]; exact (Work.push_waits _ _ _).2 (.inl claims)
  · rw [e]; exact (Work.push_waits _ _ _).2 (.inl notice)
  · rw [e] at ha
    rcases (Work.push_waits _ _ a).1 ha with k | k
    · exact .inl ((adds.fresh a k).elim (fresh a) id)
    · exact .inr (.inl (List.mem_singleton.1 k))
  · rw [e, Work.weight_push]
    have := adds.weight
    simp only [List.map_cons, List.map_nil, List.sum_cons, List.sum_nil, calmWeight]
    omega

/-- What stands after the member beneath S`n` has been taken up at step `k`, whatever its resume mode (R71, R89). -/
structure Took (s : State) (n l k : Nat) (below : List Nat) (u : State) : Prop where
  chain : u.seq.chain = l :: below
  recycle : (u.seqRun n).recycle = 0
  saved : (u.seqRun l).saved = none
  notice : (u.notice .chain).flag = true
  points : u.points = s.points
  fault : u.fault = s.fault
  tables : u.tables = s.tables
  store : u.store = s.store
  trace : u.trace = s.tracedTop [] l k
  sequence : ∀ r, r < 12 → (u.role r).sequence = ((s.tables.step k).output r).claim

/-- The member taken up, before its step is entered or continued, seen from the state `s` before the END of S`n`. -/
theorem takenUp_ground {s : State} {n l : Nat} {below : List Nat} {w : Work} (h : Ended s n (l :: below) w) (hne : n ≠ l)
    (hl : l < 12) :
    SameGround s (w.takenUp l).st ∧ (w.takenUp l).st.seq.chain = l :: below ∧ ((w.takenUp l).st.seqRun n).recycle = 0 ∧
      ((w.takenUp l).st.seqRun l).saved = none ∧ (w.takenUp l).st.fault = s.fault ∧ (w.takenUp l).st.store = s.store ∧
      AsRecorded ((Work.idle s).traceTop l) (w.takenUp l) ∧ (w.takenUp l).st.sized := by
  have st := w.takenUp_st l
  have runs : l < w.st.seq.runs.length := by obtain ⟨-, -, runs, -⟩ := h.sized; omega
  have run := seqRun_setSeqRun runs { w.st.seqRun l with saved := none }
  have same : AsRecorded (Work.idle s) w := ⟨h.trace, h.ground.clock, h.ground.tables⟩
  refine ⟨?_, ?_, ?_, ?_, ?_, ?_, ?_, ?_⟩
  · rw [st]; exact h.ground.trans ⟨rfl, rfl, rfl, rfl, rfl, rfl, rfl, rfl, rfl, rfl, rfl, rfl⟩
  · rw [st]; exact h.chain
  · rw [st]
    show ((w.st.setSeqRun l _).seqRun n).recycle = 0
    rw [run, if_neg hne, h.own]
  · rw [st]
    show ((w.st.setSeqRun l _).seqRun l).saved = none
    rw [run, if_pos rfl]
  · rw [st]; exact h.fault
  · rw [st]; exact h.store
  · exact (same.top l).then ⟨by rw [st]; rfl, by rw [st, Work.traceTop_st]; rfl, by rw [st, Work.traceTop_st]; rfl⟩
  · show (Work.traceTop _ l).st.sized
    exact Moves.keeps Move.sized ((State.setSeqRun_moves w.st l _).trans (Work.traceTop_moves
      (((w.withSt (w.st.discardSaved l)).fin .sequenceClaims).fin (.chainNotice none .ret (some l))) l)) h.sized

/-- The member beneath taken up by its resume mode. -/
theorem takeUp_shape {s : State} {n l : Nat} {below : List Nat} {w : Work} {c : Saved} (h : Ended s n (l :: below) w) (hne : n ≠ l)
    (saved : (s.seqRun l).saved = some c) (replace : s.replaceCause l = none) : actTakeUp w = resume l c (w.takenUp l) := by
  have cause : w.st.replaceCause l = none := by
    unfold State.replaceCause at *
    rw [h.ground.tables, h.demand, h.gate]
    exact replace
  exact actTakeUp_saved (top_of_chain h.chain) cause (by rw [h.others l hne.symm]; exact saved)

theorem finish_restarted {m n l : Nat} {v w : Work} {s : State} {below : List Nat} {c : Saved} (lead : Leads m v (actTakeUp w))
    (h : Ended s n (l :: below) w) (hne : n ≠ l) (hl : l < 12) (saved : (s.seqRun l).saved = some c) (replace : s.replaceCause l = none)
    (mode : (s.tables.seq l).resumeMode = .restartStep) (quiet : s.entersQuietly c.step) (idle : s.noTriggers = true)
    (hn : s.phase = .normal) (hu : s.unwatched) (few : m ≤ 10) :
    ∃ u : State, finish v = .next u.arbitrate ∧ Took s n l c.step below u ∧ u.seq.running = some (s.enteredRun c.step) := by
  obtain ⟨ground, chain, recycle, gone, fault, store, recorded, sized⟩ := takenUp_ground h hne hl
  obtain ⟨-, notice, settles, light⟩ := takenUp_takenUp w l
  have shape : actTakeUp w = (w.takenUp l).push [.stepEntry c.step] := by
    rw [takeUp_shape h hne saved replace]
    unfold resume
    rw [ground.tables, mode]
  rw [shape] at lead
  have fresh := settles h.fresh
  have few' := h.light
  generalize w.takenUp l = t at *
  have top := top_of_chain chain
  have start := lead.trans (Leads.take (a := .stepEntry c.step) (w' := t) rfl)
  have none : t.st.noTriggers = true := by unfold State.noTriggers at *; rw [ground.triggers]; exact idle
  obtain ⟨u, run, e⟩ := finish_stepEntry start (ground.phase.trans hn) sized (State.undisturbed_of_unwatched (ground.unwatched hu)) top (ground.entersQuietly quiet)
    (fun a ha => (fresh a ha).calms none (chain_of_top top)) (by omega)
  have runs (i : Nat) : u.seqRun i = (t.st.entered l c.step).seqRun i := by unfold State.seqRun; rw [e.frame.seq]
  have entered (i : Nat) := t.st.entered_seqRun l c.step i
  refine ⟨u, run, ⟨?_, ?_, ?_, e.chained _ _ _ notice, e.frame.points.trans ground.points, e.frame.fault.trans fault,
    e.frame.tables.trans ground.tables, e.frame.store.trans store, ?_, fun r hr => ?_⟩, ?_⟩
  · rw [e.frame.seq]; exact chain
  · rw [runs]; exact (entered n).2.2 recycle
  · rw [runs, (entered l).1]; exact gone
  · exact e.frame.trace.trans ((recorded.then (w := Work.idle t.st) ⟨rfl, rfl, rfl⟩).traced (.step l c.step)).trace
  · rw [e.sequence r hr, ground.tables]
  · rw [e.frame.seq]
    show some (t.st.enteredRun c.step) = _
    unfold State.enteredRun
    rw [ground.tables, ground.allowanceNow]

/-- The running-step record of a continued step (R71). -/
def Saved.continued (c : Saved) (t : Tables) : Running :=
  let z := runningOf (t.step c.step) c.step c.elapsed c.allowance
  { z with markTaken := decide (z.minDwell ≤ z.elapsed) }

theorem resumeActs_none {s : State} {n : Nat} {x : Running} (h : s.supervisionFails x.step = false)
    (mark : x.markTaken = true → s.proved x.step = false) (max : x.maxDwell = 0 ∨ x.elapsed < x.maxDwell) : resumeActs s n x = [] := by
  unfold resumeActs
  rw [h]
  refine (if_neg Bool.false_ne_true).trans ((if_neg fun k => ?_).trans (if_neg fun k => ?_))
  · rw [Bool.and_eq_true] at k
    obtain ⟨taken, proved⟩ := k
    rw [mark taken] at proved
    cases proved
  · obtain ⟨some, out⟩ := k
    rcases max with none | short
    · exact some none
    · omega

/-- The work of a member whose step has been continued. -/
def Work.continuing (w : Work) (l : Nat) (c : Saved) : Work :=
  (w.withSt (w.st.setRunning (some (c.continued w.st.tables)))).trace (.step l c.step)

theorem continueStep_eq (w : Work) (l : Nat) (c : Saved) : continueStep l c w =
    (w.continuing l c).push (resumeActs (w.continuing l c).st l (c.continued w.st.tables)) := rfl

theorem Work.continuing_st (w : Work) (l : Nat) (c : Saved) :
    (w.continuing l c).st = (w.st.setRunning (some (c.continued w.st.tables))).setTrace (w.trace (.step l c.step)).st.trace := by
  have recorded : AsRecorded w (w.withSt (w.st.setRunning (some (c.continued w.st.tables)))) := ⟨rfl, rfl, rfl⟩
  unfold Work.continuing
  rw [Work.trace_st, (recorded.traced _).trace]
  rfl

theorem finish_continued {m n l : Nat} {v w : Work} {s : State} {below : List Nat} {c : Saved} (lead : Leads m v (actTakeUp w))
    (h : Ended s n (l :: below) w) (hne : n ≠ l) (hl : l < 12) (saved : (s.seqRun l).saved = some c) (replace : s.replaceCause l = none)
    (mode : (s.tables.seq l).resumeMode = .continueStep) (supervised : s.supervisionFails c.step = false)
    (mark : (c.continued s.tables).markTaken = true → s.proved c.step = false)
    (max : (c.continued s.tables).maxDwell = 0 ∨ (c.continued s.tables).elapsed < (c.continued s.tables).maxDwell)
    (idle : s.noTriggers = true) (hn : s.phase = .normal) (hu : s.unwatched) (few : m ≤ 10) :
    ∃ u : State, finish v = .next u.arbitrate ∧ Took s n l c.step below u ∧ u.seq.running = some (c.continued s.tables) := by
  obtain ⟨ground, chain, recycle, gone, fault, store, recorded, sized⟩ := takenUp_ground h hne hl
  obtain ⟨claims, notice, settles, light⟩ := takenUp_takenUp w l
  have shape : actTakeUp w = continueStep l c (w.takenUp l) := by
    rw [takeUp_shape h hne saved replace]
    unfold resume
    rw [ground.tables, mode]
  have fresh := settles h.fresh
  have few' := h.light
  generalize w.takenUp l = t at *
  have st := t.continuing_st l c
  have adds : Adds 2 t (t.continuing l c) := (adds_withSt t _).trans (adds_trace _ _)
  have held (k : Nat) : (t.continuing l c).st.held k = s.held k := by
    rw [st]
    show t.st.held k = _
    unfold State.held State.cond
    rw [ground.conds]
  have tables : (t.continuing l c).st.tables = s.tables := by rw [st]; exact ground.tables
  have supervised' : (t.continuing l c).st.supervisionFails c.step = false := by
    unfold State.supervisionFails at *
    simp only [held, tables]
    exact supervised
  have proved' : (t.continuing l c).st.proved c.step = s.proved c.step := by
    unfold State.proved
    simp only [held, tables]
  have acts : resumeActs (t.continuing l c).st l (c.continued s.tables) = [] :=
    resumeActs_none supervised' (fun k => by rw [show (c.continued s.tables).step = c.step from rfl, proved']; exact mark k) max
  have plain : continueStep l c t = t.continuing l c := by
    rw [continueStep_eq, ground.tables, acts]
    rfl
  rw [shape, plain] at lead
  have size : (t.continuing l c).st.sized :=
    Moves.keeps Move.sized ((State.setRunning_moves t.st _).trans (Work.trace_moves (t.withSt _) (.step l c.step))) sized
  have top : (t.continuing l c).st.top = some l := by rw [st]; exact top_of_chain chain
  have none : (t.continuing l c).st.noTriggers = true := by
    rw [st]
    show t.st.noTriggers = true
    unfold State.noTriggers at *
    rw [ground.triggers]
    exact idle
  obtain ⟨e, calm, done, run⟩ := finish_calm_after lead (by rw [st]; exact ground.phase.trans hn) size (.inl (by rw [st]; exact State.undisturbed_of_unwatched (ground.unwatched hu)))
    (fun a ha => (adds.fresh a ha).elim (fun k => (fresh a k).calms none (chain_of_top top)) fun k => k.calms _)
    (by have := adds.weight; have : Config.cascadeLimit = 65536 := rfl; omega)
  have claimed := (calm.claims (adds.stays _ claims)).resolve_left (by rw [done]; exact List.not_mem_nil)
  have chained := (calm.chained _ _ _ (adds.stays _ notice)).resolve_left (by rw [done]; exact List.not_mem_nil)
  have frame := calm.frame
  have sequence (r : Nat) : (t.continuing l c).st.sequenceClaim r = ((s.tables.step c.step).output r).claim := by
    unfold State.sequenceClaim
    have running : (t.continuing l c).st.seq.running = some (c.continued s.tables) := by rw [st, ground.tables]; rfl
    rw [running]
    dsimp only
    rw [chain_of_top top, tables]
    rfl
  have runs (i : Nat) : e.st.seqRun i = t.st.seqRun i := by unfold State.seqRun; rw [frame.seq, st]; rfl
  refine ⟨e.st, run, ⟨?_, by rw [runs]; exact recycle, by rw [runs]; exact gone, chained, frame.points.trans (by rw [st]; exact ground.points),
    frame.fault.trans (by rw [st]; exact fault), frame.tables.trans tables, frame.store.trans (by rw [st]; exact store), ?_,
    fun r hr => by rw [(claimed r hr).1, sequence]⟩, ?_⟩
  · rw [frame.seq, st]; exact chain
  · rw [frame.trace, st]
    exact (recorded.traced (.step l c.step)).trace
  · rw [frame.seq, st, ground.tables]; rfl

theorem finish_replaced {m n l q : Nat} {v w : Work} {s : State} {below : List Nat} (lead : Leads m v (actTakeUp w))
    (h : Ended s n (l :: below) w) (hl : l < 12) (heat : (s.tables.seq l).cls = .heat) (demand : s.seq.demand = false)
    (link : (s.tables.seq l).stopLink = some q) (chain : s.seq.chain = n :: l :: below) (check : s.switchCheck q .demandOff = none)
    (quiet : s.seqEntersQuietly q) (hn : s.phase = .normal) (hu : s.unwatched) (few : m ≤ 10) :
    ∃ u : State, finish v = .next u.arbitrate ∧ s.enteredSeq u q below [] ∧ (u.seqRun n).recycle = 0 ∧ (u.seqRun l).saved = none := by
  have cause : w.st.replaceCause l = some .demandOff := by
    unfold State.replaceCause
    rw [h.ground.tables, heat, h.demand, demand]
    rfl
  have passes : w.st.switchCheck q .demandOff = none := by
    obtain ⟨known, allowed, off, room, rank, present, locked, calm⟩ := (switchCheck_eq_none_iff s q _).1 check
    refine (switchCheck_eq_none_iff w.st q _).2 ⟨?_, ?_, ?_, fun k => (nomatch k), fun k => (nomatch k), ?_, ?_, ?_⟩
    · rw [h.ground.tables]; exact known
    · rw [h.ground.tables]; exact allowed
    · rw [h.chain]; exact fun k => off (by rw [chain]; exact List.mem_cons_of_mem n k)
    · rw [h.ground.tables, h.gate]; exact present
    · unfold State.locked at *; rw [h.fault]; exact locked
    · unfold State.committing at *; rw [h.store]; exact calm
  have shape : actTakeUp w = doEnter q .demandOff w := by
    unfold actTakeUp
    rw [top_of_chain h.chain]
    dsimp only
    rw [cause]
    exact replaceByStop_passed (by rw [h.ground.tables]; exact link) passes
  rw [shape] at lead
  obtain ⟨u, run, entered, landed⟩ := finish_enter (s := s) (kinds := []) lead h.ground ⟨h.trace, h.ground.clock, h.ground.tables⟩ hn
    (State.undisturbed_of_unwatched hu) h.sized quiet (fun a ha => .inl (.inl (h.fresh a ha))) (by have := h.light; omega)
  rw [h.chain] at entered
  have runs : l < w.st.seq.runs.length := by obtain ⟨-, -, runs, -⟩ := h.sized; omega
  refine ⟨u, run, entered, landed.counted n ?_, ?_⟩
  · rw [State.left_recycle, h.own]
  · rw [landed.saved l, State.left_seqRun h.chain runs, if_pos rfl]

/-! ### The figures of the flue (R49, R53) -/

theorem requiredRise_between (rec : FlueRecord) (b : Int) (h1 : rec.tCold < b) (h2 : b < rec.tWarm) (h3 : rec.rWarm ≤ rec.rCold) :
    (requiredRise rec b : Int) = rec.rCold - ((rec.rCold : Int) - rec.rWarm) * (b - rec.tCold) / (rec.tWarm - rec.tCold) := by
  unfold requiredRise
  rw [if_neg (by omega), if_neg (by omega)]
  obtain ⟨x, hx⟩ := Int.eq_ofNat_of_zero_le (show 0 ≤ b - rec.tCold by omega)
  obtain ⟨y, hy⟩ := Int.eq_ofNat_of_zero_le (show 0 ≤ rec.tWarm - rec.tCold by omega)
  have less : x ≤ y := by omega
  have small : (rec.rCold - rec.rWarm) * x / y ≤ rec.rCold := by
    calc (rec.rCold - rec.rWarm) * x / y ≤ (rec.rCold - rec.rWarm) * y / y := Nat.div_le_div_right (Nat.mul_le_mul_left _ less)
      _ ≤ rec.rCold - rec.rWarm := Nat.div_le_of_le_mul (Nat.le_of_eq (Nat.mul_comm _ _))
      _ ≤ rec.rCold := Nat.sub_le _ _
  rw [hx, hy]
  simp only [Int.toNat_natCast]
  rw [Int.natCast_sub small, Int.natCast_ediv, Int.natCast_mul, Int.natCast_sub h3]

theorem warmupAllowance_below (rec : FlueRecord) (f : Int) (h : f < rec.tCold) :
    (warmupAllowance rec (some f) : Int) = min (rec.aMax : Int) ((rec.tCold - f) * rec.kW / 10) := by
  have e : warmupAllowance rec (some f) = min rec.aMax ((rec.tCold - f).toNat * rec.kW / 10) := if_neg (by omega)
  obtain ⟨x, hx⟩ := Int.eq_ofNat_of_zero_le (show 0 ≤ rec.tCold - f by omega)
  rw [e, hx]
  simp only [Int.toNat_natCast]
  have quotient : ((x * rec.kW / 10 : Nat) : Int) = (x : Int) * rec.kW / 10 := by
    rw [Int.natCast_ediv, Int.natCast_mul]
    rfl
  rw [← quotient]
  omega

end Sys2Proof.Machine

section
open Sys2Proof Sys2Proof.Machine

/-- Settles O24: the mark, the advance it examines, and each of the four ways in which a step ends; the two figures of the flue. -/
theorem minDwellMarkAdvances : Obligations.MinDwellMarkAdvances := by
  unfold Obligations.MinDwellMarkAdvances
  refine ⟨fun s => ?_, fun rec b => ?_, fun rec f => ?_⟩
  · have e : exec .minDwellMark s = finish (startWith s [.minMark]) := rfl
    have none (h : ∀ x, s.seq.running = some x → x.markTaken = true ∨ x.elapsed < x.minDwell) : exec .minDwellMark s = .next s.arbitrate := by
      have first : Leads 1 (startWith s [.minMark]) (actMinMark (Work.idle s)) := startWith_leads s .minMark
      rw [minMark_idle h] at first
      exact e.trans (first.finish (by decide) rfl)
    refine ⟨fun hx => none fun x k => (nomatch hx.symm.trans k), fun x hx h => none fun y hy => ?_, fun x hx h0 hm => ?_⟩
    · rw [hx] at hy
      cases hy
      exact h
    · dsimp only
      refine ⟨fun unproved => ?_, fun proved next => ?_, fun n k proved next ht hn hs hu quiet => ?_,
        fun n k m below proved next chain hn12 supervised call check hn hs hu quiet => ?_,
        fun n proved next chain hn12 idle demand hn hs hu => ?_,
        fun n l below c proved next chain hne hn12 hl12 saved idle hn hs hu => ?_⟩
      · have first : Leads 1 (startWith s [.minMark]) (actMinMark (Work.idle s)) := startWith_leads s .minMark
        rw [minMark_taken hx h0 hm, unproved] at first
        exact e.trans (first.finish (by decide) rfl)
      · have lead := advance_leads hx h0 hm proved
        rw [actAdvance_dwelt, next] at lead
        exact e.trans (lead.finish (by decide) rfl)
      · obtain ⟨u, run, entered⟩ := finish_stepEntry (next_leads hx h0 hm proved next) hn hs (State.undisturbed_of_unwatched hu) ht quiet
          (fun a ha => nomatch ha) (by rw [idle_weight]; omega)
        exact ⟨u, e.trans run, enteredStep_of_dwelt entered.enteredStep⟩
      · have runs : s.seq.runs.length = 12 := by obtain ⟨-, -, runs, -⟩ := hs; exact runs
        obtain ⟨u, run, called, saved⟩ := finish_calling (n := n) (below := below) (next_leads hx h0 hm proved next) chain
          (by show n < s.seq.runs.length; omega) supervised call check hn hs hu quiet (fun a ha => nomatch ha) (by rw [idle_weight]; omega)
        exact ⟨u, e.trans run, calledSeq_of_dwelt called, saved⟩
      · have lead := end_leads hx h0 hm proved next
        have ended := ended_ended x chain hn12 hs
        rw [actFinishTop_eq (top_of_chain chain), afterLeaving_empty ended.chain] at lead
        have calm : (s.ended x n).st.noTriggers = true := by unfold State.noTriggers at *; rw [ended.ground.triggers]; exact idle
        have few := ended.light
        obtain ⟨u, run, frame, claims, notice⟩ := finish_emptied lead ended.running calm (ended.demand.trans demand)
          (ended.ground.phase.trans hn) ended.sized (ended.ground.unwatched hu) ended.fresh (by omega)
        have same : AsRecorded (Work.idle s) (s.ended x n) := ⟨ended.trace, ended.ground.clock, ended.ground.tables⟩
        have trace : u.trace = (Work.idle s).traceFinish.st.trace := frame.trace.trans same.ended.trace
        have runs : u.seqRun n = { saved := Option.none, recycle := 0 } := by
          have kept : u.seqRun n = (s.ended x n).st.seqRun n := by unfold State.seqRun; rw [frame.seq]; rfl
          rw [kept, ended.own]
        refine ⟨u, e.trans run, by rw [frame.seq]; exact ended.chain, by rw [frame.seq]; exact ended.running, by rw [runs], by rw [runs],
          by rw [frame.seq]; exact ended.demand.trans demand, claims, by rw [frame.flue]; rfl, by rw [frame.flue]; rfl, fun r hr => ?_, trace, notice,
          frame.points.trans ended.ground.points, frame.fault.trans ended.fault, frame.tables.trans ended.ground.tables,
          frame.store.trans ended.store, frame.pins.trans ended.ground.pins, frame.up.trans ended.ground.up, frame.down.trans ended.ground.down⟩
        rw [trace] at hr
        exact traceFinish_ended _ r hr
      · have ended := ended_ended x chain hn12 hs
        have lead := end_leads hx h0 hm proved next
        rw [actFinishTop_eq (top_of_chain chain), afterLeaving_member ended.chain] at lead
        have start : Leads 4 (startWith s [.minMark]) (actTakeUp (s.ended x n)) := lead.trans (Leads.take (a := .takeUp) rfl)
        refine ⟨fun replace mode quiet => ?_, fun replace mode supervised mark max => ?_, fun m heat demand link check _ quiet => ?_⟩
        · obtain ⟨u, run, t, running⟩ := finish_restarted start ended hne hl12 saved replace mode quiet idle hn hu (by decide)
          exact ⟨u, e.trans run, ⟨t.chain, t.recycle, t.saved, t.notice, t.points, t.fault, t.tables, t.store, t.trace, t.sequence⟩, running⟩
        · obtain ⟨u, run, t, running⟩ := finish_continued start ended hne hl12 saved replace mode supervised
            (fun k => mark (of_decide_eq_true k)) max idle hn hu (by decide)
          exact ⟨u, e.trans run, ⟨t.chain, t.recycle, t.saved, t.notice, t.points, t.fault, t.tables, t.store, t.trace, t.sequence⟩, running⟩
        · obtain ⟨u, run, entered, recycle, gone⟩ := finish_replaced start ended hl12 heat demand link chain check quiet hn hu (by decide)
          exact ⟨u, e.trans run, entered, recycle, gone⟩
  · refine ⟨fun h => if_pos h, fun h1 h2 => ?_, fun h1 h2 h3 => requiredRise_between rec b h1 h2 h3⟩
    unfold requiredRise
    rw [if_neg (by omega), if_pos h2]
  · exact ⟨rfl, fun h => if_pos h, fun h => warmupAllowance_below rec f h⟩

end
end

section
/-! SUPPORT. An accepted unlock: nothing that it hands on moves anything, when no trigger and no demand waits: O44. -/

namespace Sys2Proof.Machine

/-- The state of an accepted unlock before the end of its event. -/
def State.unlocked (s : State) : State :=
  ((s.setFault s.fault.unlock).raiseLockout.requestPersist).mappedCircuits fun _ c => { c with blocked := false }

theorem acceptUnlock_eq (w : Work) : acceptUnlock w =
    ((lockoutCleared (w.withSt ((w.st.setFault w.st.fault.unlock).raiseLockout.requestPersist))).fin .sequenceClaims).emit
      [.examineTriggers, .examineDemand] := rfl

theorem acceptUnlock_st (w : Work) : (acceptUnlock w).st = w.st.unlocked := mapCircuits_st _ _

theorem unlockRefusal_none {s : State} (h : s.unlockRefusal = none) : s.seq.chain = [] := by
  unfold State.unlockRefusal at h
  split at h
  · cases h
  · split at h
    · cases h
    · split at h
      · cases h
      · split at h
        · cases h
        · next purging =>
          rw [Bool.or_eq_true, not_or] at purging
          obtain ⟨empty, -⟩ := purging
          simpa using empty

theorem State.unlocked_fields (s : State) : s.unlocked.seq = s.seq ∧ s.unlocked.fault = s.fault.unlock ∧ s.unlocked.phase = s.phase ∧
    s.unlocked.tables = s.tables ∧ s.unlocked.points = s.points := by
  have ground : SameGround s (s.setFault s.fault.unlock) := ⟨rfl, rfl, rfl, rfl, rfl, rfl, rfl, rfl, rfl, rfl, rfl, rfl⟩
  obtain ⟨raised, fault, seq, -⟩ := raiseLockout_fields (s.setFault s.fault.unlock)
  have e : s.unlocked = { (s.setFault s.fault.unlock).raiseLockout.requestPersist with circuits := s.unlocked.circuits } := rfl
  obtain ⟨cleared, fault', -, seq', -⟩ := fields_of_circuits e
  exact ⟨seq'.trans seq, fault'.trans fault, cleared.phase.trans (raised.phase.trans ground.phase),
    cleared.tables.trans (raised.tables.trans ground.tables), cleared.points.trans (raised.points.trans ground.points)⟩

theorem State.unlocked_circuit (s : State) {c : Nat} (hc : c < 6) (used : (s.tables.circuit c).inUse = true) :
    (s.unlocked.circuit c).blocked = false := by
  unfold State.unlocked
  rw [State.mappedCircuits_circuit _ _ hc]
  exact congrArg CircuitRun.blocked (if_pos used)

theorem State.unlocked_store (s : State) : s.unlocked.store.write.isSome = true ∨ s.unlocked.store.again = true :=
  (requestPersist_store (s.setFault s.fault.unlock).raiseLockout).1

theorem State.unlocked_flag {s : State} (h : s.gate.notices.length = 7) : (s.unlocked.notice .lockout).flag = true :=
  (raiseLockout_flag (s := s.setFault s.fault.unlock) h).1

theorem State.unlocked_lockoutSlot (s : State) (r : Nat) : s.unlocked.lockoutSlot r = none := by
  obtain ⟨-, fault, -⟩ := s.unlocked_fields
  unfold State.lockoutSlot State.locked
  rw [fault]
  rfl

/-- What stands when the event of an accepted unlock is over, from the state `s` in which it was accepted. -/
structure Unlocked (s u : State) : Prop where
  frame : OnlyCalm s.unlocked u
  lockout : ∀ r, r < 12 → (u.role r).lockout = none
  notice : (u.notice .lockout).flag = true

theorem acceptUnlock_waits (s : State) :
    (∀ a ∈ (acceptUnlock (Work.idle s)).waits, a.settles) ∧ (acceptUnlock (Work.idle s)).weight calmWeight ≤ 88 ∧
      .sequenceClaims ∈ (acceptUnlock (Work.idle s)).waits := by
  have shape := acceptUnlock_eq (Work.idle s)
  have adds : Adds 86 (Work.idle s) ((lockoutCleared ((Work.idle s).withSt
      (((Work.idle s).st.setFault (Work.idle s).st.fault.unlock).raiseLockout.requestPersist))).fin .sequenceClaims) :=
    ((adds_withSt _ _).trans (adds_mapCircuits _ _)).trans (adds_claims _)
  have claims : .sequenceClaims ∈ ((lockoutCleared ((Work.idle s).withSt
      (((Work.idle s).st.setFault (Work.idle s).st.fault.unlock).raiseLockout.requestPersist))).fin .sequenceClaims).waits :=
    (Work.fin_waits _ _ _).2 (.inr rfl)
  generalize (lockoutCleared _).fin .sequenceClaims = v at shape adds claims
  rw [shape]
  refine ⟨fun a ha => ?_, ?_, (Work.emit_waits _ _ _).2 (.inl claims)⟩
  · rcases (Work.emit_waits _ _ a).1 ha with k | k
    · exact .inl ((adds.fresh a k).elim (fun n => nomatch n) id)
    · rcases List.mem_cons.1 k with rfl | k
      · exact .inr (.inl rfl)
      · exact .inr (.inr (List.mem_singleton.1 k))
  · rw [Work.weight_emit]
    have h : v.weight calmWeight ≤ 86 := adds.weight
    simp only [List.map_cons, List.map_nil, List.sum_cons, List.sum_nil, calmWeight]
    omega

theorem finish_unlock {s : State} (hn : s.phase = .normal) (hs : s.sized) (hu : s.unheeded) (idle : s.noTriggers = true)
    (demand : s.seq.demand = false) : ∃ u : State, finish (acceptUnlock (Work.idle s)) = .next u.arbitrate ∧ Unlocked s u := by
  have st := acceptUnlock_st (Work.idle s)
  rw [Work.idle_st] at st
  obtain ⟨seq, -, phase, tables, -⟩ := s.unlocked_fields
  have length : s.gate.notices.length = 7 := by obtain ⟨-, -, -, -, -, -, -, -, -, notices, -⟩ := hs; exact notices
  have flag := State.unlocked_flag length
  have slots := s.unlocked_lockoutSlot
  obtain ⟨calms, weight, claims⟩ := acceptUnlock_waits s
  have sized : (acceptUnlock (Work.idle s)).st.sized := (acceptUnlock_moves _).keeps Move.sized hs
  generalize acceptUnlock (Work.idle s) = w at *
  rw [← st] at seq phase tables flag slots
  have none : w.st.noTriggers = true := by unfold State.noTriggers; rw [seq]; exact idle
  have demandless : w.st.demandIdle := idle_of_no_demand (by rw [seq]; exact demand)
  obtain ⟨e, calm, done, run⟩ := finish_calm (w := w) (phase.trans hn) sized (.inr (unheeded_of_eq hu tables seq))
    (fun a ha => by
      rcases calms a ha with k | rfl | rfl
      · exact k.calms _
      · exact none
      · exact demandless)
    (by have : Config.cascadeLimit = 65536 := rfl; omega)
  have claimed := (calm.claims claims).resolve_left (by rw [done]; exact List.not_mem_nil)
  refine ⟨e.st, run, by rw [← st]; exact calm.frame, fun r hr => ?_, calm.flags _ flag⟩
  rw [(claimed r hr).2, slots]

/-- The conclusions of R148 on the state before the unlock. -/
theorem Unlocked.facts {s u : State} (h : Unlocked s u) (hc : s.unlockRefusal = none) :
    u.fault.data = { s.fault.data with locked := false, allowance := s.fault.data.allowance - 1 } ∧
      u.fault.record = s.fault.record ∧
      u.fault.regain = (match s.fault.regain with | some t => some t | none => some 12000) ∧
      (∀ r, r < 12 → (u.role r).lockout = none) ∧
      (∀ c, c < 6 → (s.tables.circuit c).inUse = true → (u.circuit c).blocked = false) ∧
      (u.notice .lockout).flag = true ∧ u.seq.chain = [] ∧ u.seq.demand = s.seq.demand ∧ u.points = s.points ∧
      u.tables = s.tables ∧ (u.store.write.isSome = true ∨ u.store.again = true) := by
  obtain ⟨seq, fault, -, tables, points⟩ := s.unlocked_fields
  have faultU := h.frame.fault.trans fault
  have seqU := h.frame.seq.trans seq
  have circuits (c : Nat) : u.circuit c = s.unlocked.circuit c := by unfold State.circuit; rw [h.frame.circuits]
  refine ⟨by rw [faultU]; rfl, by rw [faultU]; rfl, by rw [faultU]; rfl, h.lockout, fun c hc used => ?_, h.notice, ?_, ?_,
    h.frame.points.trans points, h.frame.tables.trans tables, ?_⟩
  · rw [circuits]
    exact s.unlocked_circuit hc used
  · rw [seqU]
    exact unlockRefusal_none hc
  · rw [seqU]
  · rw [h.frame.store]
    exact s.unlocked_store

theorem serving_of_normal {s : State} (h : s.phase = .normal) : s.serving = true := by simp [State.serving, h]

end Sys2Proof.Machine

section
open Sys2Proof Sys2Proof.Machine

/-- Settles O44: by request and by edge, an accepted unlock is one calm event. -/
theorem unlockAccepted : Obligations.UnlockAccepted := by
  unfold Obligations.UnlockAccepted
  intro s free hn hs hu idle demand
  dsimp only
  refine ⟨fun src hm hc => ?_, fun inactive => ?_⟩
  · have k := (handling_heardFrom hm).reply src (.ok [])
    have accepted : ((s.heardFrom src).reply src (.ok [])).unlockRefusal = none := (unlockRefusal_heardFrom s src).trans free
    obtain ⟨u, run, unlocked⟩ := finish_unlock (s := (s.heardFrom src).reply src (.ok [])) (k.ground.phase.trans hn) (k.sized hs)
      (by
        obtain ⟨running, triggers, twelve⟩ := hu
        refine ⟨?_, ?_, ?_⟩
        · rw [k.running, k.ground.tables]; exact running
        · rw [k.ground.tables]; exact triggers
        · rw [k.ground.triggers]; exact twelve)
      (by unfold State.noTriggers at *; rw [k.ground.triggers]; exact idle) (k.demand.trans demand)
    have facts := unlocked.facts accepted
    rw [k.fault, k.ground.tables, k.ground.points, k.demand, demand] at facts
    refine ⟨u, ?_, facts, unlocked.frame.reply⟩
    rw [exec_unlock hm hc, doUnlock_accepted ((unlockRefusal_heardFrom s src).trans free)]
    exact run
  · obtain ⟨u, run, unlocked⟩ := finish_unlock (s := s.setUnlock true) hn hs hu idle demand
    have facts := unlocked.facts (s := s.setUnlock true) free
    rw [show (s.setUnlock true).seq.demand = false from demand] at facts
    refine ⟨u, ?_, facts, ?_⟩
    · rw [exec_unlockEdge (serving_of_normal hn) inactive]
      unfold edgeRequest
      rw [show (s.setUnlock true).unlockRefusal = none from free]
      exact run
    · have pins : u.pins = (s.setUnlock true).pins := unlocked.frame.pins
      have tables : u.tables = s.tables := unlocked.frame.tables
      unfold State.unlockActive
      rw [pins, tables]
      exact decide_eq_true rfl

end
end

section
/-! SUPPORT. Faults among the walks of the same event: a lockout, or a fault that is noted alone: O36. -/

namespace Sys2Proof.Machine

/-! ### What a lockout is read from -/

/-- What the statement of a lockout reads of the state before it. -/
structure SameScene (s t : State) : Prop where
  tables : t.tables = s.tables
  fault : t.fault = s.fault
  clock : t.clock = s.clock
  points : t.points = s.points
  conds : t.conds = s.conds
  pins : t.pins = s.pins
  staging : t.staging = s.staging
  seq : t.seq = s.seq
  trace : t.trace = s.trace
  up : t.gate.up = s.gate.up
  down : t.gate.down = s.gate.down

theorem flueTemp_of_eq {s t : State} (ht : t.tables = s.tables) (hp : t.points = s.points) : t.flueTemp = s.flueTemp := by
  unfold State.flueTemp State.goodPoint State.point
  rw [ht, hp]

theorem faultTime_of_eq {s t : State} (h : t.clock = s.clock) : t.faultTime = s.faultTime := by unfold State.faultTime; rw [h]

theorem allowanceNow_of_eq {s t : State} (ht : t.tables = s.tables) (hp : t.points = s.points) : allowanceNow t = allowanceNow s := by
  unfold allowanceNow
  rw [flueTemp_of_eq ht hp, ht]

theorem SameScene.lockedOut {s t u : State} (h : SameScene s t) {f : FaultIn} {mark : Bool} (k : t.lockedOut u f mark) :
    s.lockedOut u f mark := by
  have recorded : AsRecorded (Work.idle s) (Work.idle t) := ⟨h.trace, h.clock, h.tables⟩
  obtain ⟨data, record, chain, running, recycle, sequence, lockout, demand, triggers, purgeDue, n1, n2, n3, trace, points, conds, pins,
    tables, staging, up, down, writes⟩ := k
  rw [h.fault, flueTemp_of_eq h.tables h.points] at data
  rw [faultTime_of_eq h.clock, flueTemp_of_eq h.tables h.points] at record
  rw [h.tables] at chain sequence
  rw [h.tables, allowanceNow_of_eq h.tables h.points] at running
  refine ⟨data, record, chain, running, recycle, sequence, lockout, demand.trans (by rw [h.seq]), triggers.trans (by rw [h.seq]),
    purgeDue.trans (by rw [h.seq]), n1, n2, n3, ?_, points.trans h.points, conds.trans h.conds, pins.trans h.pins, tables.trans h.tables,
    staging.trans h.staging, up.trans h.up, down.trans h.down, writes⟩
  rw [trace, h.tables]
  exact ((((recorded.traced _).ended).top _).traced _).trace

/-! ### A lockout among walks -/

theorem arrange_among (o : HandoffOrder) (walks faults : List Act) :
    ∃ before after, arrange o walks [] faults = before ++ faults ++ after ∧ (before = walks ∧ after = [] ∨ before = [] ∧ after = walks) := by
  have first (h : arrange o walks [] faults = walks ++ faults) :
      ∃ before after, arrange o walks [] faults = before ++ faults ++ after ∧ (before = walks ∧ after = [] ∨ before = [] ∧ after = walks) :=
    ⟨walks, [], by rw [h, List.append_nil], .inl ⟨rfl, rfl⟩⟩
  have last (h : arrange o walks [] faults = faults ++ walks) :
      ∃ before after, arrange o walks [] faults = before ++ faults ++ after ∧ (before = walks ∧ after = [] ∨ before = [] ∧ after = walks) :=
    ⟨[], walks, by rw [h, List.nil_append], .inr ⟨rfl, rfl⟩⟩
  cases o
  case conditionFlueTrace | conditionTraceFlue | flueConditionTrace => exact first (by simp [arrange])
  case traceConditionFlue | flueTraceCondition | traceFlueCondition => exact last (by simp [arrange])

/-- Walks over a table with no condition in use are taken one by one and change nothing. -/
theorem unwatchedWalks_lead {s : State} (h : s.unwatched) (rs : List CondInput) (hi : ∀ i ∈ rs, ∀ c, i ≠ .hold c) (l : List Act) :
    Leads rs.length (Work.waiting s (rs.map .condWalk ++ l)) (Work.waiting s l) := by
  induction rs with
  | nil => exact Leads.refl _
  | cons i rs ih =>
    have first := Leads.take (Work.take_waiting s (.condWalk i) (rs.map .condWalk ++ l))
    have idle : act (.condWalk i) (Work.waiting s (rs.map .condWalk ++ l)) = Work.waiting s (rs.map .condWalk ++ l) :=
      actCondWalk_unwatched (w := Work.waiting s _) h fun c k => absurd k (hi i List.mem_cons_self c)
    rw [idle] at first
    have rest := first.trans (ih fun j hj => hi j (List.mem_cons_of_mem i hj))
    rw [List.length_cons, Nat.add_comm]
    exact rest

theorem walks_tame {rs : List CondInput} (hi : ∀ i ∈ rs, i.remote) : ∀ a ∈ rs.map Act.condWalk, a.tame := by
  intro a ha
  obtain ⟨i, hi', rfl⟩ := List.mem_map.1 ha
  exact hi i hi'

theorem walks_weight (rs : List CondInput) : ((rs.map Act.condWalk).map calmWeight).sum = 3 * rs.length := by
  induction rs with
  | nil => rfl
  | cons i rs ih => rw [List.map_cons, List.map_cons, List.sum_cons, ih, List.length_cons]; simp only [calmWeight]; omega

/-- A fault of class LOCKOUT that waits among walks, to the end of its event. -/
theorem finish_lockoutFault {m : Nat} {v : Work} {s : State} {f : FaultIn} {rs : List CondInput}
    (lead : Leads m v (Work.waiting s (arrange s.order (rs.map .condWalk) [] [.takeFault f])))
    (hi : ∀ i ∈ rs, i.remote) (hc : f.cls = .lockout) (quiet : s.locksQuietly) (few : m + 4 * rs.length ≤ 20000) :
    ∃ u : State, finish v = .next u.arbitrate ∧ s.lockedOut u f false ∧
      (∀ r, r < 12 → (u.role r).limit = (s.role r).limit) ∧ (s.appliedLaw → u.appliedLaw) ∧
      ∀ l, (u.line l).mismatch = (s.line l).mismatch := by
  obtain ⟨unlocked, -, -, hs, hu, -⟩ := id quiet
  have takes (k : Nat) (after : List CondInput) (hk : k ≤ m + rs.length) (short : after.length ≤ rs.length)
      (ha : ∀ i ∈ after, i.remote)
      (lead : Leads k v (Work.waiting s (.takeFault f :: after.map .condWalk))) :
      ∃ u : State, finish v = .next u.arbitrate ∧ s.lockedOut u f false ∧
        (∀ r, r < 12 → (u.role r).limit = (s.role r).limit) ∧ (s.appliedLaw → u.appliedLaw) ∧
        ∀ l, (u.line l).mismatch = (s.line l).mismatch := by
    obtain ⟨w, hw⟩ : ∃ w, w = (Work.waiting s (after.map .condWalk)).trace (.fault f.code) := ⟨_, rfl⟩
    have st : w.st = s.setTrace w.st.trace := by rw [hw]; exact Work.trace_st _ _
    have adds : Adds 2 (Work.waiting s (after.map .condWalk)) w := by rw [hw]; exact adds_trace _ _
    have sized : w.st.sized := by rw [hw]; exact Moves.keeps (s := s) Move.sized (Work.trace_moves (Work.waiting s _) _) hs
    have recorded : AsRecorded ((Work.idle s).trace (.fault f.code)) w := by
      rw [hw]
      exact AsRecorded.traced (v := Work.idle s) (w := Work.waiting s (after.map .condWalk)) ⟨rfl, rfl, rfl⟩ _
    have taken : Leads 1 (Work.waiting s (.takeFault f :: after.map .condWalk)) (lockOut f false w) := by
      have e := actTakeFault_lockout (w := Work.waiting s (after.map .condWalk)) unlocked hc
      rw [← hw] at e
      rw [← e]
      exact Leads.take (Work.take_waiting s (.takeFault f) _)
    have waits : (Work.waiting s (after.map Act.condWalk)).waits = after.map .condWalk := by simp [Work.waiting, Work.waits]
    have weight : (Work.waiting s (after.map Act.condWalk)).weight calmWeight = 3 * after.length := by
      rw [← walks_weight]
      simp [Work.waiting, Work.weight]
    obtain ⟨u, run, locked, limit, applied, mismatch⟩ := finish_lockOut (lead.trans taken)
      (by rw [st]; exact State.setTrace_ground s _) recorded (by rw [st]; rfl) (by rw [st]; rfl) (by rw [st]; rfl) quiet sized
      (fun a ha' => .inl ((adds.fresh a ha').elim (fun k => walks_tame ha a (waits ▸ k)) id))
      (by have := adds.weight; omega)
    rw [st] at limit applied mismatch
    exact ⟨u, run, locked, limit, applied, mismatch⟩
  obtain ⟨before, after, e, place⟩ := arrange_among s.order (rs.map .condWalk) [.takeFault f]
  rw [e] at lead
  rcases place with ⟨rfl, rfl⟩ | ⟨rfl, rfl⟩
  · rw [List.append_nil] at lead
    exact takes _ [] (Nat.le_refl _) (Nat.zero_le _) (fun i k => nomatch k) (lead.trans (unwatchedWalks_lead hu rs (fun i h => (hi i h).not_hold) [.takeFault f]))
  · exact takes m rs (by omega) (Nat.le_refl _) hi lead

/-! ### A fault that is noted alone -/

/-- The notices at the end of an event: none that stood is lost. -/
theorem ending_leads_raised {s : State} (halves : List Nat) (l : List Act) (hl : s.gate.notices.length = 7) :
    ∃ n, Leads halves.length (Work.ending s halves l) (Work.waiting (s.withNotices n) l) ∧
      (∀ k, (s.notice k).flag = true → ((s.withNotices n).notice k).flag = true) ∧ n.length = 7 := by
  induction halves generalizing s with
  | nil => exact ⟨s.gate.notices, Leads.refl _, fun _ => id, hl⟩
  | cons h halves ih =>
    obtain ⟨n, rest, kept, length⟩ := ih (s := s.raiseNotice .trace (s.traceContent h)) (List.length_set.trans hl)
    have first : Leads 1 (Work.ending s (h :: halves) l) (Work.ending (s.raiseNotice .trace (s.traceContent h)) halves l) :=
      Leads.take (a := .traceNotice h) (w' := Work.ending s halves l) rfl
    refine ⟨n, by rw [List.length_cons, Nat.add_comm]; exact first.trans rest, fun k hk => kept k ?_, length⟩
    exact (State.raiseNotice_flag hl .trace _ k).2 hk

/-- The state after a fault has been noted, before the end of its event. -/
def State.noticed (s : State) (f : FaultIn) : State :=
  (s.setTrace (s.traced [.fault f.code])).noteFault (s.faultRecord f .notice .noted false)

theorem State.noticed_eq (s : State) (f : FaultIn) (n : List Notice) : (s.noticed f).withNotices n = { s with
    fault := { s.fault with record := some (s.faultRecord f .notice .noted false) }
    trace := s.traced [.fault f.code]
    gate := { s.gate with notices := n } } := by
  have raised (t : State) (c : List Byte) : (t.raiseNotice .fault c).withNotices n = t.withNotices n := rfl
  rw [State.noticed, State.noteFault, raised]
  generalize s.traced [.fault f.code] = t
  generalize s.faultRecord f .notice .noted false = r
  rfl

theorem noticeFault_leads {s : State} {f : FaultIn} (hc : f.cls = .notice) (unlocked : s.locked = false) (hl : s.gate.notices.length = 7)
    (l : List Act) : ∃ m n, m ≤ 3 ∧ Leads m (Work.waiting s (.takeFault f :: l)) (Work.waiting ((s.noticed f).withNotices n) l) ∧
      (((s.noticed f).withNotices n).notice .fault).flag = true := by
  have first := Leads.take (Work.take_waiting s (.takeFault f) l)
  have e : act (.takeFault f) (Work.waiting s l) = ((Work.waiting s l).trace (.fault f.code)).withSt (s.noticed f) := by
    show actTakeFault f (Work.waiting s l) = _
    rw [actTakeFault_notice (w := Work.waiting s l) unlocked hc]
    have recorded : AsRecorded (Work.idle s) (Work.waiting s l) := ⟨rfl, rfl, rfl⟩
    have trace : ((Work.waiting s l).trace (.fault f.code)).st = s.setTrace (s.traced [.fault f.code]) := by
      rw [Work.trace_st, (recorded.traced _).trace]
      rfl
    rw [trace]
    rfl
  rw [e] at first
  have noted := noteFault_flag (s := s.setTrace (s.traced [.fault f.code])) hl (s.faultRecord f .notice .noted false)
  rw [show (s.setTrace (s.traced [.fault f.code])).noteFault (s.faultRecord f .notice .noted false) = s.noticed f from rfl] at noted
  obtain ⟨flag, length⟩ := noted
  have ends (halves : List Nat) (few : halves.length ≤ 2)
      (shape : ((Work.waiting s l).trace (.fault f.code)).withSt (s.noticed f) = Work.ending (s.noticed f) halves l) :
      ∃ m n, m ≤ 3 ∧ Leads m (Work.waiting s (.takeFault f :: l)) (Work.waiting ((s.noticed f).withNotices n) l) ∧
        (((s.noticed f).withNotices n).notice .fault).flag = true := by
    obtain ⟨n, rest, kept, -⟩ := ending_leads_raised halves l length
    rw [shape] at first
    exact ⟨1 + halves.length, n, by omega, first.trans rest, kept _ flag⟩
  rcases trace_waiting s (.fault f.code) l with set | ⟨idle, -⟩
  · obtain ⟨halves, few, shape⟩ := setTrace_waiting s (s.traced [.fault f.code]) l
    exact ends halves few (by rw [set, shape]; rfl)
  · exact ends [] (Nat.zero_le _) (by rw [idle]; rfl)

/-- What a fault noted among walks leaves, from the state in which it was raised. -/
structure Noted (s : State) (f : FaultIn) (u : State) : Prop where
  frame : u = { s with
    conds := u.conds
    fault := { s.fault with record := some (s.faultRecord f .notice .noted false) }
    trace := s.traced [.fault f.code]
    gate := { s.gate with notices := u.gate.notices } }
  flag : (u.notice .fault).flag = true

theorem walked_all_eq (s : State) (rs : List CondInput) : rs.foldl State.walked s = { s with conds := (rs.foldl State.walked s).conds } := by
  induction rs generalizing s with
  | nil => rfl
  | cons i rs ih =>
    have rest := ih (s.walked i)
    rw [List.foldl_cons]
    generalize rs.foldl State.walked (s.walked i) = t at rest ⊢
    have first := State.walked_eq s i
    generalize (s.walked i).conds = c at first
    rw [first] at rest
    exact rest

/-- Walks change only conditions, so that a fault noted after them is the one noted before them. -/
theorem noted_of_walked {s a b u : State} {c d : List CondRun} {n : List Notice} {f : FaultIn} (ha : a = { s with conds := c })
    (hb : b = (a.noticed f).withNotices n) (hu : u = { b with conds := d }) (flag : (b.notice .fault).flag = true) : Noted s f u := by
  have traced : a.traced [.fault f.code] = s.traced [.fault f.code] := State.traced_of_eq (by rw [ha]) (by rw [ha]) _
  have record : a.faultRecord f .notice .noted false = s.faultRecord f .notice .noted false := by rw [ha]; rfl
  rw [State.noticed_eq, traced, record] at hb
  refine ⟨?_, by rw [hu]; exact flag⟩
  rw [hu, hb, ha]

theorem finish_noticeFault {m : Nat} {v : Work} {s : State} {f : FaultIn} {rs : List CondInput}
    (lead : Leads m v (Work.waiting s (arrange s.order (rs.map .condWalk) [] [.takeFault f])))
    (hi : ∀ i ∈ rs, ∀ c, i ≠ .hold c) (hc : f.cls = .notice) (unlocked : s.locked = false) (hn : s.phase = .normal)
    (hu : s.unheeded) (hl : s.gate.notices.length = 7) (few : m + 4 * rs.length ≤ 20000) :
    ∃ u : State, finish v = .next u.arbitrate ∧ Noted s f u := by
  obtain ⟨before, after, e, place⟩ := arrange_among s.order (rs.map .condWalk) [.takeFault f]
  rw [e] at lead
  rcases place with ⟨rfl, rfl⟩ | ⟨rfl, rfl⟩
  · obtain ⟨m1, h1, walks⟩ := condWalks_lead hn hu rs hi [.takeFault f]
    have ea := walked_all_eq s rs
    rw [List.append_nil] at lead
    generalize rs.foldl State.walked s = a at walks ea
    obtain ⟨m2, n, h2, taken, flag⟩ := noticeFault_leads (s := a) hc (by rw [ea]; exact unlocked) (by rw [ea]; exact hl) []
    exact ⟨_, ((lead.trans walks).trans taken).finish (by unfold Config.cascadeLimit; omega) rfl, noted_of_walked ea rfl rfl flag⟩
  · obtain ⟨m2, n, h2, taken, flag⟩ := noticeFault_leads hc unlocked hl (rs.map .condWalk)
    obtain ⟨b, hb⟩ : ∃ b, b = (s.noticed f).withNotices n := ⟨_, rfl⟩
    have phase : b.phase = .normal := by rw [hb, State.noticed_eq]; exact hn
    have unheeded : b.unheeded := by rw [hb, State.noticed_eq]; exact hu
    rw [← hb] at taken flag
    obtain ⟨m1, h1, walks⟩ := condWalks_lead phase unheeded rs hi []
    rw [List.append_nil] at walks
    exact ⟨_, ((lead.trans taken).trans walks).finish (by unfold Config.cascadeLimit; omega) rfl,
      noted_of_walked (c := s.conds) (a := s) rfl hb (walked_all_eq b rs) flag⟩

/-! ### The readback (R119) -/

/-- The walks that a line's event hands on. -/
def State.lineInputs (s : State) (l : Nat) : List CondInput :=
  match s.tables.roleOfLine l with
  | some r => [.role r]
  | none => []

theorem State.lineToConditions_eq (s : State) (l : Nat) : s.lineToConditions l = (s.lineInputs l).map .condWalk := by
  unfold State.lineToConditions State.lineInputs
  cases s.tables.roleOfLine l <;> rfl

theorem State.lineInputs_walk (s : State) (l : Nat) : (s.lineInputs l).length ≤ 1 ∧ ∀ i ∈ s.lineInputs l, i.remote := by
  unfold State.lineInputs
  cases s.tables.roleOfLine l with
  | none => exact ⟨Nat.zero_le 1, fun i hi => nomatch hi⟩
  | some r => exact ⟨Nat.le_refl _, fun i hi => by cases List.mem_singleton.1 hi; exact trivial⟩

/-- What the first action of an event emits is what waits. -/
theorem State.emit_leads (s t : State) (acts : List Act) : Leads 0 (((Work.idle s).withSt t).emit acts) (Work.waiting t acts) := by
  have emitted := Leads.emit s t acts []
  rw [List.append_nil] at emitted
  exact emitted

/-- A disagreement that finds the mark clear sets it and raises LINE_MISMATCH among the walk of the line's role. -/
theorem compareLine_leads {s : State} {l : Nat} (other : s.sense l = !(s.line l).commanded)
    (clear : (s.line l).mismatch = false) :
    Leads 0 (compareLine l (Work.idle s)) (Work.waiting (s.setLine l { s.line l with mismatch := true })
      (arrange s.order ((s.lineInputs l).map .condWalk) []
        [.takeFault (s.outputFault 65 (if s.tables.safetyLine l then .lockout else .notice) (some l))])) := by
  have disagrees : s.disagrees l = true := by
    unfold State.disagrees
    rw [other]
    cases (s.line l).commanded <;> rfl
  have fault : s.mismatchFault l = [.takeFault (s.outputFault 65 (if s.tables.safetyLine l then .lockout else .notice) (some l))] :=
    if_pos (by rw [disagrees, clear]; rfl)
  have compared : s.compared l = s.setLine l { s.line l with mismatch := true } := by unfold State.compared; rw [disagrees]
  have e : compareLine l (Work.idle s) = ((Work.idle s).withSt (s.compared l)).emit
      (arrange s.order (s.lineToConditions l) [] (s.mismatchFault l)) := rfl
  rw [e, compared, fault, State.lineToConditions_eq]
  exact State.emit_leads s _ _

/-- The settle's end on a disagreement that finds the mark clear. -/
theorem settleExpired_leads {s : State} {l : Nat} (hl : l < s.lines.length) (hn : s.phase = .normal) (out : (s.line l).settle = some 0)
    (other : s.sense l = !(s.line l).commanded) (clear : (s.line l).mismatch = false) :
    Leads 0 (settleExpired l (Work.idle s))
      (Work.waiting (s.setLine l { commanded := (s.line l).commanded, settle := none, mismatch := true })
        (arrange s.order ((s.lineInputs l).map .condWalk) []
          [.takeFault (s.outputFault 65 (if s.tables.safetyLine l then .lockout else .notice) (some l))])) := by
  have line := State.line_setLine (s := s) (l := l) hl { s.line l with settle := none }
  have e : settleExpired l (Work.idle s) = compareLine l (Work.idle (s.setLine l { s.line l with settle := none })) :=
    if_pos (by rw [Work.idle_st, State.normal_of_phase hn, (ranOut_iff _).2 out]; rfl)
  have compared := compareLine_leads (s := s.setLine l { s.line l with settle := none }) (l := l) (by rw [line]; exact other)
    (by rw [line]; exact clear)
  rw [line, State.setLine_setLine] at compared
  rw [e]
  exact compared

/-- A change of sense on a settled line that then disagrees with its command and finds the mark clear. -/
theorem senseChanged_leads {s : State} {l : Nat} {on : Bool} (hl : l < s.pins.sense.length) (hn : s.phase = .normal)
    (changes : s.sense l = !on) (settled : (s.line l).settle = none) (other : on = !(s.line l).commanded)
    (clear : (s.line l).mismatch = false) :
    Leads 0 (senseChanged l on (Work.idle s))
      (Work.waiting ((s.setSense l on).setLine l { s.line l with mismatch := true })
        (arrange s.order ((s.lineInputs l).map .condWalk) []
          [.takeFault (s.outputFault 65 (if s.tables.safetyLine l then .lockout else .notice) (some l))])) := by
  have e : senseChanged l on (Work.idle s) = compareLine l (Work.idle (s.setSense l on)) := by
    have line : ((Work.idle s).withSt (s.setSense l on)).st.line l = s.line l := rfl
    rw [senseChanged, Work.idle_st, if_neg (by rw [changes]; cases on <;> decide)]
    dsimp only
    rw [if_pos (by exact State.normal_of_phase hn), if_neg (by rw [line, settled]; decide)]
    rfl
  have now : (s.setSense l on).sense l = on := State.sense_setSense (s := s) (l := l) hl on
  rw [e]
  exact compareLine_leads (s := s.setSense l on) (l := l) (now.trans other) clear

theorem safetyLine_iff (t : Tables) (l : Nat) : t.safetyLine l = true ↔ ∃ r, r < 3 ∧ (t.role r).target = .line l := by
  unfold Tables.safetyLine
  simp [List.any_eq_true]

theorem State.sized_lines {s : State} (hs : s.sized) : s.lines.length = 8 ∧ s.pins.sense.length = 8 := by
  obtain ⟨-, -, -, -, -, -, lines, sense, -⟩ := hs
  exact ⟨lines, sense⟩

/-- Lines, and the levels that they are read at, decide nothing of how the part locks out. -/
theorem locksQuietly_lined {s : State} (quiet : s.locksQuietly) {lines : List LineRun} {sense : List Bool} (hl : lines.length = 8)
    (hp : sense.length = 8) : ({ s with lines := lines, pins := { s.pins with sense := sense } } : State).locksQuietly := by
  obtain ⟨unlocked, calm, hn, sized, hu, device, enters⟩ := quiet
  obtain ⟨points, conds, runs, triggers, circuits, roles, -, -, slots, notices, mem, pos⟩ := sized
  exact ⟨unlocked, calm, hn, ⟨points, conds, runs, triggers, circuits, roles, hl, hp, slots, notices, mem, pos⟩, hu, device, enters⟩

/-- A mismatch of class LOCKOUT on line `l`, raised among the walk of the line's role, to the end of its event. -/
theorem finish_lineLockout {m : Nat} {v : Work} {s : State} {l : Nat} {lines : List LineRun} {sense : List Bool}
    (lead : Leads m v (Work.waiting { s with lines := lines, pins := { s.pins with sense := sense } }
      (arrange s.order ((s.lineInputs l).map .condWalk) [] [.takeFault (s.outputFault 65 .lockout (some l))])))
    (quiet : s.locksQuietly) (hl : lines.length = 8) (hp : sense.length = 8) (marked : (({ s with lines := lines } : State).line l).mismatch = true)
    (few : m ≤ 10) :
    ∃ u : State, finish v = .next u.arbitrate ∧
      ({ s with pins := { s.pins with sense := sense } } : State).lockedOut u (s.outputFault 65 .lockout (some l)) false ∧
      (u.line l).mismatch = true := by
  obtain ⟨one, walks⟩ := s.lineInputs_walk l
  obtain ⟨u, run, locked, -, -, mismatch⟩ := finish_lockoutFault lead walks rfl (locksQuietly_lined quiet hl hp) (by omega)
  have scene : SameScene { s with pins := { s.pins with sense := sense } } { s with lines := lines, pins := { s.pins with sense := sense } } :=
    ⟨rfl, rfl, rfl, rfl, rfl, rfl, rfl, rfl, rfl, rfl, rfl⟩
  exact ⟨u, run, scene.lockedOut locked, (mismatch l).trans marked⟩

end Sys2Proof.Machine

section
open Sys2Proof Sys2Proof.Machine

/-- Settles O36: on a line of role 0, 1 or 2 the mismatch locks out; on another line it is noted. -/
theorem lineMismatchNoted : Obligations.LineMismatchNoted := by
  unfold Obligations.LineMismatchNoted
  refine ⟨fun l s hl quiet clear safety => ?_, fun l s hl hn hs hu unlocked out other clear safe => ?_⟩
  · obtain ⟨-, -, hn, hs, -⟩ := id quiet
    obtain ⟨lines, pins⟩ := State.sized_lines hs
    have lockout : (if s.tables.safetyLine l then FaultClass.lockout else .notice) = .lockout := if_pos ((safetyLine_iff _ l).2 safety)
    have length (x : LineRun) : (s.lines.set l x).length = 8 := List.length_set.trans lines
    have marked (x : LineRun) (hx : x.mismatch = true) : ((s.setLine l x).line l).mismatch = true := by
      rw [State.line_setLine (s := s) (by omega) x]
      exact hx
    refine ⟨fun out other => ?_, fun on changes settled other => ?_⟩
    · have lead := settleExpired_leads (by omega) hn out other clear
      rw [lockout] at lead
      exact finish_lineLockout lead quiet (length _) pins (marked _ rfl) (by omega)
    · have lead := senseChanged_leads (on := on) (by omega) hn changes settled other clear
      rw [lockout] at lead
      rw [show exec (.senseChange l on) s = finish (senseChanged l on (Work.idle s)) from if_pos hl]
      exact finish_lineLockout lead quiet (length _) (List.length_set.trans pins) (marked _ rfl) (by omega)
  · obtain ⟨lines, pins⟩ := State.sized_lines hs
    obtain ⟨one, walks⟩ := s.lineInputs_walk l
    have notices : s.gate.notices.length = 7 := by obtain ⟨-, -, -, -, -, -, -, -, -, notices, -⟩ := hs; exact notices
    have notice : (if s.tables.safetyLine l then FaultClass.lockout else .notice) = .notice :=
      if_neg fun k => by
        obtain ⟨r, hr, target⟩ := (safetyLine_iff _ l).1 k
        exact safe r hr target
    have lead := settleExpired_leads (by omega) hn out other clear
    rw [notice] at lead
    obtain ⟨u, run, noted⟩ := finish_noticeFault lead (fun i h => (walks i h).not_hold) rfl unlocked hn hu notices (by omega)
    refine ⟨u, run, ?_⟩
    obtain ⟨frame, flag⟩ := noted
    have traced := State.traced_of_eq (s := s)
      (t := s.setLine l { commanded := (s.line l).commanded, settle := none, mismatch := true }) rfl rfl (.fault 65)
    generalize u.conds = c at frame
    generalize u.gate.notices = n at frame
    have line (k : Nat) : u.line k = (s.setLine l { commanded := (s.line l).commanded, settle := none, mismatch := true }).line k := by
      rw [frame]
      rfl
    refine ⟨(line l).trans (State.line_setLine (by omega) _), by rw [frame]; rfl, by rw [frame]; rfl, flag, ?_, by rw [frame]; rfl,
      by rw [frame]; rfl, by rw [frame]; rfl, by rw [frame]; rfl, by rw [frame]; rfl, fun k hk => (line k).trans ?_⟩
    · rw [frame]
      exact traced
    · exact (getD_set _ _ _ _ _).trans (if_neg fun ⟨h, _⟩ => hk h.symm)

end
end

section
/-! SUPPORT. What the two arbiters choose for a port that holds nothing (R136, R137) and the notices' contents (R135): O10. -/

namespace Sys2Proof.Machine

/-! ### The field port (R136) -/

/-- Whether slot `r` has a value that waits to be sent. -/
def State.slotWaits (s : State) (r : Nat) : Bool :=
  match s.slot r with
  | some x => x.pending && x.last.isSome
  | none => false

theorem State.pendingSlot_eq (s : State) : s.pendingSlot = (List.range 12).find? s.slotWaits := rfl

theorem State.slotWaits_iff (s : State) (r : Nat) :
    s.slotWaits r = true ↔ ∃ x v, s.slot r = some x ∧ x.pending = true ∧ x.last = some v := by
  unfold State.slotWaits
  cases hx : s.slot r with
  | none => simp
  | some x => simp [Option.isSome_iff_exists]

theorem State.slotWaits_eq_false (s : State) (r : Nat) :
    s.slotWaits r = false ↔ ∀ y, s.slot r = some y → y.pending = false ∨ y.last = none := by
  unfold State.slotWaits
  cases hx : s.slot r with
  | none => simp
  | some x => cases hp : x.pending <;> simp [hp]

theorem State.pendingSlot_eq_some (s : State) (r : Nat) :
    s.pendingSlot = some r ↔ s.slotWaits r = true ∧ r < 12 ∧ ∀ q, q < r → s.slotWaits q = false := by
  rw [State.pendingSlot_eq, List.find?_range_eq_some]
  simp [List.mem_range]

theorem State.pendingSlot_eq_none (s : State) : s.pendingSlot = none ↔ ∀ q, q < 12 → s.slotWaits q = false := by
  rw [State.pendingSlot_eq, List.find?_range_eq_none]
  simp

/-- The first arbiter's part of the choice. -/
def State.fieldChosen (s : State) : State := if s.fieldPort.hand.isSome then s else s.chooseField

/-- The second arbiter's part of the choice. -/
def State.controlChosen (s : State) : State := if s.ctlPort.hand.isSome then s else s.chooseControl

theorem State.arbitrate_eq (s : State) : s.arbitrate = s.fieldChosen.controlChosen := rfl

/-- What the field port may find: it holds a frame already, the lowest slot that waits, the head of the queue, or nothing. -/
inductive FieldChoice (s : State) : State → Prop
  | busy (h : s.fieldPort.hand.isSome = true) : FieldChoice s s
  | slot (r : Nat) (x : Slot) (v : Nat) (free : s.fieldPort.hand = none) (lowest : s.pendingSlot = some r) (hx : s.slot r = some x)
      (hv : x.last = some v) : FieldChoice s { s with
        gate := { s.gate with slots := s.gate.slots.set r (some { x with newer := false }) }
        fieldPort := { s.fieldPort with hand := some { frame := substitutionFrame x v, tag := .substitution r } } }
  | queue (f : Frame) (rest : List Frame) (free : s.fieldPort.hand = none) (quiet : s.pendingSlot = none)
      (hd : s.gate.down = f :: rest) : FieldChoice s { s with
        gate := { s.gate with down := rest }
        fieldPort := { s.fieldPort with hand := some { frame := f, tag := .forwarded } } }
  | idle (free : s.fieldPort.hand = none) (quiet : s.pendingSlot = none) (hd : s.gate.down = []) : FieldChoice s s

theorem State.fieldChoice (s : State) : FieldChoice s s.fieldChosen := by
  unfold State.fieldChosen
  cases hand : s.fieldPort.hand with
  | some h => exact .busy (by rw [hand]; rfl)
  | none =>
    rw [if_neg (by simp), State.chooseField]
    cases slot : s.pendingSlot with
    | none =>
      cases down : s.gate.down with
      | nil => exact .idle hand slot down
      | cons f rest => exact .queue f rest hand slot down
    | some r =>
      obtain ⟨waits, -, -⟩ := (s.pendingSlot_eq_some r).1 slot
      obtain ⟨x, v, hx, -, hv⟩ := (s.slotWaits_iff r).1 waits
      have e : s.takeSlot r = { s with
          gate := { s.gate with slots := s.gate.slots.set r (some { x with newer := false }) }
          fieldPort := { s.fieldPort with hand := some { frame := substitutionFrame x v, tag := .substitution r } } } := by
        unfold State.takeSlot
        rw [hx]
        dsimp only
        rw [hv]
        rfl
      dsimp only
      rw [e]
      exact .slot r x v hand slot hx hv

/-- What the field arbiter does to what it serves. -/
structure FieldServed (s t : State) : Prop where
  frame : t = { s with
    gate := { s.gate with down := t.gate.down, slots := t.gate.slots }
    fieldPort := { s.fieldPort with hand := t.fieldPort.hand } }
  slot : ∀ r, t.slot r = s.slot r ∨
    (s.fieldPort.hand = none ∧ t.fieldPort.hand.map InHand.tag = some (.substitution r) ∧
      t.slot r = (s.slot r).map fun x => { x with newer := false })
  down : t.gate.down = s.gate.down ∨ t.fieldPort.hand.map InHand.tag = some .forwarded
  busy : s.fieldPort.hand.isSome = true → t.fieldPort = s.fieldPort ∧ t.gate.down = s.gate.down ∧ t.gate.slots = s.gate.slots
  lowest : s.fieldPort.hand = none → ∀ r x v, r < 12 → s.slot r = some x → x.pending = true → x.last = some v →
    (∀ q y, q < r → s.slot q = some y → y.pending = false ∨ y.last = none) →
    t.fieldPort.hand = some { frame := substitutionFrame x v, tag := .substitution r } ∧
      t.slot r = some { x with newer := false } ∧ t.gate.down = s.gate.down
  queue : s.fieldPort.hand = none → (∀ q y, q < 12 → s.slot q = some y → y.pending = false ∨ y.last = none) →
    (∀ f rest, s.gate.down = f :: rest →
      t.fieldPort.hand = some { frame := f, tag := .forwarded } ∧ t.gate.down = rest) ∧
    (s.gate.down = [] → t.fieldPort = s.fieldPort ∧ t.gate.down = [])

theorem State.slot_set {s : State} {r : Nat} {x : Slot} (hx : s.slot r = some x) (y : Option Slot) (q : Nat) :
    (s.gate.slots.set r y).getD q none = if r = q then y else s.slot q := by
  have short : r < s.gate.slots.length := by
    refine Classical.byContradiction fun k => ?_
    have : s.slot r = none := by rw [State.slot, List.getD, List.getElem?_eq_none (by omega)]; rfl
    rw [this] at hx
    cases hx
  rw [getD_set]
  by_cases h : r = q
  · rw [if_pos h, if_pos ⟨h, by omega⟩]
  · rw [if_neg h, if_neg fun k => h k.1]
    rfl

theorem State.pendingSlot_of_lowest {s : State} {r : Nat} {x : Slot} {v : Nat} (hr : r < 12) (hx : s.slot r = some x)
    (hp : x.pending = true) (hv : x.last = some v) (below : ∀ q y, q < r → s.slot q = some y → y.pending = false ∨ y.last = none) :
    s.pendingSlot = some r :=
  (s.pendingSlot_eq_some r).2 ⟨(s.slotWaits_iff r).2 ⟨x, v, hx, hp, hv⟩, hr, fun q hq =>
    (s.slotWaits_eq_false q).2 fun y hy => below q y hq hy⟩

theorem State.pendingSlot_of_quiet {s : State} (h : ∀ q y, q < 12 → s.slot q = some y → y.pending = false ∨ y.last = none) :
    s.pendingSlot = none :=
  s.pendingSlot_eq_none.2 fun q hq => (s.slotWaits_eq_false q).2 fun y hy => h q y hq hy

theorem FieldChoice.served {s t : State} (h : FieldChoice s t) : FieldServed s t := by
  cases h with
  | busy h =>
    have full (k : s.fieldPort.hand = none) : False := by rw [k] at h; cases h
    exact ⟨rfl, fun r => .inl rfl, .inl rfl, fun _ => ⟨rfl, rfl, rfl⟩, fun k => (full k).elim, fun k => (full k).elim⟩
  | slot r x v free first hx hv =>
    refine ⟨rfl, fun q => ?_, .inl rfl, fun k => ?_, fun _ q y v' hq hy hp hv' below => ?_, fun _ quiet => ?_⟩
    · by_cases h : r = q
      · subst h
        exact .inr ⟨free, rfl, (State.slot_set hx _ _).trans (by rw [if_pos rfl, hx]; rfl)⟩
      · exact .inl ((State.slot_set hx _ _).trans (if_neg h))
    · rw [free] at k
      cases k
    · have e := State.pendingSlot_of_lowest hq hy hp hv' below
      rw [first] at e
      cases e
      rw [hx] at hy
      cases hy
      rw [hv] at hv'
      cases hv'
      exact ⟨rfl, (State.slot_set hx _ _).trans (if_pos rfl), rfl⟩
    · rw [State.pendingSlot_of_quiet quiet] at first
      cases first
  | queue f rest free quiet hd =>
    refine ⟨rfl, fun q => .inl rfl, .inr rfl, fun k => ?_, fun _ q y v' hq hy hp hv' below => ?_, fun _ _ => ⟨fun f' rest' h => ?_, fun h => ?_⟩⟩
    · rw [free] at k
      cases k
    · rw [State.pendingSlot_of_lowest hq hy hp hv' below] at quiet
      cases quiet
    · rw [hd] at h
      cases h
      exact ⟨rfl, rfl⟩
    · rw [hd] at h
      cases h
  | idle free quiet hd =>
    refine ⟨rfl, fun q => .inl rfl, .inl rfl, fun _ => ⟨rfl, rfl, rfl⟩, fun _ q y v' hq hy hp hv' below => ?_,
      fun _ _ => ⟨fun f' rest' h => ?_, fun h => ⟨rfl, h⟩⟩⟩
    · rw [State.pendingSlot_of_lowest hq hy hp hv' below] at quiet
      cases quiet
    · rw [hd] at h
      cases h

/-! ### The control port (R137) -/

/-- The state with the notice of kind `k` in hand. -/
def State.tookNotice (s : State) (k : NoticeKind) : State :=
  { s with
    gate := { s.gate with notices := s.gate.notices.set (codeOf NoticeKind.all k) { s.notice k with newer := false } }
    ctlPort := { s.ctlPort with hand := some { frame := s.noticeFrame k, tag := .notice k } } }

theorem State.takeNotice_eq (s : State) (k : NoticeKind) : s.takeNotice k = s.tookNotice k := rfl

/-- What the control port may find: it holds a frame already, a reply, an urgent notice, the head of the queue, another notice,
or nothing. -/
inductive ControlChoice (s : State) : State → Prop
  | busy (h : s.ctlPort.hand.isSome = true) : ControlChoice s s
  | reply (f : Frame) (rest : List Frame) (free : s.ctlPort.hand = none) (hr : s.gate.reply = f :: rest) : ControlChoice s { s with
        gate := { s.gate with reply := rest }
        ctlPort := { s.ctlPort with hand := some { frame := f, tag := .reply } } }
  | urgent (k : NoticeKind) (free : s.ctlPort.hand = none) (hr : s.gate.reply = []) (hk : s.flagged [.lockout, .fault] = some k) :
      ControlChoice s (s.tookNotice k)
  | queue (f : Frame) (rest : List Frame) (free : s.ctlPort.hand = none) (hr : s.gate.reply = [])
      (calm : s.flagged [.lockout, .fault] = none) (hu : s.gate.up = f :: rest) : ControlChoice s { s with
        gate := { s.gate with up := rest }
        ctlPort := { s.ctlPort with hand := some { frame := f, tag := .forwarded } } }
  | notice (k : NoticeKind) (free : s.ctlPort.hand = none) (hr : s.gate.reply = []) (calm : s.flagged [.lockout, .fault] = none)
      (hu : s.gate.up = []) (hk : s.flagged [.frost, .chain, .drive, .trace, .unlock] = some k) : ControlChoice s (s.tookNotice k)
  | idle (free : s.ctlPort.hand = none) (hr : s.gate.reply = []) (calm : s.flagged [.lockout, .fault] = none) (hu : s.gate.up = [])
      (hk : s.flagged [.frost, .chain, .drive, .trace, .unlock] = none) : ControlChoice s s

theorem State.controlChoice (s : State) : ControlChoice s s.controlChosen := by
  unfold State.controlChosen
  cases hand : s.ctlPort.hand with
  | some h => exact .busy (by rw [hand]; rfl)
  | none =>
    rw [if_neg (by simp), State.chooseControl]
    cases reply : s.gate.reply with
    | cons f rest => exact .reply f rest hand reply
    | nil =>
      cases urgent : s.flagged [.lockout, .fault] with
      | some k => exact .urgent k hand reply urgent
      | none =>
        dsimp only
        rw [State.chooseUp]
        cases up : s.gate.up with
        | cons f rest => exact .queue f rest hand reply urgent up
        | nil =>
          cases other : s.flagged [.frost, .chain, .drive, .trace, .unlock] with
          | some k => exact .notice k hand reply urgent up other
          | none => exact .idle hand reply urgent up other

/-- What the control arbiter does to what it serves. -/
structure ControlServed (s t : State) : Prop where
  frame : t = { s with
    gate := { s.gate with up := t.gate.up, reply := t.gate.reply, notices := t.gate.notices }
    ctlPort := { s.ctlPort with hand := t.ctlPort.hand } }
  notice : ∀ k, t.notice k = s.notice k ∨
    (s.ctlPort.hand = none ∧ t.ctlPort.hand.map InHand.tag = some (.notice k) ∧ t.notice k = { s.notice k with newer := false })
  up : t.gate.up = s.gate.up ∨ t.ctlPort.hand.map InHand.tag = some .forwarded
  reply : t.gate.reply = s.gate.reply ∨ t.ctlPort.hand.map InHand.tag = some .reply
  busy : s.ctlPort.hand.isSome = true → t.ctlPort = s.ctlPort ∧ t.gate.up = s.gate.up ∧ t.gate.reply = s.gate.reply ∧
    t.gate.notices = s.gate.notices
  replies : s.ctlPort.hand = none → ∀ f rest, s.gate.reply = f :: rest →
    t.ctlPort.hand = some { frame := f, tag := .reply } ∧ t.gate.reply = rest ∧ t.gate.up = s.gate.up
  urgent : s.ctlPort.hand = none → s.gate.reply = [] → ∀ k, s.flagged [.lockout, .fault] = some k →
    t.ctlPort.hand = some { frame := s.noticeFrame k, tag := .notice k }
  queue : s.ctlPort.hand = none → s.gate.reply = [] → s.flagged [.lockout, .fault] = none → ∀ f rest, s.gate.up = f :: rest →
    t.ctlPort.hand = some { frame := f, tag := .forwarded } ∧ t.gate.up = rest
  notices : s.ctlPort.hand = none → s.gate.reply = [] → s.flagged [.lockout, .fault] = none → s.gate.up = [] →
    t.ctlPort.hand = (s.flagged [.frost, .chain, .drive, .trace, .unlock]).map
      fun k => { frame := s.noticeFrame k, tag := .notice k }

theorem NoticeKind.code_inj {j k : NoticeKind} (h : codeOf NoticeKind.all j = codeOf NoticeKind.all k) : j = k := by
  have listed (k : NoticeKind) : k ∈ NoticeKind.all := by cases k <;> decide
  have distinct : ∀ j ∈ NoticeKind.all, ∀ k ∈ NoticeKind.all, codeOf NoticeKind.all j = codeOf NoticeKind.all k → j = k := by decide
  exact distinct j (listed j) k (listed k) h

theorem State.tookNotice_notice (s : State) (j k : NoticeKind) : (s.tookNotice j).notice k = s.notice k ∨
    (j = k ∧ (s.tookNotice j).notice k = { s.notice k with newer := false }) := by
  have e : (s.tookNotice j).notice k =
      (s.gate.notices.set (codeOf NoticeKind.all j) { s.notice j with newer := false }).getD (codeOf NoticeKind.all k) Notice.none := rfl
  rw [e, getD_set]
  split
  · next h =>
    obtain ⟨code, -⟩ := h
    cases NoticeKind.code_inj code
    exact .inr ⟨rfl, rfl⟩
  · exact .inl rfl

/-- A chosen notice leaves the queues and every other notice. -/
theorem State.tookNotice_kept (s : State) (k : NoticeKind) (free : s.ctlPort.hand = none) :
    (∀ j, (s.tookNotice k).notice j = s.notice j ∨ (s.ctlPort.hand = none ∧
      (s.tookNotice k).ctlPort.hand.map InHand.tag = some (.notice j) ∧ (s.tookNotice k).notice j = { s.notice j with newer := false })) := by
  intro j
  rcases s.tookNotice_notice k j with same | ⟨rfl, cleared⟩
  · exact .inl same
  · exact .inr ⟨free, rfl, cleared⟩

theorem ControlChoice.served {s t : State} (h : ControlChoice s t) : ControlServed s t := by
  cases h with
  | busy h =>
    have full (k : s.ctlPort.hand = none) : False := by rw [k] at h; cases h
    exact ⟨rfl, fun k => .inl rfl, .inl rfl, .inl rfl, fun _ => ⟨rfl, rfl, rfl, rfl⟩, fun k => (full k).elim, fun k => (full k).elim,
      fun k => (full k).elim, fun k => (full k).elim⟩
  | reply f rest free hr =>
    refine ⟨rfl, fun k => .inl rfl, .inl rfl, .inr rfl, fun k => ?_, fun _ f' rest' h => ?_, fun _ h => ?_, fun _ h => ?_, fun _ h => ?_⟩
    · rw [free] at k
      cases k
    · rw [hr] at h
      cases h
      exact ⟨rfl, rfl, rfl⟩
    all_goals
      rw [hr] at h
      cases h
  | urgent k free hr hk =>
    refine ⟨rfl, s.tookNotice_kept k free, .inl rfl, .inl rfl, fun k => ?_, fun _ f' rest' h => ?_, fun _ _ j h => ?_,
      fun _ _ h => ?_, fun _ _ h => ?_⟩
    · rw [free] at k
      cases k
    · rw [hr] at h
      cases h
    · rw [hk] at h
      cases h
      rfl
    all_goals
      rw [hk] at h
      cases h
  | queue f rest free hr calm hu =>
    refine ⟨rfl, fun k => .inl rfl, .inr rfl, .inl rfl, fun k => ?_, fun _ f' rest' h => ?_, fun _ _ j h => ?_,
      fun _ _ _ f' rest' h => ?_, fun _ _ _ h => ?_⟩
    · rw [free] at k
      cases k
    · rw [hr] at h
      cases h
    · rw [calm] at h
      cases h
    · rw [hu] at h
      cases h
      exact ⟨rfl, rfl⟩
    · rw [hu] at h
      cases h
  | notice k free hr calm hu hk =>
    refine ⟨rfl, s.tookNotice_kept k free, .inl rfl, .inl rfl, fun k => ?_, fun _ f' rest' h => ?_, fun _ _ j h => ?_,
      fun _ _ _ f' rest' h => ?_, fun _ _ _ _ => ?_⟩
    · rw [free] at k
      cases k
    · rw [hr] at h
      cases h
    · rw [calm] at h
      cases h
    · rw [hu] at h
      cases h
    · rw [hk]
      rfl
  | idle free hr calm hu hk =>
    refine ⟨rfl, fun k => .inl rfl, .inl rfl, .inl rfl, fun _ => ⟨rfl, rfl, rfl, rfl⟩, fun _ f' rest' h => ?_, fun _ _ j h => ?_,
      fun _ _ _ f' rest' h => ?_, fun _ _ _ _ => ?_⟩
    · rw [hr] at h
      cases h
    · rw [calm] at h
      cases h
    · rw [hu] at h
      cases h
    · rw [hk]
      exact free

theorem State.arbitrate_role (s : State) (r : Nat) : s.arbitrate.role r = s.role r := by
  have field := s.fieldChoice.served.frame
  have control := s.fieldChosen.controlChoice.served.frame
  rw [State.arbitrate_eq, State.role, control, State.role]
  dsimp only
  rw [field]

/-- What the arbiters leave of the state: all but what they serve. -/
theorem State.arbitrate_frame (s : State) : s.arbitrate = { s with
    gate := { s.gate with
      up := s.arbitrate.gate.up, down := s.arbitrate.gate.down, reply := s.arbitrate.gate.reply
      slots := s.arbitrate.gate.slots, notices := s.arbitrate.gate.notices }
    ctlPort := { s.ctlPort with hand := s.arbitrate.ctlPort.hand }
    fieldPort := { s.fieldPort with hand := s.arbitrate.fieldPort.hand } } := by
  have field := s.fieldChoice.served.frame
  have control := s.fieldChosen.controlChoice.served.frame
  rw [State.arbitrate_eq]
  generalize s.fieldChosen = m at field control
  generalize m.controlChosen = t at control
  generalize m.gate.down = d at field
  generalize m.gate.slots = sl at field
  generalize m.fieldPort.hand = h at field
  generalize t.gate.up = u at control
  generalize t.gate.reply = r at control
  generalize t.gate.notices = n at control
  generalize t.ctlPort.hand = c at control
  subst control
  subst field
  rfl

/-- What the control arbiter finds is what stood before the field arbiter chose. -/
theorem FieldServed.untouched {s m : State} (h : FieldServed s m) : m.ctlPort = s.ctlPort ∧ m.gate.up = s.gate.up ∧
    m.gate.reply = s.gate.reply ∧ m.gate.notices = s.gate.notices ∧ (∀ k, m.notice k = s.notice k) ∧
    (∀ k, m.noticeFrame k = s.noticeFrame k) ∧ ∀ ks, m.flagged ks = s.flagged ks := by
  obtain ⟨frame, -⟩ := h
  generalize m.gate.down = d at frame
  generalize m.gate.slots = sl at frame
  generalize m.fieldPort.hand = h at frame
  subst frame
  exact ⟨rfl, rfl, rfl, rfl, fun k => rfl, fun k => by cases k <;> rfl, fun ks => rfl⟩

/-- What the field arbiter chose stands when the control arbiter has chosen. -/
theorem ControlServed.untouched {m t : State} (h : ControlServed m t) : t.fieldPort = m.fieldPort ∧ t.gate.down = m.gate.down ∧
    t.gate.slots = m.gate.slots ∧ ∀ r, t.slot r = m.slot r := by
  obtain ⟨frame, -⟩ := h
  generalize t.gate.up = u at frame
  generalize t.gate.reply = r at frame
  generalize t.gate.notices = n at frame
  generalize t.ctlPort.hand = c at frame
  subst frame
  exact ⟨rfl, rfl, rfl, fun r => rfl⟩

theorem State.flagged_urgent_lockout {s : State} (h : (s.notice .lockout).flag = true) :
    s.flagged [.lockout, .fault] = some .lockout := by
  simp [State.flagged, h]

theorem State.flagged_urgent_fault {s : State} (hl : (s.notice .lockout).flag = false) (hf : (s.notice .fault).flag = true) :
    s.flagged [.lockout, .fault] = some .fault := by
  simp [State.flagged, hl, hf]

theorem State.flagged_urgent_none {s : State} (hl : (s.notice .lockout).flag = false) (hf : (s.notice .fault).flag = false) :
    s.flagged [.lockout, .fault] = none := by
  simp [State.flagged, hl, hf]

/-! ### The notices' contents (R135, Table 45) -/

theorem circuitNibble_eq (inUse : Bool) (c : CircuitRun) : circuitNibble inUse c =
    codeOf Stage.all c.stage + (if c.blocked = true then 4 else 0) + (if inUse = true then 8 else 0) := by
  unfold circuitNibble bit
  cases c.blocked <;> cases inUse <;> rfl

theorem frostContent_eq (s : State) (n : Nat) : s.frostContent n =
    [u8 n, u8 (circuitNibble (s.tables.circuit 0).inUse (s.circuit 0) * 16 + circuitNibble (s.tables.circuit 1).inUse (s.circuit 1)),
      u8 (circuitNibble (s.tables.circuit 2).inUse (s.circuit 2) * 16 + circuitNibble (s.tables.circuit 3).inUse (s.circuit 3)),
      u8 (circuitNibble (s.tables.circuit 4).inUse (s.circuit 4) * 16 + circuitNibble (s.tables.circuit 5).inUse (s.circuit 5))] ++
      u24 (s.circuit 0).debt ++ u24 (s.circuit 1).debt ++ u24 (s.circuit 2).debt ++ u24 (s.circuit 3).debt ++ u24 (s.circuit 4).debt ++
      u24 (s.circuit 5).debt := rfl

/-- Four members fill the notice; a shorter chain is padded with NONE. -/
theorem members_padded (f : Nat → Byte) {chain : List Nat} (h : chain.length ≤ 4)
    {member : Nat → List Byte} (some' : ∀ i q, chain[i]? = some q → member i = [u8 q, f q])
    (none' : ∀ i, chain[i]? = none → member i = [255#8, 255#8]) :
    padTo 8 255 (chain.map fun q => [u8 q, f q]).flatten = member 0 ++ member 1 ++ member 2 ++ member 3 := by
  match chain, h with
  | [], _ =>
    rw [none' 0 rfl, none' 1 rfl, none' 2 rfl, none' 3 rfl]
    rfl
  | [a], _ =>
    rw [some' 0 a rfl, none' 1 rfl, none' 2 rfl, none' 3 rfl]
    rfl
  | [a, b], _ =>
    rw [some' 0 a rfl, some' 1 b rfl, none' 2 rfl, none' 3 rfl]
    rfl
  | [a, b, c], _ =>
    rw [some' 0 a rfl, some' 1 b rfl, some' 2 c rfl, none' 3 rfl]
    rfl
  | [a, b, c, d], _ =>
    rw [some' 0 a rfl, some' 1 b rfl, some' 2 c rfl, some' 3 d rfl]
    rfl
  | _ :: _ :: _ :: _ :: _ :: _, h => exact absurd h (by simp only [List.length_cons]; omega)

end Sys2Proof.Machine

section
open Sys2Proof Sys2Proof.Machine

/-- Settles O10: what each port finds, and what each notice carries. -/
theorem arbitersChoose : Obligations.ArbitersChoose := by
  unfold Obligations.ArbitersChoose
  refine ⟨fun s => ?_, fun x v => rfl, fun s => ?_, fun s n cause kind node role seq setting r hl => ?_, by decide, by decide⟩
  · have field := s.fieldChoice.served
    have control := s.fieldChosen.controlChoice.served
    have frame := s.arbitrate_frame
    rw [State.arbitrate_eq] at frame ⊢
    generalize s.fieldChosen = m at field control frame
    generalize m.controlChosen = t at control frame
    obtain ⟨ctl, ups, replies, notices, notice, noticeFrame, flagged⟩ := field.untouched
    obtain ⟨port, down, slots, slot⟩ := control.untouched
    obtain ⟨-, fslot, fdown, fbusy, flowest, fqueue⟩ := field
    obtain ⟨-, cnotice, cup, creply, cbusy, creplies, curgent, cqueue, cnotices⟩ := control
    rw [← port] at fdown fbusy
    simp only [← port, ← slot] at fslot flowest fqueue
    simp only [← down] at fdown fbusy flowest fqueue
    rw [← slots] at fbusy
    simp only [ctl, ups, replies, notices, notice, noticeFrame, flagged] at cnotice cup creply cbusy creplies curgent cqueue cnotices
    refine ⟨frame, fslot, cnotice, fdown, cup, creply, fbusy, cbusy, fun free => ⟨flowest free, fqueue free⟩, fun free => ⟨creplies free,
      fun empty => ⟨fun lockout => ?_, fun lockout fault => ?_, fun lockout fault => ?_⟩⟩⟩
    · exact curgent free empty _ (State.flagged_urgent_lockout lockout)
    · exact curgent free empty _ (State.flagged_urgent_fault lockout fault)
    · have calm := State.flagged_urgent_none lockout fault
      exact ⟨cqueue free empty calm, cnotices free empty calm⟩
  · refine ⟨?_, rfl, rfl, rfl, rfl, rfl, rfl⟩
    have content : s.lockoutContent = [flagByte [s.fault.data.locked]] ++ u16 s.fault.data.number ++ [u8 s.fault.data.allowance] ++
        optHistoryBytes s.fault.data.history.head? := rfl
    unfold State.noticeFrame State.noticeContent
    dsimp only
    rw [content]
    cases s.fault.data.history <;> rfl
  · intro raised half member
    have of_some (i q : Nat) (h : s.seq.chain[i]? = some q) : member i = [u8 q, indexByte (s.memberStep q)] := by simp only [member, h]
    have of_none (i : Nat) (h : s.seq.chain[i]? = none) : member i = [255#8, 255#8] := by simp only [member, h]
    refine ⟨notice_raiseNotice _ _ _ hl, ?_, fun short => ?_, ⟨rfl, ?_⟩, notice_raiseNotice _ _ _ hl, rfl⟩
    · refine (notice_raiseNotice s .frost (s.frostContent n) hl).trans ?_
      simp only [frostContent_eq, circuitNibble_eq, raised, half]
    · refine (notice_raiseNotice s .chain (s.chainContent cause kind seq) hl).trans ?_
      rw [State.chainContent]
      have padded := members_padded (fun q => indexByte (s.memberStep q)) short of_some of_none
      rw [show (s.seq.chain.map s.memberBytes) = s.seq.chain.map fun q => [u8 q, indexByte (s.memberStep q)] from rfl, padded]
      simp only [raised, List.append_assoc]
    · refine (notice_raiseNotice _ .drive (driveContent n node setting role (min (s.gate.driveCount + 1) 255)) (by exact hl)).trans ?_
      cases setting <;> rfl

end
end

section
/-! SUPPORT. The LIMIT input on a state whose claims and applied values disagree: O37. -/

namespace Sys2Proof.Machine

/-! ### A role whose applied value is not the one its claims decide -/

/-- A HEAT sequence and the lockout purge, over one step that commands every role OFF. -/
def bareTables : Tables :=
  { Tables.initial with
    steps := Tables.initial.steps.set 0 { StepEntry.initial with call := none }
    seqs := (Tables.initial.seqs.set 0 { SeqEntry.initial with cls := .heat, inUse := true }).set 1
      { SeqEntry.initial with cls := .lockoutPurge, inUse := true }
    device := { Tables.initial.device with startSeq := 0, lockoutSeq := 1 } }

/-- Role 0 holds every claim that an opening of the LIMIT input could place on it, and is ON all the same. -/
def strayFuel : State :=
  (State.reset.activated bareTables).setRole 0
    { RoleRun.reset with limit := some 0, lockout := some 0, sequence := some 0, applied := 1000 }

theorem strayFuel_locksQuietly : strayFuel.locksQuietly := by decide +kernel

/-- The applied value of role 0 in the state that an instruction leads to. -/
def fuelAfter (o : Host.Outcome State Fault Refusal) : Option Nat :=
  match o with
  | .next u => some (u.role 0).applied
  | _ => none

/-- No claim of role 0 changes, and so its applied value stands. -/
theorem strayFuel_stays_on : fuelAfter (exec .limitOpening strayFuel) = some 1000 := by decide +kernel

end Sys2Proof.Machine

section
open Sys2Proof Sys2Proof.Machine

/-- Refutes O37: where a part locks out, the statement asks of any state that the fuel roles end OFF and owned by LIMIT, and
does not ask that their values were the ones their claims decide. A role that holds the claims already keeps a stray value. -/
theorem not_limitMoves : ¬ Obligations.LimitMoves := by
  intro h
  obtain ⟨-, -, -, locks, -⟩ := h strayFuel
  obtain ⟨u, run, -, -, off⟩ := locks (by decide +kernel) strayFuel_locksQuietly (.inl ⟨0, by decide, by decide +kernel⟩)
  obtain ⟨applied, -⟩ := off 0 (by decide)
  have stays := strayFuel_stays_on
  rw [run, fuelAfter, State.arbitrate_role, applied] at stays
  exact absurd stays (by decide)

end
end

section
/-! SUPPORT. What a port hears next (R160 to R162): no cascade makes a port that waits for a quiet interval listen again: O8. -/

namespace Sys2Proof.Machine

/-! ### Nothing but a quiet interval, a lost contention or a LINKRESET makes a port listen -/

/-- The port waits for the next quiet interval. -/
def State.deaf (p : Port) (s : State) : Prop := (s.port p).hearing = .waiting

theorem Move.deaf {p : Port} {s t : State} (m : Move s t) (h : s.deaf p) : t.deaf p := by
  cases m with
  | enter n => rw [State.joined_eq, State.left_eq]; cases p <;> exact h
  | call n => rw [State.joined_eq]; cases p <;> exact h
  | leave => rw [State.left_eq]; cases p <;> exact h
  | clear => rw [State.cleared_eq]; cases p <;> exact h
  | claims carried r x => rw [State.changedRole_eq]; cases p <;> exact h
  | port q x keeps =>
    cases p <;> cases q
    · exact keeps h
    · exact h
    · exact h
    · exact keeps h
  | _ => cases p <;> exact h

theorem Moves.deaf {p : Port} {s t : State} (m : Moves s t) (h : s.deaf p) : t.deaf p := m.keeps Move.deaf h

theorem State.receives_iff (s : State) (p : Port) :
    s.receives p = true ↔ s.phase ≠ .off ∧ (s.port p).sending = false ∧ (s.port p).hearing ≠ .waiting := by
  simp [State.receives, State.powered, and_assoc]

theorem State.deaf.receives {s : State} {p : Port} (h : s.deaf p) : s.receives p = false := by
  cases k : s.receives p with
  | false => rfl
  | true =>
    obtain ⟨-, -, hears⟩ := (s.receives_iff p).1 k
    exact absurd h hears

theorem State.port_setPort (s : State) (p : Port) (x : PortState) : (s.setPort p x).port p = x := by cases p <;> rfl

/-! ### A frame -/

theorem receive_deaf {p : Port} {f : Frame} {gate : Frame → Work → Work} {s : State} (h : s.receives p = false) :
    finish (receive p f gate s) = .next s.arbitrate := by
  rw [receive, if_neg (by rw [h]; decide)]
  exact finish_idleState s

/-- A frame that is taken leaves its port waiting, if what the gate does with it does. -/
theorem receive_waits {p : Port} {f : Frame} {gate : Frame → Work → Work} {s t : State} (h : s.receives p = true)
    (taken : ∀ w : Work, w.st.serving = true → w.st.deaf p → (gate f w).st.deaf p) (run : finish (receive p f gate s) = .next t) :
    t.deaf p := by
  have waits : (s.hear p .waiting).deaf p := by rw [State.deaf, State.hear, State.port_setPort]
  refine (finish_moves run).deaf ?_
  rw [receive, if_pos h]
  dsimp only
  split
  · next k =>
    have serves : (s.hear p .waiting).serving = true := by
      rw [Bool.and_eq_true] at k
      exact k.2
    exact taken (Work.idle _) serves waits
  · exact waits

theorem fieldArrival_deaf (p : Port) (f : Frame) (w : Work) (h : w.st.deaf p) : (fieldArrival f w).st.deaf p :=
  (fieldArrival_moves f w).deaf h

theorem doLoad_port (k : TableKind) (i n : Nat) (fields : List Byte) (s : State) (p : Port) : (doLoad k i n fields s).1.port p = s.port p := by
  have part (a : Assembly) : (takePart s a).1.port p = s.port p := by
    unfold takePart finishLoad
    dsimp only
    repeat' split
    all_goals cases p <;> rfl
  have dropped : ({ s with assembly := none } : State).port p = s.port p := by cases p <;> rfl
  unfold doLoad
  split
  · exact part _
  · split
    · split
      · exact part _
      · exact dropped
    · exact dropped

theorem doCommit_port (s : State) (p : Port) : (doCommit s).1.port p = s.port p := by
  unfold doCommit
  split
  · rfl
  · split
    · rfl
    · cases p <;> rfl

theorem perform_deaf (p : Port) (dst : Byte) {q : Request} (hq : q.inRange) {w : Work} (hl : w.st.gate.reply.length < 4)
    (h : w.st.deaf p) : (perform dst q w).st.deaf p := by
  have answered {x : State × Result} (port : x.1.port p = w.st.port p) (hg : x.1.gate = w.st.gate) : (answerWith dst x w).st.deaf p :=
    (Work.answer_moves (w.withSt x.1) dst x.2 (by rw [Work.withSt_st, hg]; exact hl)).deaf (by
      rw [State.deaf, Work.withSt_st, port]
      exact h)
  cases q with
  | load k i n fields => exact answered (doLoad_port ..) (doLoad_gate ..)
  | discard => exact answered (by cases p <;> rfl) rfl
  | commit => exact answered (doCommit_port _ _) (doCommit_gate _)
  | _ => exact (perform_moves dst hq w hl rfl).deaf h

theorem handle_deaf (p : Port) (dst : Byte) (sub : Nat) (bytes : List Byte) {w : Work} (hl : w.st.gate.reply.length < 4)
    (h : w.st.deaf p) : (handle dst sub bytes w).st.deaf p := by
  have answered (r : Result) : (w.answer dst r).st.deaf p := (w.answer_moves dst r hl).deaf h
  unfold handle
  split
  · unfold badRequest
    split
    · exact Moves.deaf ((w.st.assembly_moves none).trans (Work.answer_moves (w.withSt _) dst _ hl)) h
    · exact answered _
  · next q hq =>
    split
    · exact answered _
    · exact perform_deaf p dst (readRequest_inRange hq) hl h

theorem controlArrival_deaf (p : Port) {f : Frame} (hf : frameKind f.kind ≠ .linkreset ∨ f.dst.toNat ≠ 0) {w : Work}
    (h : w.st.deaf p) : (controlArrival f w).st.deaf p := by
  have seen : (w.withSt (w.st.seeSource f.src)).st.deaf p := (w.st.seeSource_moves f.src).deaf h
  unfold controlArrival
  dsimp only
  split
  · unfold manageFrame
    split
    · exact seen
    · next full =>
      have room : (w.withSt (w.st.seeSource f.src)).st.gate.reply.length < 4 := Nat.not_le.1 full
      split
      · exact (Work.answer_moves _ _ _ room).deaf seen
      · exact handle_deaf p _ _ _ room seen
  · exact (controlOther_moves hf _).deaf seen

/-! ### The instructions that are frames -/

/-- The instructions that bring a frame of the control segment which is no LINKRESET, each with its frame. -/
theorem controlInstr_frame {s : State} {f : Frame} {src dst b1 b2 b3 b4 : Byte} {sub : BitVec 4} {payload : List Byte} {v : Word}
    (hf : frameKind f.kind ≠ .linkreset ∨ f.dst ≠ 0) {c : Instr}
    (hc : c ∈ [Instr.controlFrame f, .driveInterception src dst sub payload, .load src b1 b2 b3 payload,
          .read src b1 b2 b3 b4, .discard src, .commit src, .demandOn src, .demandOff src, .run src b1, .stop src,
          .setRole src b1 v, .unlock src, .status src b1, .traceRead src v b1, .traceRelease src b1]) :
    ∃ g : Frame, (frameKind g.kind ≠ .linkreset ∨ g.dst.toNat ≠ 0) ∧ exec c s = finish (receive .control g controlArrival s) := by
  have managed (sub : Nat) (p : List Byte) (h : frameKind (kindByte 4 sub) ≠ .linkreset) :
      ∃ g : Frame, (frameKind g.kind ≠ .linkreset ∨ g.dst.toNat ≠ 0) ∧
        request src sub p s = finish (receive .control g controlArrival s) := ⟨requestFrame s src sub p, .inl h, rfl⟩
  have away : frameKind f.kind ≠ .linkreset ∨ f.dst.toNat ≠ 0 :=
    hf.imp_right fun h k => h (BitVec.eq_of_toNat_eq k)
  have drive : frameKind (kindByte 3 sub.toNat) ≠ .linkreset := by
    rw [frameKind_kindByte_drive]
    decide
  simp only [List.mem_cons, List.not_mem_nil, or_false] at hc
  rcases hc with rfl | rfl | rfl | rfl | rfl | rfl | rfl | rfl | rfl | rfl | rfl | rfl | rfl | rfl | rfl
  · exact ⟨f, away, rfl⟩
  · exact ⟨_, .inl drive, rfl⟩
  all_goals exact managed _ _ (by decide)

/-- The instructions that bring a frame of the field segment. -/
theorem fieldInstr_frame {s : State} {f : Frame} {src dst : Byte} {sub : BitVec 4} {payload : List Byte} {c : Instr}
    (hc : c ∈ [Instr.fieldFrame f, .sample src dst sub payload, .state src dst sub payload]) :
    ∃ g : Frame, exec c s = finish (receive .field g fieldArrival s) := by
  simp only [List.mem_cons, List.not_mem_nil, or_false] at hc
  rcases hc with rfl | rfl | rfl
  all_goals exact ⟨_, rfl⟩

end Sys2Proof.Machine

section
open Sys2Proof Sys2Proof.Machine

/-- Settles O8: a port that does not take a frame is left as it is, and one that takes it waits. -/
theorem discardWaitsForQuiet : Obligations.DiscardWaitsForQuiet := by
  unfold Obligations.DiscardWaitsForQuiet
  intro p bytes ending s waits afresh
  have port (x : PortState) : (s.setPort p x).port p = x := s.port_setPort p x
  refine ⟨s.receives_iff p, fun takes bad => ?_, ?_, fun deaf => ?_, fun on idle => ⟨?_, ?_⟩, fun sends => ?_, fun deaf => ?_,
    fun deaf => ?_, fun takes => ?_, fun takes => ?_⟩
  · have discarded : discards bytes ending = true := by
      cases ending
      case complete => exact Option.isNone_iff_eq_none.2 (bad.resolve_left fun h => h rfl)
      all_goals rfl
    show Host.Outcome.next (s.discardFrame p bytes ending).arbitrate = _
    rw [State.discardFrame, if_pos (by rw [takes, discarded]; rfl)]
    rfl
  · exact State.deaf.receives (by rw [State.deaf, port])
  · show Host.Outcome.next (s.discardFrame p bytes ending).arbitrate = _
    rw [State.discardFrame, if_neg (by rw [deaf]; simp)]
  · show Host.Outcome.next (s.quiet p).arbitrate = _
    rw [State.quiet, if_pos (by rw [on, idle]; rfl)]
  · rw [State.receives_iff, port]
    refine ⟨?_, idle, by simp⟩
    have phase : afresh.phase = s.phase := by cases p <;> rfl
    rw [phase]
    simpa [State.powered] using on
  · show Host.Outcome.next (s.quiet p).arbitrate = _
    rw [State.quiet, if_neg (by rw [sends]; simp)]
  · intro f src dst b1 b2 b3 b4 sub payload v c hc
    have frame (f' : Frame) : finish (receive .control f' controlArrival s) = .next s.arbitrate := receive_deaf deaf
    simp only [List.mem_cons, List.not_mem_nil, or_false] at hc
    rcases hc with rfl | rfl | rfl | rfl | rfl | rfl | rfl | rfl | rfl | rfl | rfl | rfl | rfl | rfl | rfl | rfl
    all_goals exact frame _
  · intro f src dst sub payload c hc
    obtain ⟨g, run⟩ := fieldInstr_frame (s := s) hc
    exact run.trans (receive_deaf deaf)
  · intro f src dst b1 b2 b3 b4 sub payload v hf c hc t ht
    obtain ⟨g, hg, run⟩ := controlInstr_frame (s := s) hf hc
    have quiet : t.deaf .control := receive_waits takes (fun w _ h => controlArrival_deaf .control hg h) (run.symm.trans ht)
    exact ⟨quiet, quiet.receives⟩
  · intro f src dst sub payload c hc t ht
    obtain ⟨g, run⟩ := fieldInstr_frame (s := s) hc
    have quiet : t.deaf .field := receive_waits takes (fun w _ h => fieldArrival_deaf .field g w h) (run.symm.trans ht)
    exact ⟨quiet, quiet.receives⟩

end
end

section
/-! SUPPORT. The raw values of all kinds, one evaluation, and what the walk of an event evaluates (R24 to R33): O20. -/

namespace Sys2Proof.Machine

/-! ### Raw values (R24 to R30) -/

theorem goodValue_of_not_good {r : PointRun} (h : r.quality ≠ .good) : goodValue r = none := if_neg h

theorem goodValue_of_good {r : PointRun} (h : r.quality = .good) : goodValue r = r.filtered := if_pos h

theorem rawValue_above {s : State} {e : CondEntry} (h : e.kind = .above) (previous : Tri) :
    rawValue s e previous = aboveRaw (goodValue (s.point e.point)) e.threshold e.hyst previous := by rw [rawValue, h]

theorem rawValue_below {s : State} {e : CondEntry} (h : e.kind = .below) (previous : Tri) :
    rawValue s e previous = belowRaw (goodValue (s.point e.point)) e.threshold e.hyst previous := by rw [rawValue, h]

theorem rawValue_contact {s : State} {e : CondEntry} (h : e.kind = .contact) (previous : Tri) :
    rawValue s e previous = contactRaw (goodValue (s.point e.point)) e.level := by rw [rawValue, h]

theorem rawValue_role {s : State} {e : CondEntry} (h : e.kind = .roleConfirmed) (previous : Tri) :
    rawValue s e previous = roleConfirmedRaw s e.role := by rw [rawValue, h]

theorem rawValue_both {s : State} {e : CondEntry} (h : e.kind = .both) (previous : Tri) :
    rawValue s e previous = bothRaw (s.held e.a) (s.held e.b) := by rw [rawValue, h]

theorem rawValue_either {s : State} {e : CondEntry} (h : e.kind = .either) (previous : Tri) :
    rawValue s e previous = eitherRaw (s.held e.a) (s.held e.b) := by rw [rawValue, h]

theorem rawValue_rise {s : State} {e : CondEntry} (h : e.kind = .flueRise) (previous : Tri) :
    rawValue s e previous = s.flue.rise.value := by
  rw [rawValue, h]
  rfl

theorem roleConfirmed_field {s : State} {r n c : Nat} (h : (s.tables.role r).target = .field n c) :
    roleConfirmedRaw s r = fieldConfirmed (s.tables.role r) (s.role r) := by rw [roleConfirmedRaw, h]

theorem roleConfirmed_line {s : State} {r l : Nat} (h : (s.tables.role r).target = .line l) :
    roleConfirmedRaw s r = lineConfirmed (s.role r) (s.line l) (s.sense l) := by rw [roleConfirmedRaw, h]

theorem bothRaw_eq (a b : Tri) :
    bothRaw a b = if a = .no ∨ b = .no then .no else if a = .yes ∧ b = .yes then .yes else .unknown := by
  cases a <;> cases b <;> rfl

theorem eitherRaw_eq (a b : Tri) :
    eitherRaw a b = if a = .yes ∨ b = .yes then .yes else if a = .no ∧ b = .no then .no else .unknown := by
  cases a <;> cases b <;> rfl

/-! ### One evaluation (R31) -/

theorem afterEvaluation_not_yes {now : Tri} (h : now ≠ .yes) (hold : Nat) (r : CondRun) :
    afterEvaluation hold r now = { raw := now, held := now, timer := none } := by
  cases now with
  | yes => exact absurd rfl h
  | no => rfl
  | unknown => rfl

theorem afterEvaluation_rising {r : CondRun} (h : r.raw ≠ .yes) (hold : Nat) : afterEvaluation hold r .yes =
    if hold = 0 then { raw := .yes, held := .yes, timer := none } else { r with raw := .yes, timer := some 0 } := by
  unfold afterEvaluation
  cases hr : r.raw with
  | yes => exact absurd hr h
  | no => rfl
  | unknown => rfl

theorem afterEvaluation_still {r : CondRun} (h : r.raw = .yes) (hold : Nat) : afterEvaluation hold r .yes = r := by
  unfold afterEvaluation
  rw [h]

/-! ### The walk (R33) -/

/-- The walk after the conditions below `n`. -/
def walkTo (i : CondInput) (s : State) (first : List Nat) (n : Nat) : State × List Nat := (List.range n).foldl (walkAt i) (s, first)

theorem walkTo_succ (i : CondInput) (s : State) (first : List Nat) (n : Nat) :
    walkTo i s first (n + 1) = walkAt i (walkTo i s first n) n := by
  rw [walkTo, List.range_succ, List.foldl_append]
  rfl

theorem walk_eq_walkTo (i : CondInput) (s : State) (first : List Nat) : walk i s first = walkTo i s first 32 := rfl

theorem walkTo_eq (i : CondInput) (s : State) (first : List Nat) (n : Nat) :
    (walkTo i s first n).1 = { s with conds := (walkTo i s first n).1.conds } := foldl_walkAt_eq i (List.range n) (s, first)

theorem walkTo_tables (i : CondInput) (s : State) (first : List Nat) (n : Nat) : (walkTo i s first n).1.tables = s.tables := by
  rw [walkTo_eq]

theorem walkTo_length (i : CondInput) (s : State) (first : List Nat) (n : Nat) : (walkTo i s first n).1.conds.length = s.conds.length := by
  induction n with
  | zero => rfl
  | succ n ih => rw [walkTo_succ, walkAt_length, ih]

/-- What is evaluated at a position is that position's condition. -/
theorem walkAt_other (i : CondInput) (acc : State × List Nat) {c d : Nat} (h : c ≠ d) : (walkAt i acc c).1.cond d = acc.1.cond d := by
  unfold walkAt
  dsimp only
  split
  · exact (getD_set _ _ _ _ _).trans (if_neg fun k => h k.1)
  · rfl

theorem walkTo_above (i : CondInput) (s : State) (first : List Nat) {n c : Nat} (h : n ≤ c) :
    (walkTo i s first n).1.cond c = s.cond c := by
  induction n with
  | zero => rfl
  | succ n ih => rw [walkTo_succ, walkAt_other i _ (by omega), ih (by omega)]

theorem walkTo_below (i : CondInput) (s : State) (first : List Nat) {n m c : Nat} (hc : c < n) (h : n ≤ m) :
    (walkTo i s first m).1.cond c = (walkTo i s first n).1.cond c := by
  induction h with
  | refl => rfl
  | @step m hm ih =>
    have hm : n ≤ m := hm
    rw [Nat.succ_eq_add_one, walkTo_succ, walkAt_other i _ (by omega), ih]

/-- The walk's state below the position at which it stands is the final one. -/
theorem walk_below (i : CondInput) (s : State) (first : List Nat) {n c : Nat} (hc : c < n) (h : n ≤ 32) :
    (walkTo i s first n).1.cond c = (walk i s first).1.cond c := (walkTo_below i s first hc h).symm

theorem walkTo_changed (i : CondInput) (s : State) (first : List Nat) {n : Nat} (h : n ≤ 32) (length : s.conds.length = 32) :
    (walkTo i s first n).2 =
      first ++ (List.range n).filter fun c => ((walk i s first).1.cond c).held != (s.cond c).held := by
  induction n with
  | zero => simp [walkTo]
  | succ n ih =>
    have before := ih (by omega)
    have final := (walk_below i s first (Nat.lt_succ_self n) h).symm
    have old := walkTo_above i s first (Nat.le_refl n)
    have room : n < (walkTo i s first n).1.conds.length := by rw [walkTo_length, length]; omega
    rw [walkTo_succ] at final ⊢
    have last : ([n].filter fun c => ((walk i s first).1.cond c).held != (s.cond c).held) =
        if ((walk i s first).1.cond n).held = (s.cond n).held then [] else [n] := by
      by_cases same : ((walk i s first).1.cond n).held = (s.cond n).held
      · rw [if_pos same, List.filter_cons_of_neg (by simp [same]), List.filter_nil]
      · rw [if_neg same, List.filter_cons_of_pos (by simp [same]), List.filter_nil]
    rw [List.range_succ, List.filter_append, ← List.append_assoc, ← before, last, final]
    generalize walkTo i s first n = acc at old room
    unfold walkAt
    dsimp only
    split
    · rw [show ∀ x, (acc.1.setCond n x).cond n = x from fun x => (getD_set _ _ _ _ _).trans (if_pos ⟨rfl, room⟩), old]
      split
      · exact (List.append_nil _).symm
      · rfl
    · rw [old, if_pos rfl, List.append_nil]

/-- A raw value is read from the conditions only where it combines. -/
theorem rawValue_congr {a b : State} (hs : a = { b with conds := a.conds }) {e : CondEntry}
    (held : e.kind = .both ∨ e.kind = .either → a.held e.a = b.held e.a ∧ a.held e.b = b.held e.b) (previous : Tri) :
    rawValue a e previous = rawValue b e previous := by
  generalize a.conds = l at hs
  cases hk : e.kind with
  | both =>
    obtain ⟨ha, hb⟩ := held (.inl hk)
    rw [rawValue_both hk, rawValue_both hk, ha, hb]
  | either =>
    obtain ⟨ha, hb⟩ := held (.inr hk)
    rw [rawValue_either hk, rawValue_either hk, ha, hb]
  | above | below | contact | roleConfirmed =>
    rw [hs, rawValue, rawValue, hk]
    rfl
  | flueDraught | flueBlocked | flueSpill | flueRise => rw [hs, rawValue, rawValue, hk]

/-- The inputs of a combination in use stand below it (R21). -/
theorem combines_below {t : Tables} {c : Nat} (h : condCheck t c = true) (used : (t.cond c).inUse = true)
    (kind : (t.cond c).kind = .both ∨ (t.cond c).kind = .either) : (t.cond c).a < c ∧ (t.cond c).b < c := by
  unfold condCheck at h
  dsimp only at h
  rw [used] at h
  rcases kind with k | k
  all_goals
    rw [k] at h
    simp only [Bool.not_true, Bool.false_or, Bool.and_eq_true, decide_eq_true_eq] at h
    exact ⟨h.1.2, h.2⟩

theorem marksCombination_iff (l : List Nat) (e : CondEntry) :
    marksCombination l e = true ↔ (e.kind = .both ∨ e.kind = .either) ∧ (e.a ∈ l ∨ e.b ∈ l) := by
  unfold marksCombination
  cases e.kind <;> simp [CondKind.combines]

/-- The conditions that a walk evaluates. -/
def reachedBy (i : CondInput) (t : State) (s : State) (first : List Nat) (e : CondEntry) : Prop :=
  e.inUse = true ∧ (marks i e = true ∨ (e.kind = .both ∨ e.kind = .either) ∧
    ((e.a ∈ first ∨ e.a < 32 ∧ (t.cond e.a).held ≠ (s.cond e.a).held) ∨ (e.b ∈ first ∨ e.b < 32 ∧ (t.cond e.b).held ≠ (s.cond e.b).held)))

theorem changed_below (i : CondInput) (s : State) (first : List Nat) {c d : Nat} (hc : c < 32) (length : s.conds.length = 32) (hd : d < c) :
    d ∈ (walkTo i s first c).2 ↔ d ∈ first ∨ d < 32 ∧ ((walk i s first).1.cond d).held ≠ (s.cond d).held := by
  rw [walkTo_changed i s first (by omega) length, List.mem_append, List.mem_filter, List.mem_range]
  simp only [bne_iff_ne]
  constructor
  · rintro (h | ⟨-, h⟩)
    · exact .inl h
    · exact .inr ⟨by omega, h⟩
  · rintro (h | ⟨-, h⟩)
    · exact .inl h
    · exact .inr ⟨hd, h⟩

/-- The walk evaluates a condition if and only if it is reached. -/
theorem walk_reaches (i : CondInput) (s : State) (first : List Nat) (length : s.conds.length = 32)
    {c : Nat} (hc : c < 32) (checked : condCheck s.tables c = true) :
    ((s.tables.cond c).inUse && (marks i (s.tables.cond c) || marksCombination (walkTo i s first c).2 (s.tables.cond c))) = true ↔
      reachedBy i (walk i s first).1 s first (s.tables.cond c) := by
  rw [Bool.and_eq_true, Bool.or_eq_true, marksCombination_iff]
  unfold reachedBy
  refine and_congr_right fun used => or_congr_right (and_congr_right fun kind => ?_)
  obtain ⟨ha, hb⟩ := combines_below checked used kind
  rw [changed_below i s first hc length ha, changed_below i s first hc length hb]

theorem walk_cond (i : CondInput) (s : State) (first : List Nat) (length : s.conds.length = 32) {c : Nat} (hc : c < 32)
    (checked : condCheck s.tables c = true) :
    (reachedBy i (walk i s first).1 s first (s.tables.cond c) → (walk i s first).1.cond c = afterEvaluation (s.tables.cond c).hold (s.cond c)
      (rawValue (walk i s first).1 (s.tables.cond c) (s.cond c).raw)) ∧
    (¬ reachedBy i (walk i s first).1 s first (s.tables.cond c) → (walk i s first).1.cond c = s.cond c) := by
  have final := (walk_below i s first (Nat.lt_succ_self c) (by omega)).symm
  have old := walkTo_above i s first (Nat.le_refl c)
  have room : c < (walkTo i s first c).1.conds.length := by rw [walkTo_length, length]; omega
  have tables := walkTo_tables i s first c
  have reaches := walk_reaches i s first length hc checked
  have same : (walkTo i s first c).1 = { (walk i s first).1 with conds := (walkTo i s first c).1.conds } := by
    rw [walk_eq i s first]
    exact walkTo_eq i s first c
  have raw (used : (s.tables.cond c).inUse = true) : rawValue (walkTo i s first c).1 (s.tables.cond c) (s.cond c).raw =
      rawValue (walk i s first).1 (s.tables.cond c) (s.cond c).raw := by
    refine rawValue_congr same (fun kind => ?_) _
    obtain ⟨ha, hb⟩ := combines_below checked used kind
    exact ⟨congrArg CondRun.held (walk_below i s first ha (by omega)), congrArg CondRun.held (walk_below i s first hb (by omega))⟩
  rw [walkTo_succ] at final
  rw [final]
  refine ⟨fun h => ?_, fun h => ?_⟩
  · obtain ⟨used, -⟩ := id h
    rw [walkAt, tables, if_pos (reaches.2 h), old]
    dsimp only
    rw [raw used]
    exact (getD_set _ _ _ _ _).trans (if_pos ⟨rfl, room⟩)
  · rw [walkAt, tables, if_neg fun k => h (reaches.1 k), old]

end Sys2Proof.Machine

section
open Sys2Proof Sys2Proof.Machine

/-- Settles O20: raw values by kind, one evaluation, marks, and the walk. -/
theorem rawValuesOfConditions : Obligations.RawValuesOfConditions := by
  unfold Obligations.RawValuesOfConditions
  refine ⟨fun s e previous => ⟨fun kind => ?_, fun kind => ?_, fun kind => ?_, fun kind => ?_, fun kind => ?_, fun kind => ?_,
    fun kind => ?_, fun kind => ?_, fun kind => ?_, fun kind => ?_⟩, fun hold r now => ?_, fun e p r c kinds => ?_,
    fun s i first length checked => ?_⟩
  · rw [rawValue_above kind]
    refine ⟨fun bad => by rw [goodValue_of_not_good bad]; rfl, fun f good filtered => ?_⟩
    rw [goodValue_of_good good, filtered]
    exact ⟨fun h => if_pos h, fun h => (if_neg (by omega)).trans (if_pos h), fun h k => (if_neg (by omega)).trans (if_neg (by omega))⟩
  · rw [rawValue_below kind]
    refine ⟨fun bad => by rw [goodValue_of_not_good bad]; rfl, fun f good filtered => ?_⟩
    rw [goodValue_of_good good, filtered]
    exact ⟨fun h => if_pos h, fun h => (if_neg (by omega)).trans (if_pos h), fun h k => (if_neg (by omega)).trans (if_neg (by omega))⟩
  · rw [rawValue_contact kind]
    refine ⟨fun bad => by rw [goodValue_of_not_good bad]; rfl, fun f good filtered => ?_⟩
    rw [goodValue_of_good good, filtered]
    rfl
  · rw [rawValue_role kind]
    refine ⟨fun n c target => ?_, fun l target => ?_, fun target => by rw [roleConfirmedRaw, target]⟩
    · rw [roleConfirmed_field target, fieldConfirmed]
      refine ⟨fun a since actual => ?_, fun since confirm => ?_, fun since confirm => ?_⟩
      · rw [since, actual]
        simp [withinTolerance]
      · simp [since, confirm]
      · simp [since, confirm]
    · rw [roleConfirmed_line target, lineConfirmed]
      exact ⟨fun settle => if_pos settle, fun settle => if_neg (by rw [settle]; decide)⟩
  · rw [rawValue, kind]
    rfl
  · rw [rawValue, kind]
    rfl
  · rw [rawValue, kind]
    rfl
  · rw [rawValue_rise kind]
    refine ⟨fun h => by rw [h]; rfl, fun h => by rw [h]; rfl, fun h => ?_⟩
    rcases h with h | h
    all_goals
      rw [h]
      rfl
  · rw [rawValue_both kind, bothRaw_eq]
    refine ⟨fun h => if_pos h, fun ha hb => by rw [ha, hb]; rfl, fun ha hb h => ?_⟩
    rw [if_neg (not_or.2 ⟨ha, hb⟩), if_neg]
    rintro ⟨a, b⟩
    rcases h with h | h
    · rw [a] at h
      cases h
    · rw [b] at h
      cases h
  · rw [rawValue_either kind, eitherRaw_eq]
    refine ⟨fun h => if_pos h, fun ha hb => by rw [ha, hb]; rfl, fun ha hb h => ?_⟩
    rw [if_neg (not_or.2 ⟨ha, hb⟩), if_neg]
    rintro ⟨a, b⟩
    rcases h with h | h
    · rw [a] at h
      cases h
    · rw [b] at h
      cases h
  · refine ⟨fun h => afterEvaluation_not_yes h hold r, fun h old none' => ?_, fun h old some' => ?_, fun h old => ?_⟩
    · rw [h, afterEvaluation_rising old, if_pos none']
    · rw [h, afterEvaluation_rising old, if_neg (by omega)]
    · rw [h, afterEvaluation_still old]
  · refine ⟨?_, ?_, ?_, rfl, rfl⟩
    · cases hk : e.kind <;> simp [marks, CondKind.readsPoint, hk]
    · simp [marks]
    · cases hk : e.kind <;> simp [marks, CondKind.flueKind, hk]
  · refine ⟨walk_eq i s first, by rw [walk_eq_walkTo, walkTo_length, length], fun c hc => walk_cond i s first length hc (checked c hc), ?_⟩
    have changed := walkTo_changed i s first (Nat.le_refl 32) length
    rw [← walk_eq_walkTo] at changed
    exact changed

end
end

section
/-! SUPPORT. Device reset and power loss (R150, R151): O54. -/

namespace Sys2Proof.Machine

theorem Store.restored_of_newer {x : Store} {i : Nat} {c : Copy} (h : x.newer = some (i, c)) : x.restored = c.data := by
  rw [Store.restored, h]

theorem Store.restored_of_none {x : Store} (h : x.newer = none) : x.restored = LockoutData.initial := by rw [Store.restored, h]

theorem Store.rewrite_of_newer {x : Store} {i : Nat} {c : Copy} (h : x.newer = some (i, c)) : x.rewrite = x := by
  rw [Store.rewrite, h]

theorem Store.rewrite_of_none {x : Store} (h : x.newer = none) : x.rewrite =
    { x with write := some { target := 0, copy := { data := LockoutData.initial, generation := 0 } }, again := true } := by
  rw [Store.rewrite, h]
  dsimp only
  rw [Store.startWrite, h]

theorem exec_deviceReset {s : State} {adr : Nat} (h : adr < 4) : exec (.deviceReset adr) s = .next (s.restarted s.resetStore adr) :=
  congrArg Host.Outcome.next (if_pos h)

theorem exec_powerLoss_on {s : State} (h : s.phase ≠ .off) : exec .powerLoss s = .next s.unpowered :=
  congrArg Host.Outcome.next (if_pos (by simpa [State.powered] using h))

theorem exec_powerLoss_off {s : State} (h : s.phase = .off) : exec .powerLoss s = .next s :=
  congrArg Host.Outcome.next (if_neg (by simp [State.powered, h]))

/-- A write that the power loss cuts short leaves its own copy invalid, and the other as it stood. -/
theorem Store.lost_of_write {x : Store} {w : CopyWrite} (h : x.write = some w) :
    (w.target = 0 → x.lost.copy0 = none ∧ x.lost.copy1 = x.copy1) ∧ (w.target ≠ 0 → x.lost.copy0 = x.copy0 ∧ x.lost.copy1 = none) := by
  unfold Store.lost
  rw [h]
  exact ⟨fun k => ⟨if_pos k, if_pos k⟩, fun k => ⟨if_neg k, if_neg k⟩⟩

theorem Store.lost_of_no_write {x : Store} (h : x.write = none) : x.lost.copy0 = x.copy0 ∧ x.lost.copy1 = x.copy1 := by
  unfold Store.lost
  rw [h]
  exact ⟨rfl, rfl⟩

end Sys2Proof.Machine

section
open Sys2Proof Sys2Proof.Machine

/-- Settles O54: what a device reset restores, what a power loss leaves, and the reset forms. -/
theorem resetAndPowerLoss : Obligations.ResetAndPowerLoss := by
  unfold Obligations.ResetAndPowerLoss
  refine ⟨fun s => ?_, ?_⟩
  · intro blank starting
    refine ⟨fun adr hadr => ⟨fun i c newer => ?_, fun fresh => ?_⟩, fun off => if_pos off, fun on write commit again => ?_, fun on => ?_,
      exec_powerLoss_off⟩
    · rw [exec_deviceReset hadr, State.restarted, Store.restored_of_newer newer, Store.rewrite_of_newer newer]
      rfl
    · rw [exec_deviceReset hadr, State.restarted, Store.restored_of_none fresh, Store.rewrite_of_none fresh]
      rfl
    · exact (if_neg on).trans (aborted_of_idle _ _ _ write commit again)
    · exact ⟨s.store.lost, exec_powerLoss_on on, rfl, rfl, rfl, fun h => if_pos h, fun h => if_neg h, fun w h => Store.lost_of_write h,
        Store.lost_of_no_write⟩
  · refine ⟨rfl, rfl, rfl, rfl, rfl, rfl, rfl, rfl, rfl, rfl, ?_, ?_, ?_, ?_, ?_, ?_, ?_, rfl, rfl, rfl, rfl, rfl⟩
    all_goals decide

end
end

section
/-! SUPPORT. Frames and requests that are turned away (R128, R130, R133, R163, R169): O60. -/

namespace Sys2Proof.Machine

/-! ### DRIVE frames dropped whole (R130) -/

theorem exec_driveInterception {s : State} {src dst : Byte} {sub : BitVec 4} {payload : List Byte} (hs : s.serving = true)
    (hr : s.receives .control = true) (h0 : src ≠ 0) (hl : payload.length ≤ 24) :
    exec (.driveInterception src dst sub payload) s =
      finish (driveFrame { src := src, dst := dst, kind := kindByte 3 sub.toNat, payload := payload } (Work.idle (s.heardFrom src))) := by
  have e : exec (.driveInterception src dst sub payload) s =
    exec (.controlFrame { src := src, dst := dst, kind := kindByte 3 sub.toNat, payload := payload }) s := rfl
  rw [e, exec_controlFrame_other hs hr h0 hl (by rw [frameKind_kindByte_drive]; decide), controlOther]
  dsimp only
  rw [frameKind_kindByte_drive]

theorem State.heardFrom_controller (s : State) (src : Byte) : (s.heardFrom src).fromController src = s.fromController src := by
  rw [State.heardFrom_eq]
  rfl

theorem driveFrame_intercepted {f : Frame} (hd : 2 ≤ f.dst.toNat ∧ f.dst.toNat ≤ 47) (w : Work) : driveFrame f w = intercept f w :=
  if_pos ((fieldAddress_iff f.dst).2 hd)

theorem not_fieldAddress {d : Byte} (h : ¬ (2 ≤ d.toNat ∧ d.toNat ≤ 47)) : ¬ fieldAddress d = true :=
  fun k => h ((fieldAddress_iff d).1 k)

theorem driveFrame_unrouted {f : Frame} (hd : f.dst.toNat ≤ 1) (w : Work) :
    driveFrame f w = w.withSt (w.st.raiseDrive reasonUnrouted none none none) :=
  (if_neg (not_fieldAddress (by omega))).trans (if_pos hd)

theorem driveFrame_left {f : Frame} (hd : 48 ≤ f.dst.toNat) (w : Work) : driveFrame f w = w :=
  (if_neg (not_fieldAddress (by omega))).trans (if_neg (by omega))

/-! ### Requests that cannot be read (R163, R169) -/

theorem State.heardFrom_committing (s : State) (src : Byte) : (s.heardFrom src).committing = s.committing := by
  rw [State.heardFrom_eq]
  rfl

/-- A request that is read while a store write is in flight, and must wait for it. -/
theorem request_busy {s : State} {src : Byte} (h : s.manages src) (busy : s.committing = true) {sub : Nat} (hs : sub < 16)
    {p : List Byte} (hp : p.length ≤ 24) {q : Request} (hq : readRequest sub p = some q) (ha : q.always = false) :
    request src sub p s = .next ((s.heardFrom src).reply src .busy).arbitrate := by
  rw [request_taken h hs hp, handle_busy hq (by rw [Work.idle_st, State.heardFrom_committing, busy]) ha]
  exact finish_idle rfl

theorem request_bad {s : State} {src : Byte} (h : s.manages src) {sub : Nat} (hs : sub < 16) (other : sub ≠ 1)
    {p : List Byte} (hp : p.length ≤ 24) (hq : readRequest sub p = none) :
    request src sub p s = .next ((s.heardFrom src).reply src .badRequest).arbitrate := by
  rw [request_taken h hs hp, handle, hq]
  dsimp only
  rw [badRequest, if_neg other]
  exact finish_idle rfl

/-- A LOAD that cannot be read drops the assembly (R169). -/
theorem request_badLoad {s : State} {src : Byte} (h : s.manages src) {p : List Byte} (hp : p.length ≤ 24)
    (hq : readRequest 1 p = none) :
    request src 1 p s = .next (State.reply { s.heardFrom src with assembly := none } src .badRequest).arbitrate := by
  rw [request_taken h (by decide) hp, handle, hq]
  dsimp only
  rw [badRequest, if_pos rfl]
  exact finish_idle rfl

theorem readRequest_of_sub {sub : Nat} (h : sub = 0 ∨ 14 ≤ sub) (p : List Byte) : readRequest sub p = none := by
  rcases h with rfl | h
  · rfl
  · obtain ⟨k, rfl⟩ := Nat.exists_eq_add_of_le' h
    rfl

theorem readRequest_of_length {sub n : Nat} {p : List Byte} (hn : p.length ≠ n)
    (h : sub ∈ [2] ∧ n = 4 ∨ sub ∈ [3, 4, 5, 6, 8, 10] ∧ n = 0 ∨ sub ∈ [7, 11, 13] ∧ n = 1 ∨ sub ∈ [9, 12] ∧ n = 3) :
    readRequest sub p = none := by
  simp only [List.mem_cons, List.not_mem_nil, or_false] at h
  rcases h with ⟨rfl, rfl⟩ | ⟨rfl | rfl | rfl | rfl | rfl | rfl, rfl⟩ | ⟨rfl | rfl | rfl, rfl⟩ | ⟨rfl | rfl, rfl⟩
  case inl =>
    match p, hn with
    | [], _ | [_], _ | [_, _], _ | [_, _, _], _ | _ :: _ :: _ :: _ :: _ :: _, _ => rfl
    | [_, _, _, _], hn => exact absurd rfl hn
  case inr.inl.inl | inr.inl.inr.inl | inr.inl.inr.inr.inl | inr.inl.inr.inr.inr.inl | inr.inl.inr.inr.inr.inr.inl |
      inr.inl.inr.inr.inr.inr.inr =>
    match p, hn with
    | [], hn => exact absurd rfl hn
    | _ :: _, _ => rfl
  case inr.inr.inl.inl | inr.inr.inl.inr.inl | inr.inr.inl.inr.inr =>
    match p, hn with
    | [], _ | _ :: _ :: _, _ => rfl
    | [_], hn => exact absurd rfl hn
  all_goals
    match p, hn with
    | [], _ | [_], _ | [_, _], _ | _ :: _ :: _ :: _ :: _, _ => rfl
    | [_, _, _], hn => exact absurd rfl hn

theorem readRequest_shortLoad {p : List Byte} (h : p.length < 3) : readRequest 1 p = none := by
  match p, h with
  | [], _ | [_], _ | [_, _], _ => rfl
  | _ :: _ :: _ :: _, h => exact absurd h (by simp only [List.length_cons]; omega)

theorem tableKind_of_large {b : Byte} (h : 8 ≤ b.toNat) : TableKind.all[b.toNat]? = none := List.getElem?_eq_none h

theorem readLoad_of_kind {b i part : Byte} {fields : List Byte} (h : 8 ≤ b.toNat) : readLoad b i part fields = none := by
  rw [readLoad, tableKind_of_large h]

theorem readLoad_of_part {b i part : Byte} {fields : List Byte} {k : TableKind} (hk : TableKind.all[b.toNat]? = some k)
    (h : part.toNat % 16 ≠ k.partLengths.length ∨ k.partLengths.length ≤ part.toNat / 16 ∨
      k.partLengths.getD (part.toNat / 16) 0 ≠ fields.length) : readLoad b i part fields = none := by
  rw [readLoad, hk]
  refine if_neg fun ⟨parts, length⟩ => ?_
  obtain ⟨inside, _⟩ := List.getElem?_eq_some_iff.1 length
  rcases h with h | h | h
  · exact h parts
  · omega
  · rw [List.getD_eq_getElem?_getD, length] at h
    exact h rfl

theorem readRead_of_large {img b i part : Byte} (h : 2 ≤ img.toNat ∨ 8 ≤ b.toNat) : readRead img b i part = none := by
  unfold readRead
  split
  · next k hk =>
    obtain ⟨inside, _⟩ := List.getElem?_eq_some_iff.1 hk
    refine if_neg fun ⟨image, _⟩ => ?_
    have eight : TableKind.all.length = 8 := rfl
    omega
  · rfl

theorem readRead_of_part {img b i part : Byte} {k : TableKind} (hk : TableKind.all[b.toNat]? = some k)
    (h : k.size ≤ i.toNat ∨ img = 0 ∧ k.partLengths.length ≤ part.toNat ∨ k.partLengths.length + k.runtimeParts ≤ part.toNat) :
    readRead img b i part = none := by
  rw [readRead, hk]
  refine if_neg fun ⟨_, index, inside⟩ => ?_
  rcases h with h | ⟨rfl, h⟩ | h
  · omega
  · rw [if_neg (by decide)] at inside
    omega
  · split at inside <;> omega

theorem readIndex_of_large {n : Nat} {b : Byte} (h : n ≤ b.toNat) : readIndex n b = none := if_neg (by omega)

theorem readIndex_of_small {n : Nat} {b : Byte} (h : b.toNat < n) : readIndex n b = some b.toNat := if_pos h

theorem readRequest_traceRead_bad {hi lo n : Byte} (h : n.toNat = 0 ∨ 4 < n.toNat ∨ 512 < n16 hi lo + n.toNat) :
    readRequest 12 [hi, lo, n] = none := by
  rw [readRequest_traceRead]
  refine if_neg fun k => ?_
  simp only [within, Bool.and_eq_true, decide_eq_true_eq] at k
  omega

/-- Each management instruction is a request with a sub-code and at most 24 bytes. -/
theorem managementInstr_request {s : State} {src b1 b2 b3 b4 : Byte} {fields : List Byte} {v : Word} (hf : fields.length ≤ 21) {c : Instr}
    (hc : c ∈ [Instr.load src b1 b2 b3 fields, .read src b1 b2 b3 b4, .discard src, .commit src, .demandOn src, .demandOff src,
      .run src b1, .stop src, .setRole src b1 v, .unlock src, .status src b1, .traceRead src v b1, .traceRelease src b1]) :
    ∃ sub p, sub < 16 ∧ p.length ≤ 24 ∧ exec c s = request src sub p s := by
  simp only [List.mem_cons, List.not_mem_nil, or_false] at hc
  rcases hc with rfl | hc
  · exact ⟨1, b1 :: b2 :: b3 :: fields, by decide, by simp only [List.length_cons]; omega, rfl⟩
  rcases hc with rfl | rfl | rfl | rfl | rfl | rfl | rfl | rfl | rfl | rfl | rfl | rfl
  all_goals exact ⟨_, _, by decide, by simp [u16], rfl⟩

/-- The management instructions that wait for a store write, each with the request that it is. -/
theorem waitingInstr_request {s : State} {src kind index part n role : Byte} {fields : List Byte} {v : Word} (hf : fields.length ≤ 21)
    (reads : (readLoad kind index part fields).isSome = true) (hn : n.toNat < 12) (hr : role.toNat < 12) {c : Instr}
    (hc : c ∈ [Instr.load src kind index part fields, .discard src, .commit src, .demandOn src, .demandOff src, .run src n,
      .stop src, .setRole src role v, .unlock src]) :
    ∃ sub p q, sub < 16 ∧ p.length ≤ 24 ∧ readRequest sub p = some q ∧ q.always = false ∧ exec c s = request src sub p s := by
  simp only [List.mem_cons, List.not_mem_nil, or_false] at hc
  rcases hc with rfl | rfl | rfl | rfl | rfl | rfl | rfl | rfl | rfl
  · obtain ⟨q, hq⟩ := Option.isSome_iff_exists.1 reads
    refine ⟨1, kind :: index :: part :: fields, q, by decide, by simp only [List.length_cons]; omega, hq, ?_, rfl⟩
    unfold readLoad at hq
    repeat' split at hq
    all_goals cases hq
    rfl
  · exact ⟨3, [], .discard, by decide, by decide, rfl, rfl, rfl⟩
  · exact ⟨4, [], .commit, by decide, by decide, rfl, rfl, rfl⟩
  · exact ⟨5, [], .demandOn, by decide, by decide, rfl, rfl, rfl⟩
  · exact ⟨6, [], .demandOff, by decide, by decide, rfl, rfl, rfl⟩
  · exact ⟨7, [n], .run n.toNat, by decide, by simp, by rw [readRequest_run, readIndex_of_small hn]; rfl, rfl, rfl⟩
  · exact ⟨8, [], .stop, by decide, by decide, rfl, rfl, rfl⟩
  · exact ⟨9, role :: u16 v.toNat, .setRole role.toNat (n16 (u8 (v.toNat / 256)) (u8 v.toNat)), by decide, by simp [u16],
      by rw [u16, readRequest_setRole, readIndex_of_small hr]; rfl, rfl, rfl⟩
  · exact ⟨10, [], .unlock, by decide, by decide, rfl, rfl, rfl⟩

end Sys2Proof.Machine

section
open Sys2Proof Sys2Proof.Machine

/-- Settles O60: DRIVE frames dropped, and requests answered BUSY, NOT_CONTROLLER and BAD_REQUEST. -/
theorem framesTurnedAway : Obligations.FramesTurnedAway := by
  unfold Obligations.FramesTurnedAway
  intro s src dst sub payload serves takes h0 hl hm h
  have src0 : src.toNat ≠ 0 := fun k => h0 (BitVec.eq_of_toNat_eq k)
  have manages (room : s.gate.reply.length < 4) (controller : s.fromController src = true) : s.manages src :=
    ⟨serves, takes, controller, src0, room, hm⟩
  refine ⟨fun hd stranger => ?_, fun hd controller malformed => ?_, fun hd => ?_, fun hd => ?_,
    fun kind index part n role fields v room controller busy reads hf hn hr c hc => ?_, fun b1 b2 b3 b4 fields v hf c hc => ?_,
    fun room controller => ?_⟩
  · rw [exec_driveInterception serves takes h0 hl, driveFrame_intercepted hd, intercept]
    rw [if_pos (by rw [Work.idle_st, State.heardFrom_controller, stranger]; rfl)]
    exact finish_idle rfl
  · rw [exec_driveInterception serves takes h0 hl, driveFrame_intercepted hd, intercept]
    rw [if_neg (by rw [Work.idle_st, State.heardFrom_controller, controller]; decide), if_pos (by rw [malformed]; rfl)]
    exact finish_idle rfl
  · rw [exec_driveInterception serves takes h0 hl, driveFrame_unrouted hd]
    exact finish_idle rfl
  · rw [exec_driveInterception serves takes h0 hl, driveFrame_left hd]
    exact finish_idleState _
  · obtain ⟨sub, p, q, hs, hp, hq, ha, e⟩ := waitingInstr_request (s := s) hf reads hn hr hc
    rw [e]
    exact request_busy (manages room controller) busy hs hp hq ha
  · obtain ⟨sub, p, hs, hp, e⟩ := managementInstr_request (s := s) hf hc
    rw [e]
    exact ⟨fun room stranger => request_stranger serves takes src0 hm room stranger hs hp,
      fun full => request_full serves takes src0 hm full hs hp⟩
  · intro bad dropped f wrong
    have m := manages room controller
    have refused (sub : Nat) (p : List Byte) (hs : sub < 16) (other : sub ≠ 1) (hp : p.length ≤ 24) (hq : readRequest sub p = none) :
        request src sub p s = .next bad := request_bad m hs other hp hq
    have drops (p : List Byte) (hp : p.length ≤ 24) (hq : readRequest 1 p = none) : request src 1 p s = .next dropped :=
      request_badLoad m hp hq
    have frame : exec (.controlFrame f) s = request src sub.toNat payload s := rfl
    refine ⟨fun turned => ?_, fun one short => ?_, fun b1 b2 b3 b4 fields v => ⟨fun large hf => ?_, fun k hk hf unfit => ?_, fun large => ?_,
      fun k hk unfit => ?_, fun large => ⟨?_, ?_⟩, fun large => ?_, fun range => ?_, fun large => ?_⟩⟩
    · have other : sub.toNat ≠ 1 := by
        intro one
        simp only [wrong, one] at turned
        simp at turned
      rw [frame]
      refine refused _ _ sub.isLt other hl ?_
      simp only [wrong] at turned
      rcases turned with zero | large | ⟨listed, length⟩ | ⟨listed, length⟩ | ⟨listed, length⟩ | ⟨listed, length⟩
      · exact readRequest_of_sub (.inl zero) _
      · exact readRequest_of_sub (.inr large) _
      · exact readRequest_of_length length (.inl ⟨listed, rfl⟩)
      · exact readRequest_of_length length (.inr (.inl ⟨listed, rfl⟩))
      · exact readRequest_of_length length (.inr (.inr (.inl ⟨listed, rfl⟩)))
      · exact readRequest_of_length length (.inr (.inr (.inr ⟨listed, rfl⟩)))
    · rw [frame, one]
      exact drops _ hl (readRequest_shortLoad short)
    · exact drops (b1 :: b2 :: b3 :: fields) (by simp only [List.length_cons]; omega) (readLoad_of_kind large)
    · exact drops (b1 :: b2 :: b3 :: fields) (by simp only [List.length_cons]; omega) (readLoad_of_part hk unfit)
    · exact refused 2 [b1, b2, b3, b4] (by decide) (by decide) (by simp) (readRead_of_large large)
    · exact refused 2 [b1, b2, b3, b4] (by decide) (by decide) (by simp) (readRead_of_part hk unfit)
    · exact refused 7 [b1] (by decide) (by decide) (by simp) (by rw [readRequest_run, readIndex_of_large large]; rfl)
    · exact refused 9 (b1 :: u16 v.toNat) (by decide) (by decide) (by simp [u16])
        (by rw [u16, readRequest_setRole, readIndex_of_large large]; rfl)
    · exact refused 11 [b1] (by decide) (by decide) (by simp) (by rw [readRequest_status, readIndex_of_large large]; rfl)
    · refine refused 12 (u16 v.toNat ++ [b1]) (by decide) (by decide) (by simp [u16]) (readRequest_traceRead_bad ?_)
      rw [n16_u16 v.toNat v.isLt]
      exact range
    · exact refused 13 [b1] (by decide) (by decide) (by simp) (by rw [readRequest_traceRelease, readIndex_of_large large]; rfl)

end
end

section
/-! SUPPORT. What the Trace Unit writes, how it ends a record, and what a release resumes (R154 to R158): O49. -/

namespace Sys2Proof.Machine

/-! ### Notices of halves (R155) -/

theorem not_rises {new old : Bool} (h : new = true → old = true) : ¬ (new && !old) = true := by
  rw [Bool.and_eq_true]
  rintro ⟨on, off⟩
  rw [h on] at off
  cases off

/-- A change that makes no half ready raises nothing. -/
theorem Work.setTrace_silent {w : Work} {t : TraceUnit} (h0 : t.ready0 = true → w.st.trace.ready0 = true)
    (h1 : t.ready1 = true → w.st.trace.ready1 = true) : w.setTrace t = w.withSt (w.st.setTrace t) := by
  unfold Work.setTrace
  dsimp only
  rw [if_neg (not_rises h0), if_neg (not_rises h1)]

theorem Work.setTrace_low {w : Work} {t : TraceUnit} (on : t.ready0 = true) (off : w.st.trace.ready0 = false)
    (h1 : t.ready1 = true → w.st.trace.ready1 = true) : w.setTrace t = (w.withSt (w.st.setTrace t)).fin (.traceNotice 0) := by
  have rises : (t.ready0 && !w.st.trace.ready0) = true := by rw [on, off]; rfl
  unfold Work.setTrace
  dsimp only
  rw [if_pos rises, if_neg (not_rises h1)]

theorem Work.setTrace_high {w : Work} {t : TraceUnit} (on : t.ready1 = true) (off : w.st.trace.ready1 = false)
    (h0 : t.ready0 = true → w.st.trace.ready0 = true) : w.setTrace t = (w.withSt (w.st.setTrace t)).fin (.traceNotice 1) := by
  have rises : (t.ready1 && !w.st.trace.ready1) = true := by rw [on, off]; rfl
  unfold Work.setTrace
  dsimp only
  rw [if_neg (not_rises h0), if_pos rises]

theorem Work.fin_mem (w : Work) (a : Act) : a ∈ (w.fin a).fins := List.mem_append_right _ (List.mem_singleton_self a)

/-! ### An entry (R155) -/

theorem TraceUnit.write_inside {t : TraceUnit} (e : TraceEntry) (h : t.pos ≠ 255) (k : t.pos ≠ 511) :
    t.write e = { t with mem := t.mem.set t.pos e, pos := t.pos + 1 } := by
  unfold TraceUnit.write
  dsimp only
  rw [if_neg (by simp [lastOfHalf, h, k])]

theorem TraceUnit.write_low {t : TraceUnit} (e : TraceEntry) (h : t.pos = 255) :
    t.write e = { t with mem := t.mem.set t.pos e, pos := 256, ready0 := true, hold := t.ready1 } := by
  unfold TraceUnit.write
  dsimp only
  rw [if_pos (by rw [h]; rfl), h]
  rfl

theorem TraceUnit.write_high {t : TraceUnit} (e : TraceEntry) (h : t.pos = 511) :
    t.write e = { t with mem := t.mem.set t.pos e, pos := 0, ready1 := true, hold := t.ready0 } := by
  unfold TraceUnit.write
  dsimp only
  rw [if_pos (by rw [h]; rfl), h]
  rfl

theorem traceEntry_held {s : State} (h : s.trace.hold = true) (r : OpenRecord) (k : TraceKind) : traceEntry s r k =
    { s.trace with
      opened := some { r with count := min (r.count + 1) 65535 }, gap := min (s.trace.gap + 1) 65535
      gapAt := if s.trace.gap = 0 then min (s.clock - r.start) 65535 else s.trace.gapAt } := if_pos h

theorem traceEntry_written {s : State} (h : s.trace.hold = false) (r : OpenRecord) (k : TraceKind) : traceEntry s r k =
    TraceUnit.write { s.trace with opened := some { r with count := min (r.count + 1) 65535 } }
      { kind := k, record := r.number, offset := min (s.clock - r.start) 65535 } := if_neg (by rw [h]; decide)

/-! ### The end of a record (R156) -/

/-- The memory with END at the write position and the filler to the end of its half. -/
def endedMem (mem : List TraceEntry) (pos : Nat) (e filler : TraceEntry) : List TraceEntry :=
  mem.take pos ++ e :: List.replicate ((if pos < 256 then 256 else 512) - pos - 1) filler ++ mem.drop (if pos < 256 then 256 else 512)

theorem endedMem_length {mem : List TraceEntry} {pos : Nat} (hl : mem.length = 512) (hp : pos < 512) (e filler : TraceEntry) :
    (endedMem mem pos e filler).length = 512 := by
  unfold endedMem
  simp only [List.length_append, List.length_take, List.length_cons, List.length_replicate, List.length_drop, hl]
  split <;> omega

theorem endedMem_getD {mem : List TraceEntry} {pos : Nat} (hl : mem.length = 512) (hp : pos < 512) (e filler : TraceEntry) {i : Nat}
    (hi : i < 512) : (endedMem mem pos e filler).getD i TraceEntry.empty =
      if i = pos then e else if pos < i ∧ i < (if pos < 256 then 256 else 512) then filler else mem.getD i TraceEntry.empty := by
  unfold endedMem
  have stop : pos < (if pos < 256 then 256 else 512) := by split <;> omega
  generalize (if pos < 256 then 256 else 512) = n at stop
  have take : (mem.take pos).length = pos := by rw [List.length_take]; omega
  rw [List.append_assoc]
  rcases Nat.lt_trichotomy i pos with h | rfl | h
  · rw [if_neg (by omega), if_neg (by omega), getD_append_low _ _ _ _ (by omega)]
    simp only [List.getD_eq_getElem?_getD, List.getElem?_take, if_pos h]
  · rw [if_pos rfl, getD_append_high _ _ _ _ (by omega), take, Nat.sub_self]
    rfl
  · rw [if_neg (by omega), getD_append_high _ _ _ _ (by omega), take]
    obtain ⟨k, rfl⟩ : ∃ k, i = pos + 1 + k := ⟨i - pos - 1, by omega⟩
    rw [show pos + 1 + k - pos = k + 1 by omega, List.cons_append, List.getD_cons_succ]
    by_cases inside : pos + 1 + k < n
    · rw [if_pos ⟨h, inside⟩, getD_append_low _ _ _ _ (by rw [List.length_replicate]; omega), getD_of_lt _ _ (by rw [List.length_replicate]; omega),
        List.getElem_replicate]
    · rw [if_neg fun j => inside j.2, getD_append_high _ _ _ _ (by rw [List.length_replicate]; omega), List.length_replicate]
      simp only [List.getD_eq_getElem?_getD, List.getElem?_drop]
      rw [show n + (k - (n - pos - 1)) = pos + 1 + k by omega]

theorem closeRecord_low {t : TraceUnit} (h : t.pos < 256) (number count off : Nat) : closeRecord t number count off =
    { t with
      opened := none, pos := 256, ready0 := true, hold := t.ready1
      mem := endedMem t.mem t.pos { kind := .finish count, record := number, offset := off }
        { kind := .empty, record := number, offset := off } } := by
  unfold closeRecord TraceUnit.writeEnd
  dsimp only
  rw [show halfOf t.pos = 0 from if_pos h]
  rfl

theorem closeRecord_high {t : TraceUnit} (h : ¬ t.pos < 256) (number count off : Nat) : closeRecord t number count off =
    { t with
      opened := none, pos := 0, ready1 := true, hold := t.ready0
      mem := endedMem t.mem t.pos { kind := .finish count, record := number, offset := off }
        { kind := .empty, record := number, offset := off } } := by
  unfold closeRecord TraceUnit.writeEnd
  dsimp only
  rw [show halfOf t.pos = 1 from if_neg h]
  rfl

theorem Work.traceFinish_none {w : Work} (h : w.st.trace.opened = none) : w.traceFinish = w := by rw [Work.traceFinish, h]

theorem Work.traceFinish_over {w : Work} {r : OpenRecord} (h : w.st.trace.opened = some r) (he : r.ended.isSome = true) :
    w.traceFinish = w := by
  obtain ⟨o, ho⟩ := Option.isSome_iff_exists.1 he
  simp [Work.traceFinish, h, ho]

theorem Work.traceFinish_held {w : Work} {r : OpenRecord} (h : w.st.trace.opened = some r) (he : r.ended = none)
    (hold : w.st.trace.hold = true) : w.traceFinish = w.withSt (w.st.setTrace { w.st.trace with
      opened := some { r with count := min (r.count + 1) 65535, ended := some (min (w.st.clock - r.start) 65535) } }) := by
  simp [Work.traceFinish, h, he, hold, offsetOf, sat16]

theorem Work.traceFinish_written {w : Work} {r : OpenRecord} (h : w.st.trace.opened = some r) (he : r.ended = none)
    (hold : w.st.trace.hold = false) : w.traceFinish =
      w.setTrace (closeRecord w.st.trace r.number (min (r.count + 1) 65535) (min (w.st.clock - r.start) 65535)) := by
  simp [Work.traceFinish, h, he, hold, offsetOf, sat16]

/-! ### A new top (R154) -/

theorem Work.traceTop_idle {w : Work} {n : Nat} (h : (w.st.tables.seq n).trace = false ∨ w.st.trace.opened.isSome = true) :
    w.traceTop n = w := by
  refine if_neg fun k => ?_
  rw [Bool.and_eq_true, Option.isNone_iff_eq_none] at k
  obtain ⟨traced, none⟩ := k
  rcases h with h | h
  · rw [h] at traced
    cases traced
  · rw [none] at h
    cases h

theorem Work.traceTop_begins {w : Work} {n : Nat} (h : (w.st.tables.seq n).trace = true) (idle : w.st.trace.opened = none) :
    w.traceTop n = Work.trace { w with st := w.st.setTrace { w.st.trace with
      counter := (w.st.trace.counter + 1) % 256
      opened := some { number := w.st.trace.counter, seq := n, start := w.st.clock, count := 0, ended := none } } } (.start n) :=
  if_pos (by rw [h, idle]; rfl)

/-! ### A release (R157, R158) -/

theorem half_cases {half : Nat} (h : half < 2) : half = 0 ∨ half = 1 := by omega

/-- A released half raises nothing. -/
theorem Work.setReady_silent (w : Work) {half : Nat} (h : half < 2) :
    w.setTrace (w.st.trace.setReady half false) = w.withSt (w.st.setTrace (w.st.trace.setReady half false)) := by
  rcases half_cases h with rfl | rfl
  · exact Work.setTrace_silent (fun k => nomatch k) id
  · exact Work.setTrace_silent id fun k => nomatch k

theorem Work.release_eq (w : Work) {half : Nat} (h : half < 2) : w.release half =
    (w.withSt (w.st.setTrace (w.st.trace.setReady half false))).setTrace (afterRelease (w.st.trace.setReady half false) half) := by
  unfold Work.release
  dsimp only
  rw [Work.setReady_silent w h]
  rfl

theorem TraceUnit.setReady_kept (t : TraceUnit) (half : Nat) (b : Bool) : (t.setReady half b).pos = t.pos ∧
    (t.setReady half b).hold = t.hold ∧ (t.setReady half b).gap = t.gap ∧ (t.setReady half b).gapAt = t.gapAt ∧
    (t.setReady half b).opened = t.opened ∧ (t.setReady half b).mem = t.mem := by
  unfold TraceUnit.setReady
  split <;> exact ⟨rfl, rfl, rfl, rfl, rfl, rfl⟩

theorem afterRelease_elsewhere {t : TraceUnit} {half : Nat} (h : t.hold = false ∨ halfOf t.pos ≠ half) : afterRelease t half = t := by
  refine if_neg fun k => ?_
  rw [Bool.and_eq_true, decide_eq_true_eq] at k
  rcases h with h | h
  · rw [h] at k
    exact nomatch k.1
  · exact h k.2

theorem afterRelease_here {t : TraceUnit} {half : Nat} (hold : t.hold = true) (h : halfOf t.pos = half) :
    afterRelease t half = resumeWriter t := if_pos (by rw [hold, h]; simp)

/-- The writer after the GAP entry of a resumption, at the start of its half. -/
theorem writeGap_eq {t : TraceUnit} (h : t.pos ≠ 255) (k : t.pos ≠ 511) : writeGap t =
    if t.gap = 0 then t else { t with
      gap := 0, pos := t.pos + 1
      mem := t.mem.set t.pos { kind := .gap t.gap, record := (t.opened.map OpenRecord.number).getD 0, offset := t.gapAt } } := by
  unfold writeGap
  split
  · rfl
  · exact TraceUnit.write_inside _ h k

theorem writeGap_opened (t : TraceUnit) : (writeGap t).opened = t.opened := by
  unfold writeGap TraceUnit.write
  dsimp only
  repeat' split
  · rfl
  · rw [TraceUnit.leave_opened]
  · rfl

theorem resumeWriter_going {t : TraceUnit} (h : ∀ r, t.opened = some r → r.ended = none) :
    resumeWriter t = writeGap { t with hold := false } := by
  unfold resumeWriter
  dsimp only
  rw [writeGap_opened]
  dsimp only
  cases ho : t.opened with
  | none => rfl
  | some r =>
    dsimp only
    rw [h r ho]

theorem resumeWriter_ended {t : TraceUnit} {r : OpenRecord} {offset : Nat} (h : t.opened = some r) (he : r.ended = some offset) :
    resumeWriter t = closeRecord (writeGap { t with hold := false }) r.number r.count offset := by
  unfold resumeWriter
  dsimp only
  rw [writeGap_opened, h]
  dsimp only
  rw [he]

/-- What a resumption that closes the kept record leaves, from the unit with the released half's flag cleared. -/
structure Resumed (t : TraceUnit) (half : Nat) (r : OpenRecord) (offset : Nat) (u : TraceUnit) : Prop where
  opened : u.opened = none
  gap : u.gap = 0
  ready : u.ready half = true
  other : u.ready (1 - half) = t.ready (1 - half)
  pos : u.pos = 256 * (1 - half)
  hold : u.hold = t.ready (1 - half)
  mem : ∀ i, i < 512 → u.mem.getD i TraceEntry.empty =
    if i = (if t.gap = 0 then t.pos else t.pos + 1) then { kind := .finish r.count, record := r.number, offset := offset }
    else if i = t.pos then { kind := .gap t.gap, record := r.number, offset := t.gapAt }
    else if (if t.gap = 0 then t.pos else t.pos + 1) < i ∧ i < 256 * half + 256 then
      { kind := .empty, record := r.number, offset := offset }
    else t.mem.getD i TraceEntry.empty

theorem resumedMem {mem mem' : List TraceEntry} {start at' stop : Nat} (hl : mem.length = 512) {gap : TraceEntry} {e filler : TraceEntry}
    {i : Nat} (hi : i < 512) (he : at' < 512) (hs : (if at' < 256 then 256 else 512) = stop)
    (h : at' = start ∧ mem' = mem ∨ at' = start + 1 ∧ mem' = mem.set start gap) :
    (endedMem mem' at' e filler).getD i TraceEntry.empty =
      if i = at' then e else if i = start then gap else if at' < i ∧ i < stop then filler else mem.getD i TraceEntry.empty := by
  rcases h with ⟨rfl, rfl⟩ | ⟨rfl, rfl⟩
  · rw [endedMem_getD hl he e filler hi, hs]
    by_cases k : i = at'
    · rw [if_pos k, if_pos k]
    · rw [if_neg k, if_neg k, if_neg k]
  · rw [endedMem_getD (List.length_set.trans hl) he e filler hi, hs, getD_set]
    by_cases k : i = start + 1
    · rw [if_pos k, if_pos k]
    · rw [if_neg k, if_neg k]
      by_cases j : i = start
      · rw [if_pos j, if_neg (by omega), if_pos ⟨j.symm, by omega⟩]
      · rw [if_neg j]
        by_cases inside : start + 1 < i ∧ i < stop
        · rw [if_pos inside, if_pos inside]
        · rw [if_neg inside, if_neg inside, if_neg fun x => j x.1.symm]

theorem resumeWriter_closes {t : TraceUnit} {half : Nat} {r : OpenRecord} {offset : Nat} (h2 : half < 2) (hpos : t.pos = 256 * half)
    (hl : t.mem.length = 512) (h : t.opened = some r) (he : r.ended = some offset) :
    Resumed t half r offset (resumeWriter t) := by
  have gapped : writeGap { t with hold := false } = { t with
      hold := false, gap := 0, pos := if t.gap = 0 then t.pos else t.pos + 1
      mem := if t.gap = 0 then t.mem else
        t.mem.set t.pos { kind := .gap t.gap, record := r.number, offset := t.gapAt } } := by
    rw [writeGap_eq (t := { t with hold := false }) (show t.pos ≠ 255 by omega) (show t.pos ≠ 511 by omega)]
    dsimp only
    by_cases none : t.gap = 0
    · rw [if_pos none, if_pos none, if_pos none]
      exact congrArg (fun g => ({ t with hold := false, gap := g } : TraceUnit)) none
    · rw [if_neg none, if_neg none, if_neg none, h]
      rfl
  have place : (if t.gap = 0 then t.pos else t.pos + 1) = t.pos ∧ (if t.gap = 0 then t.mem else
        t.mem.set t.pos { kind := .gap t.gap, record := r.number, offset := t.gapAt }) = t.mem ∨
      (if t.gap = 0 then t.pos else t.pos + 1) = t.pos + 1 ∧ (if t.gap = 0 then t.mem else
        t.mem.set t.pos { kind := .gap t.gap, record := r.number, offset := t.gapAt }) =
        t.mem.set t.pos { kind := .gap t.gap, record := r.number, offset := t.gapAt } := by
    by_cases none : t.gap = 0
    · exact .inl ⟨if_pos none, if_pos none⟩
    · exact .inr ⟨if_neg none, if_neg none⟩
  rw [resumeWriter_ended h he, gapped]
  have mem (i : Nat) (hi : i < 512) := resumedMem (mem := t.mem) (start := t.pos) (stop := 256 * half + 256) hl
    (gap := { kind := .gap t.gap, record := r.number, offset := t.gapAt })
    (e := { kind := .finish r.count, record := r.number, offset := offset })
    (filler := { kind := .empty, record := r.number, offset := offset }) hi
    (by rcases place with ⟨p, -⟩ | ⟨p, -⟩ <;> omega) (by rcases place with ⟨p, -⟩ | ⟨p, -⟩ <;> rw [p] <;> split <;> omega) place
  generalize hat : (if t.gap = 0 then t.pos else t.pos + 1) = at' at place mem ⊢
  generalize (if t.gap = 0 then t.mem else t.mem.set t.pos { kind := .gap t.gap, record := r.number, offset := t.gapAt }) = m at place mem ⊢
  rcases half_cases h2 with rfl | rfl
  · rw [closeRecord_low (show at' < 256 by rcases place with ⟨p, -⟩ | ⟨p, -⟩ <;> omega)]
    exact ⟨rfl, rfl, rfl, rfl, rfl, rfl, fun i hi => by rw [hat]; exact mem i hi⟩
  · rw [closeRecord_high (show ¬ at' < 256 by rcases place with ⟨p, -⟩ | ⟨p, -⟩ <;> omega)]
    exact ⟨rfl, rfl, rfl, rfl, rfl, rfl, fun i hi => by rw [hat]; exact mem i hi⟩

/-- A change that makes no half ready ends its event. -/
theorem finish_traceChanged (s : State) {t x : TraceUnit} (h0 : x.ready0 = t.ready0) (h1 : x.ready1 = t.ready1) :
    finish ((Work.idle (s.setTrace t)).setTrace x) = .next (s.setTrace x).arbitrate := by
  rw [Work.setTrace_silent (by rw [h0]; exact fun k => k) (by rw [h1]; exact fun k => k)]
  exact finish_idle rfl

/-- A change that makes one half ready, alone in its event, raises the TRACE notice. -/
theorem finish_halfReady {s : State} {half : Nat} (h : half < 2) (hl : s.gate.notices.length = 7) {w : Work} (hw : w = Work.idle s)
    {t : TraceUnit} (on : t.ready half = true) (off : s.trace.ready half = false) (other : t.ready (1 - half) = s.trace.ready (1 - half)) :
    ∃ n : List Notice, finish (w.setTrace t) = .next ((s.setTrace t).withNotices n).arbitrate ∧
      (((s.setTrace t).withNotices n).notice .trace).flag = true := by
  have e : w.setTrace t = Work.ending (s.setTrace t) [half] [] := by
    rw [hw]
    rcases half_cases h with rfl | rfl
    · exact Work.setTrace_low on off fun k => by
        rw [← k]
        exact other.symm
    · exact Work.setTrace_high on off fun k => by
        rw [← k]
        exact other.symm
  have lead : Leads 1 (Work.ending (s.setTrace t) [half] [])
      (Work.waiting ((s.setTrace t).raiseNotice .trace ((s.setTrace t).traceContent half)) []) :=
    Leads.take (a := .traceNotice half) (w' := Work.ending (s.setTrace t) [] []) rfl
  rw [e]
  refine ⟨_, lead.finish (by unfold Config.cascadeLimit; omega) rfl, ?_⟩
  exact congrArg Notice.flag (notice_raiseNotice (s.setTrace t) .trace ((s.setTrace t).traceContent half) hl)

/-- The writer that closes its kept record, to the end of the event. -/
theorem finish_resumed {s : State} {t : TraceUnit} {half : Nat} {r : OpenRecord} {offset : Nat} (h2 : half < 2)
    (hpos : t.pos = 256 * half) (hl : s.gate.notices.length = 7) (length : t.mem.length = 512) (h : t.opened = some r)
    (he : r.ended = some offset) (off : t.ready half = false) :
    ∃ n x, finish ((Work.idle (s.setTrace t)).setTrace (resumeWriter t)) = .next ((s.setTrace x).withNotices n).arbitrate ∧
      Resumed t half r offset x ∧ (((s.setTrace x).withNotices n).notice .trace).flag = true := by
  have closed := resumeWriter_closes h2 hpos length h he
  generalize resumeWriter t = x at closed
  obtain ⟨n, run, flag⟩ := finish_halfReady (s := s.setTrace t) h2 hl rfl closed.ready off closed.other
  exact ⟨n, x, run, closed, flag⟩

theorem State.heardReply_kept (s : State) (src : Byte) (r : Result) : ((s.heardFrom src).reply src r).seq = s.seq ∧
    ((s.heardFrom src).reply src r).fault = s.fault ∧ ((s.heardFrom src).reply src r).points = s.points ∧
    ((s.heardFrom src).reply src r).store = s.store := by
  rw [State.heardFrom_eq]
  exact ⟨rfl, rfl, rfl, rfl⟩

theorem exec_traceRelease {s : State} {src half : Byte} (m : s.manages src) (h : half.toNat < 2) :
    exec (.traceRelease src half) s = finish (doRelease src half.toNat (Work.idle (s.heardFrom src))) := by
  have e : exec (.traceRelease src half) s = request src 13 [half] s := rfl
  rw [e, request_performed m (by decide) (by simp) (q := .traceRelease half.toNat)
    (by rw [readRequest_traceRelease, readIndex_of_small h]; rfl) (.inr rfl)]
  rfl

end Sys2Proof.Machine

section
open Sys2Proof Sys2Proof.Machine

/-- Settles O49: entries, the start and the end of a record, and what a release resumes. -/
theorem traceReleased : Obligations.TraceReleased := by
  unfold Obligations.TraceReleased
  refine ⟨fun w k => ⟨fun idle => Work.trace_none idle k, fun r opened => ?_⟩, fun w n => ⟨Work.traceTop_idle, fun traced idle =>
    Work.traceTop_begins traced idle⟩, fun w => ⟨Work.traceFinish_none, fun r opened length inside => ?_⟩, fun s src half m h2 => ?_⟩
  · have going (he : r.ended = none) : w.trace k = w.setTrace (traceEntry w.st r k) := Work.trace_open opened he k
    have unit (he : r.ended = none) : (w.trace k).st.trace = traceEntry w.st r k := by rw [going he, Work.setTrace_st]; rfl
    refine ⟨fun he => ?_, fun he => ?_, fun he hold => ?_, fun he hold => ⟨fun low high => ?_, fun low => ⟨?_, fun off => ?_⟩,
      fun high => ⟨?_, fun off => ?_⟩⟩⟩
    · obtain ⟨o, ho⟩ := Option.isSome_iff_exists.1 he
      exact Work.trace_ended opened ho k
    · rw [unit he, going he]
      exact Work.setTrace_eq _ _
    · rw [unit he, traceEntry_held hold]
    · rw [unit he, traceEntry_written hold]
      exact TraceUnit.write_inside _ low high
    · rw [unit he, traceEntry_written hold]
      exact TraceUnit.write_low _ low
    · have e := TraceUnit.write_low (t := { w.st.trace with opened := some { r with count := min (r.count + 1) 65535 } })
        { kind := k, record := r.number, offset := min (w.st.clock - r.start) 65535 } low
      rw [← traceEntry_written hold] at e
      rw [going he, Work.setTrace_low (t := traceEntry w.st r k) (by rw [e]) off (by rw [e]; exact id)]
      exact Work.fin_mem _ _
    · rw [unit he, traceEntry_written hold]
      exact TraceUnit.write_high _ high
    · have e := TraceUnit.write_high (t := { w.st.trace with opened := some { r with count := min (r.count + 1) 65535 } })
        { kind := k, record := r.number, offset := min (w.st.clock - r.start) 65535 } high
      rw [← traceEntry_written hold] at e
      rw [going he, Work.setTrace_high (t := traceEntry w.st r k) (by rw [e]) off (by rw [e]; exact id)]
      exact Work.fin_mem _ _
  · refine ⟨Work.traceFinish_over opened, fun he hold => ?_, fun he hold => ?_⟩
    · rw [Work.traceFinish_held opened he hold]
      rfl
    · rw [Work.traceFinish_written opened he hold, Work.setTrace_st]
      by_cases low : w.st.trace.pos < 256
      · rw [closeRecord_low low]
        refine ⟨rfl, rfl, rfl, endedMem_length length inside _ _, fun i hi => endedMem_getD length inside _ _ hi,
          fun _ => ⟨rfl, rfl, rfl, rfl⟩, fun k => absurd low (by omega)⟩
      · rw [closeRecord_high low]
        refine ⟨rfl, rfl, rfl, endedMem_length length inside _ _, fun i hi => endedMem_getD length inside _ _ hi,
          fun k => absurd k low, fun _ => ⟨rfl, rfl, rfl, rfl⟩⟩
  · intro h ok freed gapEntry
    have trace : ok.trace = s.trace := by
      show (s.heardFrom src).trace = s.trace
      rw [State.heardFrom_eq]
    have ready : h.trace = s.trace := trace
    obtain ⟨pos, hold, gap, gapAt, open', mem⟩ := s.trace.setReady_kept half.toNat false
    have run (on : s.trace.ready half.toNat = true) : exec (.traceRelease src half) s =
        finish ((Work.idle (ok.setTrace freed)).setTrace (afterRelease freed half.toNat)) := by
      have e := Work.release_eq (Work.idle ok) h2
      rw [Work.idle_st, trace] at e
      rw [exec_traceRelease m h2, doRelease, if_pos (by rw [Work.idle_st, ready, on])]
      exact congrArg finish e
    have resumes (holds : s.trace.hold = true) (start : s.trace.pos = 256 * half.toNat) : afterRelease freed half.toNat = resumeWriter freed := by
      refine afterRelease_here (hold.trans holds) ((congrArg halfOf (pos.trans start)).trans ?_)
      rcases half_cases h2 with k | k <;> rw [k] <;> rfl
    have inside (start : s.trace.pos = 256 * half.toNat) : freed.pos ≠ 255 ∧ freed.pos ≠ 511 := by
      have e : freed.pos = 256 * half.toNat := pos.trans start
      omega
    refine ⟨fun off => ?_, fun on elsewhere => ?_, fun on holds start => ⟨fun none going => ?_, fun r lost opened he => ?_,
      fun r offset opened he sized => ?_⟩⟩
    · rw [exec_traceRelease m h2, doRelease, if_neg (by rw [Work.idle_st, ready, off]; decide)]
      exact finish_idle rfl
    · rw [run on, afterRelease_elsewhere (by rw [hold, pos]; exact elsewhere)]
      exact finish_traceChanged ok rfl rfl
    · obtain ⟨low, high⟩ := inside start
      rw [run on, resumes holds start, resumeWriter_going (by rw [open']; exact going), writeGap_eq (t := { freed with hold := false }) low high,
        if_pos (gap.trans none)]
      exact finish_traceChanged ok rfl rfl
    · obtain ⟨low, high⟩ := inside start
      have going (r' : OpenRecord) (k : freed.opened = some r') : r'.ended = none := by
        have same := open'.symm.trans k
        rw [opened] at same
        cases same
        exact he
      rw [run on, resumes holds start, resumeWriter_going going, writeGap_eq (t := { freed with hold := false }) low high,
        if_neg (fun k : freed.gap = 0 => by have := gap.symm.trans k; omega)]
      have written : ({ freed with
          hold := false, gap := 0, pos := freed.pos + 1
          mem := freed.mem.set freed.pos { kind := .gap freed.gap, record := (freed.opened.map OpenRecord.number).getD 0, offset := freed.gapAt } } :
            TraceUnit) =
          { freed with hold := false, gap := 0, mem := s.trace.mem.set s.trace.pos (gapEntry r), pos := s.trace.pos + 1 } := by
        rw [show freed.mem = s.trace.mem from mem, show freed.pos = s.trace.pos from pos, show freed.gap = s.trace.gap from gap,
          show freed.gapAt = s.trace.gapAt from gapAt, show freed.opened = some r from open'.trans opened]
        rfl
      rw [← written]
      exact finish_traceChanged ok rfl rfl
    · obtain ⟨points, conds, runs, triggers, circuits, roles, lines, sense, slots, notices, length, inside⟩ := sized
      have other : freed.ready (1 - half.toNat) = s.trace.ready (1 - half.toNat) := by
        rcases half_cases h2 with k | k
        all_goals
          simp only [freed, k]
          rfl
      have off : freed.ready half.toNat = false := by
        rcases half_cases h2 with k | k
        all_goals
          simp only [freed, k]
          rfl
      obtain ⟨n, x, finished, closed, flag⟩ := finish_resumed (s := ok) (t := freed) h2 (pos.trans start)
        (by show (s.heardFrom src).gate.notices.length = 7; rw [State.heardFrom_eq]; exact notices)
        (by rw [show freed.mem = s.trace.mem from mem]; exact length) (open'.trans opened) he off
      obtain ⟨c1, c2, c3, c4, c5, c6, c7⟩ := closed
      rw [run on, resumes holds start]
      rw [show freed.gap = s.trace.gap from gap, show freed.pos = s.trace.pos from pos, show freed.gapAt = s.trace.gapAt from gapAt,
        show freed.mem = s.trace.mem from mem] at c7
      obtain ⟨seq, fault, points, store⟩ := s.heardReply_kept src (.ok [])
      change ok.seq = s.seq at seq
      change ok.fault = s.fault at fault
      change ok.points = s.points at points
      change ok.store = s.store at store
      clear_value ok freed
      exact ⟨_, finished, c1, c2, c3, c4.trans other, c5, c6.trans other, c7, flag, rfl, seq, fault, points, store⟩

end
end

section
/-! SUPPORT. Table entries and their bytes (R164, R168, Table 44): points, conditions, the flue record, the device settings. -/

namespace Sys2Proof.Machine

/-! ### Codes -/

/-- The value that the byte of its code names. -/
theorem getElem_codeOf {α : Type} [DecidableEq α] {l : List α} {x : α} (hx : x ∈ l) (hl : l.length ≤ 256) :
    l[(u8 (codeOf l x)).toNat]? = some x := by
  have inside : codeOf l x < l.length := List.findIdx_lt_length_of_exists ⟨x, hx, by simp⟩
  rw [toNat_u8 (by omega), List.getElem?_eq_getElem inside]
  exact congrArg some (of_decide_eq_true (List.findIdx_getElem (w := inside)))

theorem PointKind.listed (k : PointKind) : k ∈ PointKind.all := by cases k <;> decide
theorem CondKind.listed (k : CondKind) : k ∈ CondKind.all := by cases k <;> decide
theorem OutMode.listed (k : OutMode) : k ∈ OutMode.all := by cases k <;> decide
theorem StepClass.listed (k : StepClass) : k ∈ StepClass.all := by cases k <;> decide
theorem SeqClass.listed (k : SeqClass) : k ∈ SeqClass.all := by cases k <;> decide
theorem ResumeMode.listed (k : ResumeMode) : k ∈ ResumeMode.all := by cases k <;> decide
theorem RoleKind.listed (k : RoleKind) : k ∈ RoleKind.all := by cases k <;> decide

theorem within_iff (a n b : Nat) : within a n b = true ↔ a ≤ n ∧ n ≤ b := by simp [within]
theorem withinI_iff (a n b : Int) : withinI a n b = true ↔ a ≤ n ∧ n ≤ b := by simp [withinI]

/-! ### Points (R2) -/

theorem readPoint_pointBytes {e : PointEntry} (h : e.ok) : readPoint (pointBytes e) = some e := by
  obtain ⟨source, channel, off1, off2, gain, lo1, lo2, hi, k, st1, st2, input, contact⟩ := h
  obtain ⟨o1, o0, ho, ro⟩ := i16_read off1 off2
  obtain ⟨l1, l0, hl, rl⟩ := i16_read lo1 (by omega : e.plausLo ≤ 32767)
  obtain ⟨h1, h0, hh, rh⟩ := i16_read (by omega : -32768 ≤ e.plausHi) hi
  obtain ⟨named, flag⟩ := flagByte_one e.inUse
  unfold pointBytes
  rw [ho, hl, hh]
  simp only [u16, List.cons_append, List.nil_append]
  unfold readPoint
  dsimp only
  rw [getElem_codeOf e.kind.listed (by decide)]
  dsimp only
  rw [toNat_u8 (n := e.source) (by omega), toNat_u8 (n := e.channel) (by omega), toNat_u8 (n := e.k) (by omega),
    toNat_u8 (n := e.staleLimit) (by omega), n16_u16 e.gain (by omega), ro, rl, rh, flag, named]
  refine if_pos ?_
  simp only [Bool.and_eq_true, Bool.or_eq_true, within_iff, decide_eq_true_eq, bne_iff_ne, true_and]
  refine ⟨⟨⟨⟨⟨⟨source, channel⟩, k⟩, st1, st2⟩, lo2⟩, ?_⟩, ?_⟩
  · by_cases k : e.source = 0
    · exact .inr (input k)
    · exact .inl k
  · by_cases k : e.kind = .contact
    · exact .inr (contact k)
    · exact .inl k

theorem readPoint_some {bs : List Byte} {e : PointEntry} (h : readPoint bs = some e) : e.ok ∧ pointBytes e = bs := by
  unfold readPoint at h
  split at h
  · next src ch kd o1 o0 g1 g0 fl lo1 lo0 hi1 hi0 k st =>
    split at h
    · next kind hk =>
      dsimp only at h
      split at h
      · next c =>
        simp only [Bool.and_eq_true, Bool.or_eq_true, within_iff, decide_eq_true_eq, bne_iff_ne] at c
        obtain ⟨⟨⟨⟨⟨⟨⟨flags, source⟩, channel⟩, k4⟩, stale⟩, order⟩, input⟩, contact⟩ := c
        cases h
        refine ⟨⟨source, channel, (s16_range o1 o0).1, (s16_range o1 o0).2, Nat.le_of_lt_succ (n16_lt g1 g0), (s16_range lo1 lo0).1, order,
          (s16_range hi1 hi0).2, k4, stale.1, stale.2, fun k => input.resolve_left fun j => j k, fun k => contact.resolve_left fun j => j k⟩, ?_⟩
        unfold pointBytes
        dsimp only
        rw [i16_s16, i16_s16, i16_s16, u16_n16, u8_self, u8_self, u8_self, u8_self, codeOf_getElem (by decide) hk, flagByte_bits.1 fl flags]
        rfl
      · cases h
    · cases h
  · cases h

/-! ### Conditions (R20) -/

/-- Whether the fields that the kind reads are in range, spelled out. -/
theorem condFieldsOk_iff (e : CondEntry) : condFieldsOk e = true ↔
    (e.kind = .above ∨ e.kind = .below → e.point < 24 ∧ e.hyst ≤ 32767) ∧ (e.kind = .contact → e.point < 24 ∧ e.level ≤ 1) ∧
      (e.kind = .roleConfirmed → e.role < 12) ∧ (e.kind = .both ∨ e.kind = .either → e.a < 32 ∧ e.b < 32) := by
  unfold condFieldsOk
  cases hk : e.kind <;> simp

theorem condIndicesOk_iff (e : CondEntry) : condIndicesOk e = true ↔
    (e.point < 24 ∨ e.point = 255) ∧ (e.role < 12 ∨ e.role = 255) ∧ (e.a < 32 ∨ e.a = 255) ∧ (e.b < 32 ∨ e.b = 255) := by
  unfold condIndicesOk indexOrNone
  simp only [Bool.and_eq_true, Bool.or_eq_true, decide_eq_true_eq, and_assoc]

theorem readCond_condBytes {e : CondEntry} (h : e.ok) : readCond (condBytes e) = some e := by
  obtain ⟨hold, t1, t2, point, hyst, compares, level, contact, role, a, b⟩ := h
  obtain ⟨t1', t0', ht, rt⟩ := i16_read t1 t2
  obtain ⟨named, flag⟩ := flagByte_one e.inUse
  unfold condBytes
  rw [ht]
  simp only [u16, List.cons_append, List.nil_append]
  unfold readCond
  dsimp only
  rw [getElem_codeOf e.kind.listed (by decide)]
  dsimp only
  rw [toNat_u8 (n := e.point) (by omega), toNat_u8 (n := e.level) (by omega), toNat_u8 (n := e.role) (by omega),
    toNat_u8 (n := e.a) (by omega), toNat_u8 (n := e.b) (by omega), n16_u16 e.hyst (by omega), n16_u16 e.hold (by omega), rt, flag, named]
  refine if_pos ?_
  simp only [Bool.and_eq_true, decide_eq_true_eq, condFieldsOk_iff, condIndicesOk_iff, true_and]
  refine ⟨⟨hold, ⟨fun k => ⟨?_, compares k⟩, fun k => ⟨?_, contact k⟩, fun k => ?_, fun k => ⟨?_, ?_⟩⟩⟩, ?_, ?_, ?_, ?_⟩
  · exact point.resolve_right fun j => j.2.1 k
  · exact point.resolve_right fun j => j.2.2 k
  · exact role.resolve_right fun j => j.2 k
  · exact a.resolve_right fun j => j.2 k
  · exact b.resolve_right fun j => j.2 k
  · exact point.imp_right And.left
  · exact role.imp_right And.left
  · exact a.imp_right And.left
  · exact b.imp_right And.left

theorem readCond_some {bs : List Byte} {e : CondEntry} (h : readCond bs = some e) : e.ok ∧ condBytes e = bs := by
  unfold readCond at h
  split at h
  · next kd pt t1 t0 h1 h0 lv ro a b d1 d0 fl =>
    split at h
    · next kind hk =>
      dsimp only at h
      split at h
      · next c =>
        simp only [Bool.and_eq_true, decide_eq_true_eq, condFieldsOk_iff, condIndicesOk_iff] at c
        obtain ⟨⟨⟨flags, hold⟩, compares, contact, confirmed, combines⟩, point, role, ha, hb⟩ := c
        cases h
        refine ⟨⟨hold, (s16_range t1 t0).1, (s16_range t1 t0).2, ?_, Nat.le_of_lt_succ (n16_lt h1 h0), fun k => (compares k).2,
          Nat.le_of_lt_succ lv.isLt, fun k => (contact k).2, ?_, ?_, ?_⟩, ?_⟩
        · refine point.imp_right fun k => ⟨k, fun j => ?_, fun j => ?_⟩
          · have := (compares j).1
            dsimp only at this k
            omega
          · have := (contact j).1
            dsimp only at this k
            omega
        · refine role.imp_right fun k => ⟨k, fun j => ?_⟩
          have := confirmed j
          dsimp only at this k
          omega
        · refine ha.imp_right fun k => ⟨k, fun j => ?_⟩
          have := (combines j).1
          dsimp only at this k
          omega
        · refine hb.imp_right fun k => ⟨k, fun j => ?_⟩
          have := (combines j).2
          dsimp only at this k
          omega
        · unfold condBytes
          dsimp only
          rw [i16_s16, u16_n16, u16_n16, u8_self, u8_self, u8_self, u8_self, u8_self, codeOf_getElem (by decide) hk,
            flagByte_bits.1 fl flags]
          rfl
      · cases h
    · cases h
  · cases h

/-! ### The flue record (R38) -/

theorem readFlue_flueBytes {e : FlueRecord} (h : e.ok) : readFlue (flueBytes e) = some e := by
  obtain ⟨draught, flue, spill, room, dReq, dBlock, c1, c2, w1, w2, rCold, rWarm, rise1, rise2, sDelta, kW, aMax⟩ := h
  obtain ⟨tc1, tc0, hc, rc⟩ := i16_read (by omega : -32768 ≤ e.tCold) (by omega)
  obtain ⟨tw1, tw0, hw, rw'⟩ := i16_read (by omega : -32768 ≤ e.tWarm) (by omega)
  unfold flueBytes
  rw [hc, hw]
  simp only [u16, List.cons_append, List.nil_append]
  unfold readFlue
  dsimp only
  rw [readOptIndex_indexByte (by decide) _ draught, readOptIndex_indexByte (by decide) _ flue, readOptIndex_indexByte (by decide) _ spill,
    readOptIndex_indexByte (by decide) _ room]
  dsimp only
  rw [toNat_u8 (n := e.kW) (by omega), n16_u16 e.dReq (by omega), n16_u16 e.dBlock (by omega), n16_u16 e.rCold (by omega),
    n16_u16 e.rWarm (by omega), n16_u16 e.riseWindow (by omega), n16_u16 e.sDelta (by omega), n16_u16 e.aMax (by omega), rc, rw']
  refine if_pos ?_
  simp only [Bool.and_eq_true, within_iff, withinI_iff, decide_eq_true_eq]
  exact ⟨⟨⟨⟨⟨⟨⟨⟨dReq, dBlock⟩, c1, c2⟩, w1, w2⟩, rCold⟩, rWarm⟩, rise1, rise2⟩, sDelta⟩, aMax⟩

theorem readFlue_some {bs : List Byte} {e : FlueRecord} (h : readFlue bs = some e) : e.ok ∧ flueBytes e = bs := by
  unfold readFlue at h
  split at h
  · next dp fp sp rp q1 q0 b1 b0 c1 c0 w1 w0 rc1 rc0 rw1 rw0 rise1 rise0 sd1 sd0 kw a1 a0 =>
    split at h
    · next d f sp' r hd hf hs hr =>
      dsimp only at h
      split at h
      · next c =>
        simp only [Bool.and_eq_true, within_iff, withinI_iff, decide_eq_true_eq] at c
        obtain ⟨⟨⟨⟨⟨⟨⟨⟨dReq, dBlock⟩, cold⟩, warm⟩, rCold⟩, rWarm⟩, rise⟩, sDelta⟩, aMax⟩ := c
        cases h
        obtain ⟨draught, ed⟩ := indexByte_readOptIndex hd
        obtain ⟨flue, ef⟩ := indexByte_readOptIndex hf
        obtain ⟨spill, es⟩ := indexByte_readOptIndex hs
        obtain ⟨room, er⟩ := indexByte_readOptIndex hr
        refine ⟨⟨draught, flue, spill, room, dReq, dBlock, cold.1, cold.2, warm.1, warm.2, rCold, rWarm, rise.1, rise.2, sDelta,
          Nat.le_of_lt_succ kw.isLt, aMax⟩, ?_⟩
        unfold flueBytes
        dsimp only
        rw [i16_s16, i16_s16, u16_n16, u16_n16, u16_n16, u16_n16, u16_n16, u16_n16, u16_n16, u8_self, ed, ef, es, er]
        rfl
      · cases h
    · cases h
  · cases h

/-! ### The device settings (R164) -/

theorem readDevice_deviceBytes {e : DeviceEntry} (h : e.ok) : readDevice (deviceBytes e) = some e := by
  obtain ⟨a1, a2, start, lockout, ab1, ab2, r1, r2⟩ := h
  obtain ⟨named, pass, unlock⟩ := flagByte_two e.passUnrouted e.unlockHigh
  unfold deviceBytes readDevice
  dsimp only
  rw [toNat_u8 (n := e.ctlAddr) (by omega), toNat_u8 (n := e.startSeq) (by omega), toNat_u8 (n := e.lockoutSeq) (by omega),
    toNat_u8 (n := e.absenceTimeout) (by omega), toNat_u8 (n := e.refresh) (by omega), pass, unlock, named]
  refine if_pos ?_
  simp only [Bool.and_eq_true, within_iff, decide_eq_true_eq, and_true]
  exact ⟨⟨⟨⟨⟨a1, a2⟩, start⟩, lockout⟩, ab1, ab2⟩, r1, r2⟩

theorem readDevice_some {bs : List Byte} {e : DeviceEntry} (h : readDevice bs = some e) : e.ok ∧ deviceBytes e = bs := by
  unfold readDevice at h
  split at h
  · next ad st lo ab rf fl =>
    split at h
    · next c =>
      simp only [Bool.and_eq_true, within_iff, decide_eq_true_eq] at c
      obtain ⟨⟨⟨⟨⟨address, start⟩, lockout⟩, absence⟩, refresh⟩, flags⟩ := c
      cases h
      refine ⟨⟨address.1, address.2, start, lockout, absence.1, absence.2, refresh.1, refresh.2⟩, ?_⟩
      unfold deviceBytes
      dsimp only
      rw [u8_self, u8_self, u8_self, u8_self, u8_self, flagByte_bits.2.1 fl flags]
    · cases h
  · cases h

end Sys2Proof.Machine
end

section
/-! SUPPORT. Table entries and their bytes (R164, R168, Table 44): outputs, roles, circuits, sequences. -/

namespace Sys2Proof.Machine

/-! ### Outputs (R57, R168) -/

theorem codeOf_of_getElem {α : Type} [DecidableEq α] {l : List α} (hn : l.Nodup) {i : Nat} {x : α} (h : l[i]? = some x) :
    codeOf l x = i := by
  obtain ⟨hl, hx⟩ := List.getElem?_eq_some_iff.1 h
  unfold codeOf
  rw [List.findIdx_eq hl]
  refine ⟨by simp [hx], fun j hj => ?_⟩
  simp only [decide_eq_false_iff_not]
  intro he
  exact absurd (he.trans hx.symm) (List.pairwise_iff_getElem.1 hn j i (by omega) hl hj)

theorem codeOf_lt {α : Type} [DecidableEq α] {l : List α} {x : α} (hx : x ∈ l) : codeOf l x < l.length :=
  List.findIdx_lt_length_of_exists ⟨x, hx, by simp⟩

theorem getElem_codeOf_self {α : Type} [DecidableEq α] {l : List α} {x : α} (hx : x ∈ l) : l[codeOf l x]? = some x := by
  rw [List.getElem?_eq_getElem (codeOf_lt hx)]
  exact congrArg some (of_decide_eq_true (List.findIdx_getElem (w := codeOf_lt hx)))

theorem readOutput_outputBytes {o : Output} (h : o.ok) : ∃ hi lo, outputBytes o = [hi, lo] ∧ readOutput hi lo = some o := by
  obtain ⟨value, level⟩ := h
  have code : codeOf OutMode.all o.mode < 4 := codeOf_lt o.mode.listed
  refine ⟨_, _, rfl, ?_⟩
  unfold readOutput
  dsimp only
  rw [n16_u16 _ (by omega), show (codeOf OutMode.all o.mode * 16384 + o.value % 1024) / 16384 = codeOf OutMode.all o.mode by omega,
    getElem_codeOf_self o.mode.listed]
  dsimp only
  rw [show (codeOf OutMode.all o.mode * 16384 + o.value % 1024) % 1024 = o.value by omega]
  exact if_pos ⟨by omega, level⟩

theorem readOutput_some {hi lo : Byte} {o : Output} (h : readOutput hi lo = some o) : o.ok ∧ outputBytes o = [hi, lo] := by
  unfold readOutput at h
  dsimp only at h
  split at h
  · next m hm =>
    split at h
    · next c =>
      obtain ⟨spare, level⟩ := c
      cases h
      refine ⟨⟨Nat.mod_lt _ (by decide), level⟩, ?_⟩
      unfold outputBytes
      dsimp only
      rw [codeOf_of_getElem (by decide) hm, show n16 hi lo / 16384 * 16384 + n16 hi lo % 1024 % 1024 = n16 hi lo by omega, u16_n16]
    · cases h
  · cases h

theorem outputBytes_length (o : Output) : (outputBytes o).length = 2 := rfl

theorem outputsBytes_length (os : List Output) : (os.map outputBytes).flatten.length = 2 * os.length := by
  induction os with
  | nil => rfl
  | cons o os ih => rw [List.map_cons, List.flatten_cons, List.length_append, ih, outputBytes_length, List.length_cons]; omega

theorem readOutputs_bytes {os : List Output} (h : ∀ o ∈ os, o.ok) : readOutputs (os.map outputBytes).flatten = some os := by
  induction os with
  | nil => rfl
  | cons o os ih =>
    obtain ⟨hi, lo, bytes, read⟩ := readOutput_outputBytes (h o List.mem_cons_self)
    rw [List.map_cons, List.flatten_cons, bytes, List.cons_append, List.cons_append, List.nil_append, readOutputs, read,
      ih fun x hx => h x (List.mem_cons_of_mem o hx)]

theorem readOutputs_some : ∀ {bs : List Byte} {os : List Output}, readOutputs bs = some os →
    (∀ o ∈ os, o.ok) ∧ (os.map outputBytes).flatten = bs
  | [], os, h => by
    cases h
    exact ⟨fun o k => (nomatch k), rfl⟩
  | [b], os, h => by cases h
  | hi :: lo :: bs, os, h => by
    rw [readOutputs] at h
    split at h
    · next o os' ho hos =>
      cases h
      obtain ⟨ok, bytes⟩ := readOutput_some ho
      obtain ⟨oks, rest⟩ := readOutputs_some hos
      refine ⟨fun x hx => ?_, by rw [List.map_cons, List.flatten_cons, bytes, rest]; rfl⟩
      rcases List.mem_cons.1 hx with rfl | hx
      · exact ok
      · exact oks x hx
    · cases h

/-! ### Roles (R114) -/

/-- A target in its range. -/
def Target.ok : Target → Prop
  | .none => True
  | .line l => l < 8
  | .field n c => 2 ≤ n ∧ n ≤ 47 ∧ c ≤ 15

theorem RoleEntry.ok_iff (e : RoleEntry) : e.ok ↔ e.target.ok ∧ e.tolerance ≤ 100 ∧ 1 ≤ e.confirmWindow ∧ e.confirmWindow ≤ 60 ∧
    e.ctlMin ≤ e.ctlMax ∧ e.ctlMax ≤ 1000 := by
  unfold RoleEntry.ok Target.ok
  cases e.target <;> exact Iff.rfl

theorem readTarget_targetBytes {t : Target} (h : t.ok) : ∃ ty x ch, targetBytes t = [ty, x, ch] ∧ readTarget ty x ch = some t := by
  cases t with
  | none => exact ⟨_, _, _, rfl, rfl⟩
  | line l =>
    have small : l < 8 := h
    refine ⟨_, _, _, rfl, ?_⟩
    show (if (u8 l).toNat < 8 then some (Target.line (u8 l).toNat) else none) = _
    rw [toNat_u8 (by omega), if_pos small]
  | field n c =>
    obtain ⟨n2, n47, c15⟩ := h
    refine ⟨_, _, _, rfl, ?_⟩
    show (if within 2 (u8 n).toNat 47 && (u8 c).toNat ≤ 15 then some (Target.field (u8 n).toNat (u8 c).toNat) else none) = _
    rw [toNat_u8 (by omega), toNat_u8 (by omega), if_pos]
    simp only [Bool.and_eq_true, within_iff, decide_eq_true_eq]
    exact ⟨⟨n2, n47⟩, c15⟩

/-- A target read: its bytes, but for those that its type does not use. -/
theorem readTarget_some {ty x ch : Byte} {t : Target} (h : readTarget ty x ch = some t) : t.ok ∧
    (ty = 0 ∧ targetBytes t = [0, 0, 0] ∨ ty = 1 ∧ targetBytes t = [1, x, 0] ∨ targetBytes t = [ty, x, ch]) := by
  unfold readTarget at h
  split at h
  · next zero =>
    cases h
    exact ⟨trivial, .inl ⟨BitVec.eq_of_toNat_eq zero, rfl⟩⟩
  · next one =>
    split at h
    · next small =>
      cases h
      exact ⟨small, .inr (.inl ⟨BitVec.eq_of_toNat_eq one, by rw [targetBytes, u8_self]⟩)⟩
    · cases h
  · next two =>
    split at h
    · next c =>
      simp only [Bool.and_eq_true, within_iff, decide_eq_true_eq] at c
      obtain ⟨⟨n2, n47⟩, c15⟩ := c
      cases h
      exact ⟨⟨n2, n47, c15⟩, .inr (.inr (by rw [targetBytes, u8_self, u8_self, BitVec.eq_of_toNat_eq (y := 2#8) two]; rfl))⟩
    · cases h
  · cases h

theorem readRole_roleBytes {e : RoleEntry} (h : e.ok) : readRole (roleBytes e) = some e := by
  obtain ⟨target, tolerance, window1, window2, order, most⟩ := e.ok_iff.1 h
  obtain ⟨ty, x, ch, bytes, read⟩ := readTarget_targetBytes target
  obtain ⟨named, flag⟩ := flagByte_one e.ctlAllowed
  unfold roleBytes
  rw [bytes]
  simp only [u16, List.cons_append, List.nil_append]
  unfold readRole
  dsimp only
  rw [getElem_codeOf e.kind.listed (by decide), read]
  dsimp only
  rw [toNat_u8 (n := e.tolerance) (by omega), toNat_u8 (n := e.confirmWindow) (by omega), n16_u16 e.ctlMin (by omega),
    n16_u16 e.ctlMax (by omega), flag, named]
  refine if_pos ?_
  simp only [Bool.and_eq_true, within_iff, decide_eq_true_eq, true_and]
  exact ⟨⟨⟨tolerance, window1, window2⟩, most⟩, order⟩

theorem readRole_some {bs : List Byte} {e : RoleEntry} (h : readRole bs = some e) :
    e.ok ∧ bs.length = 11 ∧ ∀ j, j < bs.length → ¬ unusedPlace .role bs j → (roleBytes e)[j]? = bs[j]? := by
  unfold readRole at h
  split at h
  · next kd ty x ch tol cw fl mn1 mn0 mx1 mx0 =>
    split at h
    · next kind target hk ht =>
      dsimp only at h
      split at h
      · next c =>
        simp only [Bool.and_eq_true, within_iff, decide_eq_true_eq] at c
        obtain ⟨⟨⟨⟨flags, tolerance⟩, window⟩, most⟩, order⟩ := c
        cases h
        obtain ⟨ok, bytes⟩ := readTarget_some ht
        refine ⟨(RoleEntry.ok_iff _).2 ⟨ok, tolerance, window.1, window.2, order, most⟩, rfl, fun j hj used => ?_⟩
        have e : roleBytes
              { kind := kind, target := target, tolerance := tol.toNat, confirmWindow := cw.toNat, ctlAllowed := bitOf fl 0
                ctlMin := n16 mn1 mn0, ctlMax := n16 mx1 mx0 } = kd :: targetBytes target ++ [tol, cw, fl, mn1, mn0, mx1, mx0] := by
          unfold roleBytes
          dsimp only
          rw [u8_self, u8_self, codeOf_getElem (by decide) hk, flagByte_bits.1 fl flags, u16_n16, u16_n16]
          simp
        rw [e]
        rcases bytes with ⟨rfl, bytes⟩ | ⟨rfl, bytes⟩ | bytes
        · rw [bytes]
          have off2 : j ≠ 2 := fun k => used (.inl ⟨rfl, .inl k⟩)
          have off3 : j ≠ 3 := fun k => used (.inl ⟨rfl, .inr k⟩)
          match j, off2, off3 with
          | 0, _, _ | 1, _, _ => rfl
          | 2, off2, _ => exact absurd rfl off2
          | 3, _, off3 => exact absurd rfl off3
          | j + 4, _, _ => rfl
        · rw [bytes]
          have off3 : j ≠ 3 := fun k => used (.inr ⟨rfl, k⟩)
          match j, off3 with
          | 0, _ | 1, _ | 2, _ => rfl
          | 3, off3 => exact absurd rfl off3
          | j + 4, _ => rfl
        · rw [bytes]
          rfl
      · cases h
    · cases h
  · cases h

/-! ### Circuits (R98) -/

theorem readTier_tierBytes {x : Option TierRole} (h : ∀ y ∈ x, y.ok) :
    ∃ r hi lo, tierBytes x = [r, hi, lo] ∧ readTier r hi lo = some x := by
  cases x with
  | none => exact ⟨_, _, _, rfl, by decide⟩
  | some y =>
    obtain ⟨low, high, mode, ok⟩ := h y rfl
    obtain ⟨hi, lo, bytes, read⟩ := readOutput_outputBytes ok
    refine ⟨u8 y.role, hi, lo, by rw [tierBytes, bytes], ?_⟩
    unfold readTier
    rw [toNat_u8 (by omega), if_neg (by omega), read]
    exact if_pos ⟨(within_iff _ _ _).2 ⟨low, high⟩, mode⟩

/-- A tier-1 place read: its bytes, but for the output of a place with role NONE. -/
theorem readTier_some {r hi lo : Byte} {x : Option TierRole} (h : readTier r hi lo = some x) :
    (∀ y ∈ x, y.ok) ∧ (r = 255 ∧ tierBytes x = [255, 0, 0] ∨ tierBytes x = [r, hi, lo]) := by
  unfold readTier at h
  split at h
  · next none' =>
    split at h
    · cases h
      exact ⟨fun y k => (nomatch k), .inl ⟨BitVec.eq_of_toNat_eq none', rfl⟩⟩
    · cases h
  · split at h
    · next o ho =>
      split at h
      · next c =>
        obtain ⟨range, mode⟩ := c
        obtain ⟨low, high⟩ := (within_iff _ _ _).1 range
        obtain ⟨ok, bytes⟩ := readOutput_some ho
        cases h
        refine ⟨fun y hy => ?_, .inr ?_⟩
        · cases hy
          exact ⟨low, high, mode, ok⟩
        · rw [tierBytes, bytes, u8_self]
      · cases h
    · cases h

theorem tiersDiffer_iff (a b : Option TierRole) : tiersDiffer a b = true ↔ ∀ x ∈ a, ∀ y ∈ b, x.role ≠ y.role := by
  cases a <;> cases b <;> simp [tiersDiffer]

theorem readIndex_u8 {n i : Nat} (h : i < n) (hn : n ≤ 256) : readIndex n (u8 i) = some i := by
  unfold readIndex
  rw [toNat_u8 (by omega), if_pos h]

theorem readIndex_some {n i : Nat} {b : Byte} (h : readIndex n b = some i) : i < n ∧ u8 i = b := by
  unfold readIndex at h
  split at h
  · next k =>
    cases h
    exact ⟨k, u8_self b⟩
  · cases h

theorem readCircuit_circuitBytes {e : CircuitEntry} (h : e.ok) : readCircuit (circuitBytes e) = some e := by
  obtain ⟨point, t1, t2, l1, order, l2, dFb, margin, tierA, tierB, differ, tier2⟩ := h
  obtain ⟨tf1, tf0, ht, rt⟩ := i16_read (by omega : -32768 ≤ e.tF) (by omega)
  obtain ⟨r1, h1, o1, bytesA, readA⟩ := readTier_tierBytes tierA
  obtain ⟨r2, h2, o2, bytesB, readB⟩ := readTier_tierBytes tierB
  obtain ⟨named, flag⟩ := flagByte_one e.inUse
  unfold circuitBytes
  rw [ht, bytesA, bytesB]
  simp only [u16, u24, List.cons_append, List.nil_append]
  unfold readCircuit
  dsimp only
  rw [readIndex_u8 point (by decide), readA, readB, readOptIndex_indexByte (by decide) _ tier2]
  dsimp only
  rw [toNat_u8 (n := e.margin) (by omega), n24_u8 (n := e.l1) (by omega), n24_u8 (n := e.l2) (by omega), n16_u16 e.dFb (by omega), rt,
    flag, named]
  refine if_pos ?_
  simp only [Bool.and_eq_true, within_iff, withinI_iff, decide_eq_true_eq, tiersDiffer_iff, true_and, debtLimit]
  exact ⟨⟨⟨⟨⟨⟨⟨t1, t2⟩, l1, by omega⟩, by omega, l2⟩, order⟩, dFb⟩, margin⟩, differ⟩

/-- Two lists that differ only between a front and a back part, where they agree at the place asked for. -/
theorem getElem_replaced {α : Type} {pre x y post : List α} {j : Nat} (length : x.length = y.length)
    (h : ∀ k, j = pre.length + k → x[k]? = y[k]?) : (pre ++ x ++ post)[j]? = (pre ++ y ++ post)[j]? := by
  rcases Nat.lt_or_ge j pre.length with before | after
  · rw [List.append_assoc, List.append_assoc, List.getElem?_append_left before, List.getElem?_append_left before]
  · obtain ⟨k, rfl⟩ := Nat.exists_eq_add_of_le after
    rw [List.append_assoc, List.append_assoc, List.getElem?_append_right after, List.getElem?_append_right after, Nat.add_sub_cancel_left]
    rcases Nat.lt_or_ge k x.length with inside | beyond
    · rw [List.getElem?_append_left inside, List.getElem?_append_left (by omega), h k rfl]
    · rw [List.getElem?_append_right beyond, List.getElem?_append_right (by omega), length]

/-- A place with role NONE reads back as loaded where its output does not stand. -/
theorem tierPlace_agrees {r hi lo : Byte} (none' : r = 255) (k : Nat) (used : ¬ (k = 1 ∨ k = 2)) :
    ([255, 0, 0] : List Byte)[k]? = [r, hi, lo][k]? := by
  match k, used with
  | 0, _ => exact congrArg some none'.symm
  | 1, used => exact absurd (.inl rfl) used
  | 2, used => exact absurd (.inr rfl) used
  | _ + 3, _ => rfl

theorem readCircuit_some {bs : List Byte} {e : CircuitEntry} (h : readCircuit bs = some e) :
    e.ok ∧ bs.length = 20 ∧ ∀ j, j < bs.length → ¬ unusedPlace .circuit bs j → (circuitBytes e)[j]? = bs[j]? := by
  unfold readCircuit at h
  split at h
  · next pt t1 t0 la lb lc ma mb mc d1 d0 mg r1 h1 o1 r2 h2 o2 ts fl =>
    split at h
    · next point tierA tierB tier2 hp ha hb ht =>
      dsimp only at h
      split at h
      · next c =>
        simp only [Bool.and_eq_true, within_iff, withinI_iff, decide_eq_true_eq, tiersDiffer_iff, debtLimit] at c
        obtain ⟨⟨⟨⟨⟨⟨⟨flags, tF⟩, l1⟩, l2⟩, order⟩, dFb⟩, margin⟩, differ⟩ := c
        cases h
        obtain ⟨inside, pointByte⟩ := readIndex_some hp
        obtain ⟨okA, bytesA⟩ := readTier_some ha
        obtain ⟨okB, bytesB⟩ := readTier_some hb
        obtain ⟨ok2, byte2⟩ := indexByte_readOptIndex ht
        refine ⟨⟨inside, tF.1, tF.2, l1.1, order, l2.2, dFb, margin, okA, okB, differ, ok2⟩, rfl, fun j hj used => ?_⟩
        have e : circuitBytes
              { point := point, tF := s16 t1 t0, l1 := n24 la lb lc, l2 := n24 ma mb mc, dFb := n16 d1 d0
                margin := mg.toNat, tierA := tierA, tierB := tierB, tier2 := tier2, inUse := bitOf fl 0 } =
            [pt, t1, t0, la, lb, lc, ma, mb, mc, d1, d0, mg] ++ tierBytes tierA ++ tierBytes tierB ++ [ts, fl] := by
          unfold circuitBytes
          dsimp only
          rw [u8_self, pointByte, byte2, flagByte_bits.1 fl flags, u16_n16, i16_s16, u24_n24, u24_n24]
          simp
        have first (k : Nat) (place : j = 12 + k) : (tierBytes tierA)[k]? = [r1, h1, o1][k]? := by
          rcases bytesA with ⟨none', bytes⟩ | bytes
          · rw [bytes]
            refine tierPlace_agrees none' k fun h => used ?_
            exact .inl ⟨none', by omega⟩
          · rw [bytes]
        have second (k : Nat) (place : j = 15 + k) : (tierBytes tierB)[k]? = [r2, h2, o2][k]? := by
          rcases bytesB with ⟨none', bytes⟩ | bytes
          · rw [bytes]
            refine tierPlace_agrees none' k fun h => used ?_
            exact .inr ⟨none', by omega⟩
          · rw [bytes]
        have length : (tierBytes tierA).length = 3 := by rcases bytesA with ⟨-, bytes⟩ | bytes <;> rw [bytes] <;> rfl
        have length' : (tierBytes tierB).length = 3 := by rcases bytesB with ⟨-, bytes⟩ | bytes <;> rw [bytes] <;> rfl
        rw [e, List.append_assoc _ (tierBytes tierB)]
        refine (getElem_replaced length first).trans ?_
        rw [← List.append_assoc]
        exact getElem_replaced (pre := [pt, t1, t0, la, lb, lc, ma, mb, mc, d1, d0, mg, r1, h1, o1]) (x := tierBytes tierB)
          (y := [r2, h2, o2]) (post := [ts, fl]) length' second
      · cases h
    · cases h
  · cases h

/-! ### Sequences (R59) -/

theorem all_eq_replicate {b : Byte} {bs : List Byte} (h : ∀ x ∈ bs, x = b) : bs = List.replicate bs.length b :=
  List.eq_replicate_iff.2 ⟨rfl, h⟩

theorem readTracePoints_bytes {ps : List Nat} (h : ∀ p ∈ ps, p < 24) (n : Nat) :
    readTracePoints ps.length (ps.map u8 ++ List.replicate n 255) = some ps := by
  induction ps with
  | nil =>
    refine if_pos ?_
    rw [List.all_eq_true]
    intro b hb
    rw [List.eq_of_mem_replicate hb]
    rfl
  | cons p ps ih =>
    have small : p < 24 := h p List.mem_cons_self
    rw [List.length_cons, List.map_cons, List.cons_append, readTracePoints, ih fun q hq => h q (List.mem_cons_of_mem p hq)]
    dsimp only
    rw [toNat_u8 (by omega), if_pos small]

theorem readTracePoints_some {n : Nat} {bs : List Byte} {ps : List Nat} (h : readTracePoints n bs = some ps) :
    ps.length = n ∧ (∀ p ∈ ps, p < 24) ∧ ∃ m, bs = ps.map u8 ++ List.replicate m 255 := by
  induction n generalizing bs ps with
  | zero =>
    rw [readTracePoints] at h
    split at h
    · next unused =>
      cases h
      refine ⟨rfl, fun p k => (nomatch k), bs.length, ?_⟩
      refine all_eq_replicate fun b hb => BitVec.eq_of_toNat_eq ?_
      exact of_decide_eq_true (List.all_eq_true.1 unused b hb)
    · cases h
  | succ n ih =>
    cases bs with
    | nil => cases h
    | cons b bs =>
      rw [readTracePoints] at h
      split at h
      · next l hl =>
        split at h
        · next small =>
          cases h
          obtain ⟨length, range, m, bytes⟩ := ih hl
          refine ⟨congrArg (· + 1) length, fun p hp => ?_, m, by rw [List.map_cons, u8_self, bytes]; rfl⟩
          rcases List.mem_cons.1 hp with rfl | hp
          · exact small
          · exact range p hp
        · cases h
      · cases h

theorem readSeq_seqBytes {e : SeqEntry} (h : e.ok) : readSeq (seqBytes e) = some e := by
  obtain ⟨entry, priority, stop, recovery, limit1, limit3, trigger, few, points⟩ := h
  obtain ⟨named, trace, used⟩ := flagByte_two e.trace e.inUse
  have pad : padTo 4 255 (e.tracePoints.map u8) = e.tracePoints.map u8 ++ List.replicate (4 - e.tracePoints.length) 255 :=
    padTo_eq (by rw [List.length_map]; omega)
  unfold seqBytes
  rw [pad]
  simp only [List.cons_append, List.nil_append]
  unfold readSeq
  dsimp only
  rw [toNat_u8 (n := e.tracePoints.length) (by omega), if_pos ⟨few, by simp; omega⟩, readTracePoints_bytes points,
    getElem_codeOf e.cls.listed (by decide), getElem_codeOf e.resumeMode.listed (by decide), readOptIndex_indexByte (by decide) _ stop,
    readOptIndex_indexByte (by decide) _ recovery, readOptIndex_indexByte (by decide) _ trigger]
  dsimp only
  rw [toNat_u8 (n := e.entryStep) (by omega), toNat_u8 (n := e.priority) (by omega), toNat_u8 (n := e.recycleLimit) (by omega),
    trace, used, named]
  refine if_pos ?_
  simp only [Bool.and_eq_true, within_iff, decide_eq_true_eq, and_true]
  exact ⟨⟨entry, priority⟩, limit1, limit3⟩

theorem readSeq_some {bs : List Byte} {e : SeqEntry} (h : readSeq bs = some e) : e.ok ∧ seqBytes e = bs := by
  unfold readSeq at h
  split at h
  · next en cl pri sl rl lim rm tr fl n pts =>
    split at h
    · next cls stop recovery resume trigger points hc hs hr hm ht hp =>
      split at h
      · next c =>
        simp only [Bool.and_eq_true, within_iff, decide_eq_true_eq] at c
        obtain ⟨⟨⟨entry, priority⟩, limit⟩, flags⟩ := c
        cases h
        split at hp
        · next shape =>
          obtain ⟨few, four⟩ := shape
          obtain ⟨length, range, m, bytes⟩ := readTracePoints_some hp
          obtain ⟨stopOk, stopByte⟩ := indexByte_readOptIndex hs
          obtain ⟨recoveryOk, recoveryByte⟩ := indexByte_readOptIndex hr
          obtain ⟨triggerOk, triggerByte⟩ := indexByte_readOptIndex ht
          refine ⟨⟨entry, priority, stopOk, recoveryOk, limit.1, limit.2, triggerOk, by rw [length]; exact few, range⟩, ?_⟩
          have total : (points.map u8).length + m = 4 := by
            rw [bytes, List.length_append, List.length_replicate] at four
            exact four
          unfold seqBytes
          dsimp only
          rw [padTo_eq total, ← bytes, u8_self, u8_self, u8_self, codeOf_getElem (by decide) hc, codeOf_getElem (by decide) hm, stopByte,
            recoveryByte, triggerByte, flagByte_bits.2.1 fl flags, length, u8_self]
          rfl
        · cases hp
      · cases h
    · cases h
  · cases h

end Sys2Proof.Machine
end

section
/-! SUPPORT. Step records and their bytes (R57, Table 44), and what staging does with an entry (R164): O57. -/

namespace Sys2Proof.Machine

/-! ### Supervision entries -/

theorem unusedSupervision_zeros (n : Nat) : unusedSupervision (List.replicate (2 * n) 0) = true := by
  induction n with
  | zero => rfl
  | succ n ih =>
    rw [show 2 * (n + 1) = 2 * n + 1 + 1 by omega, List.replicate_succ, List.replicate_succ, unusedSupervision, ih]
    decide

theorem supervisionBytes_length (vs : List Supervision) : (vs.map supervisionBytes).flatten.length = 2 * vs.length := by
  induction vs with
  | nil => rfl
  | cons v vs ih =>
    rw [List.map_cons, List.flatten_cons, List.length_append, ih, List.length_cons]
    show 2 + _ = _
    omega

theorem readSupervision_bytes {vs : List Supervision} (h : ∀ v ∈ vs, v.cond < 32) {rest : List Byte} (unused : unusedSupervision rest = true) :
    readSupervision vs.length ((vs.map supervisionBytes).flatten ++ rest) = some vs := by
  induction vs with
  | nil => exact if_pos unused
  | cons v vs ih =>
    have small : v.cond < 32 := h v List.mem_cons_self
    obtain ⟨named, expected, fail⟩ := flagByte_two v.expected v.fail
    rw [List.length_cons, List.map_cons, List.flatten_cons, supervisionBytes, List.append_assoc, List.cons_append, List.cons_append,
      List.nil_append, readSupervision, ih fun x hx => h x (List.mem_cons_of_mem v hx)]
    dsimp only
    rw [toNat_u8 (by omega), expected, fail, if_pos ⟨small, named⟩]

theorem readSupervision_some {n : Nat} {bs : List Byte} {vs : List Supervision} (h : readSupervision n bs = some vs) :
    vs.length = n ∧ (∀ v ∈ vs, v.cond < 32) ∧ ∃ rest, bs = (vs.map supervisionBytes).flatten ++ rest := by
  induction n generalizing bs vs with
  | zero =>
    rw [readSupervision] at h
    split at h
    · cases h
      exact ⟨rfl, fun v k => (nomatch k), bs, rfl⟩
    · cases h
  | succ n ih =>
    match bs, h with
    | c :: f :: bs, h =>
      rw [readSupervision] at h
      split at h
      · next l hl =>
        split at h
        · next ok =>
          obtain ⟨small, named⟩ := ok
          cases h
          obtain ⟨length, range, rest, bytes⟩ := ih hl
          refine ⟨congrArg (· + 1) length, fun v hv => ?_, rest, ?_⟩
          · rcases List.mem_cons.1 hv with rfl | hv
            · exact small
            · exact range v hv
          · rw [List.map_cons, List.flatten_cons, supervisionBytes, u8_self, flagByte_bits.2.1 f named, bytes]
            rfl
        · cases h
      · cases h
    | [], h => cases h
    | [_], h => cases h

/-! ### The bytes of `next` and `on_timeout` -/

/-- A step that a record names, in its range. -/
def NextStep.ok : NextStep → Prop
  | .step k => k < 96
  | .finish => True
  | .hold => True

def OnTimeout.ok (most : Nat) : OnTimeout → Prop
  | .goto k => k < 96 ∧ 0 < most
  | .fault => 0 < most
  | .none => most = 0

theorem readNext_nextByte {x : NextStep} (h : x.ok) : readNext (nextByte x) = some x := by
  cases x with
  | step k =>
    have small : k < 96 := h
    rw [nextByte, readNext, toNat_u8 (by omega), if_pos small]
  | finish => decide
  | hold => decide

theorem readNext_some {b : Byte} {x : NextStep} (h : readNext b = some x) : x.ok ∧ nextByte x = b := by
  unfold readNext at h
  split at h
  · next small =>
    cases h
    exact ⟨small, u8_self b⟩
  · split at h
    · next e =>
      cases h
      exact ⟨trivial, (BitVec.eq_of_toNat_eq (y := 253#8) e).symm⟩
    · split at h
      · next e =>
        cases h
        exact ⟨trivial, (BitVec.eq_of_toNat_eq (y := 254#8) e).symm⟩
      · cases h

theorem readTimeout_timeoutByte {most : Nat} {x : OnTimeout} (h : x.ok most) : readTimeout (timeoutByte x) = some x := by
  cases x with
  | goto k =>
    have small : k < 96 := h.1
    rw [timeoutByte, readTimeout, toNat_u8 (by omega), if_pos small]
  | none => decide
  | fault => decide

theorem readTimeout_some {b : Byte} {x : OnTimeout} (h : readTimeout b = some x) : (∀ k, x = .goto k → k < 96) ∧ timeoutByte x = b := by
  unfold readTimeout at h
  split at h
  · next small =>
    cases h
    exact ⟨fun k hk => by cases hk; exact small, u8_self b⟩
  · split at h
    · next e =>
      cases h
      exact ⟨fun k hk => (nomatch hk), (BitVec.eq_of_toNat_eq (y := 254#8) e).symm⟩
    · split at h
      · next e =>
        cases h
        exact ⟨fun k hk => (nomatch hk), (BitVec.eq_of_toNat_eq (y := 255#8) e).symm⟩
      · cases h

/-! ### Step records (R57) -/

theorem StepEntry.ok_iff (e : StepEntry) : e.ok ↔ e.outputs.length = 12 ∧ (∀ o ∈ e.outputs, o.ok) ∧ (∀ c ∈ e.proving, c < 32) ∧
    e.minDwell ≤ 6000 ∧ e.maxDwell ≤ 6000 ∧ (∀ n ∈ e.call, n < 12) ∧ e.supervision.length ≤ 4 ∧ (∀ v ∈ e.supervision, v.cond < 32) ∧
    e.next.ok ∧ e.onTimeout.ok e.maxDwell ∧ 1 ≤ e.faultCode ∧ e.faultCode ≤ 63 ∧ (0 < e.maxDwell → e.minDwell ≤ e.maxDwell) := by
  unfold StepEntry.ok NextStep.ok OnTimeout.ok
  cases e.next <;> cases e.onTimeout <;> exact Iff.rfl

theorem stepFieldsOk_iff (e : StepEntry) : stepFieldsOk e = true ↔ e.minDwell ≤ 6000 ∧ e.maxDwell ≤ 6000 ∧ 1 ≤ e.faultCode ∧
    e.faultCode ≤ 63 ∧ (0 < e.maxDwell → e.minDwell ≤ e.maxDwell) ∧ (e.onTimeout = .none ↔ e.maxDwell = 0) := by
  unfold stepFieldsOk
  have order : (e.maxDwell = 0 ∨ e.minDwell ≤ e.maxDwell) ↔ (0 < e.maxDwell → e.minDwell ≤ e.maxDwell) := by omega
  simp only [Bool.and_eq_true, Bool.or_eq_true, within_iff, decide_eq_true_eq, and_assoc, order]
  cases e.onTimeout <;> simp

theorem OnTimeout.ok_iff (most : Nat) (x : OnTimeout) : x.ok most ↔ (∀ k, x = .goto k → k < 96) ∧ (x = .none ↔ most = 0) := by
  unfold OnTimeout.ok
  cases x <;> simp [Nat.pos_iff_ne_zero]

/-- The bytes of a step record between its outputs and its supervision entries. -/
def stepHead (e : StepEntry) : List Byte :=
  [indexByte e.proving, flagByte [e.provingValue, e.warmup, e.armRise, e.success, e.inUse], u8 (e.minDwell / 256), u8 e.minDwell,
    u8 (e.maxDwell / 256), u8 e.maxDwell, indexByte e.call, nextByte e.next, timeoutByte e.onTimeout, u8 e.faultCode,
    u8 (codeOf StepClass.all e.faultClass), u8 e.supervision.length]

theorem stepBytes_eq (e : StepEntry) : stepBytes e = (e.outputs.map outputBytes).flatten ++ stepHead e ++
    padTo 8 0 (e.supervision.map supervisionBytes).flatten := by
  unfold stepBytes stepHead
  simp only [u16, List.append_assoc, List.cons_append, List.nil_append]

theorem padded_supervision {vs : List Supervision} (h : vs.length ≤ 4) : padTo 8 0 (vs.map supervisionBytes).flatten =
    (vs.map supervisionBytes).flatten ++ List.replicate (2 * (4 - vs.length)) 0 :=
  padTo_eq (by rw [supervisionBytes_length]; omega)

theorem readStepTail_bytes {e : StepEntry} (h : e.ok) :
    readStepTail e.outputs (stepHead e ++ padTo 8 0 (e.supervision.map supervisionBytes).flatten) = some e := by
  obtain ⟨length, outputs, proving, min6, max6, call, few, conds, next, timeout, code1, code63, order⟩ := e.ok_iff.1 h
  obtain ⟨named, f0, f1, f2, f3, f4⟩ := flagByte_five e.provingValue e.warmup e.armRise e.success e.inUse
  rw [padded_supervision few]
  unfold stepHead
  simp only [List.cons_append, List.nil_append]
  unfold readStepTail
  dsimp only
  rw [toNat_u8 (n := e.supervision.length) (by omega), if_pos few, readSupervision_bytes conds (unusedSupervision_zeros _),
    readOptIndex_indexByte (by decide) _ proving, readOptIndex_indexByte (by decide) _ call, readNext_nextByte next,
    readTimeout_timeoutByte timeout, getElem_codeOf e.faultClass.listed (by decide)]
  dsimp only
  rw [n16_u16 e.minDwell (by omega), n16_u16 e.maxDwell (by omega), toNat_u8 (n := e.faultCode) (by omega), f0, f1, f2, f3, f4, named]
  refine if_pos ?_
  rw [Bool.true_and]
  exact (stepFieldsOk_iff _).2 ⟨min6, max6, code1, code63, order, ((OnTimeout.ok_iff _ _).1 timeout).2⟩

theorem stepHead_length (e : StepEntry) : (stepHead e).length = 12 := rfl

theorem readStep_stepBytes {e : StepEntry} (h : e.ok) : readStep (stepBytes e) = some e := by
  obtain ⟨length, outputs, -, -, -, -, few, -⟩ := e.ok_iff.1 h
  have twelve : (e.outputs.map outputBytes).flatten.length = 24 := by rw [outputsBytes_length, length]
  have eight : (padTo 8 0 (e.supervision.map supervisionBytes).flatten).length = 8 := by
    rw [padded_supervision few, List.length_append, supervisionBytes_length, List.length_replicate]
    omega
  unfold readStep
  rw [stepBytes_eq, List.append_assoc, List.take_left' twelve, List.drop_left' twelve, readOutputs_bytes outputs]
  dsimp only
  rw [if_pos ⟨length, by rw [List.length_append, List.length_append, twelve, eight, stepHead_length]⟩]
  exact readStepTail_bytes h

theorem readStepTail_some {os : List Output} {bs : List Byte} {e : StepEntry} (h : readStepTail os bs = some e) (length : os.length = 12)
    (ok : ∀ o ∈ os, o.ok) : e.ok ∧ e.outputs = os ∧ ∃ rest, bs = stepHead e ++ (e.supervision.map supervisionBytes).flatten ++ rest := by
  unfold readStepTail at h
  split at h
  · next pr fl mn1 mn0 mx1 mx0 ca nx ot fc cl n sup =>
    split at h
    · next proving call nextStep timeout cls supervision hp hc hx ht hcl hs =>
      dsimp only at h
      split at h
      · next c =>
        rw [Bool.and_eq_true, stepFieldsOk_iff] at c
        obtain ⟨flags, min6, max6, code1, code63, order, ends⟩ := c
        cases h
        split at hs
        · next few =>
          obtain ⟨count, conds, rest, bytes⟩ := readSupervision_some hs
          obtain ⟨provingOk, provingByte⟩ := indexByte_readOptIndex hp
          obtain ⟨callOk, callByte⟩ := indexByte_readOptIndex hc
          obtain ⟨nextOk, nextB⟩ := readNext_some hx
          obtain ⟨timeoutOk, timeoutB⟩ := readTimeout_some ht
          refine ⟨(StepEntry.ok_iff _).2 ⟨length, ok, provingOk, min6, max6, callOk, by dsimp only; omega, conds, nextOk,
            (OnTimeout.ok_iff _ _).2 ⟨timeoutOk, ends⟩, code1, code63, order⟩, rfl, rest, ?_⟩
          have dwell (hi lo : Byte) : u8 (n16 hi lo / 256) = hi ∧ u8 (n16 hi lo) = lo := by
            have e := u16_n16 hi lo
            rw [u16, List.cons.injEq, List.cons.injEq] at e
            exact ⟨e.1, e.2.1⟩
          unfold stepHead
          dsimp only
          rw [provingByte, callByte, nextB, timeoutB, (dwell mn1 mn0).1, (dwell mn1 mn0).2, (dwell mx1 mx0).1, (dwell mx1 mx0).2,
            u8_self, codeOf_getElem (by decide) hcl, count, u8_self, flagByte_bits.2.2 fl flags, bytes]
          rfl
        · cases hs
      · cases h
    · cases h
  · cases h

theorem readStep_some {bs : List Byte} {e : StepEntry} (h : readStep bs = some e) :
    e.ok ∧ bs.length = 44 ∧ ∀ j, j < bs.length → ¬ unusedPlace .step bs j → (stepBytes e)[j]? = bs[j]? := by
  unfold readStep at h
  split at h
  · next os hos =>
    split at h
    · next shape =>
      obtain ⟨twelve, total⟩ := shape
      obtain ⟨ok, bytes⟩ := readOutputs_some hos
      obtain ⟨entry, outputs, rest, tail⟩ := readStepTail_some h twelve ok
      obtain ⟨-, -, -, -, -, -, few, -⟩ := e.ok_iff.1 entry
      refine ⟨entry, total, fun j hj used => ?_⟩
      have outs : (e.outputs.map outputBytes).flatten.length = 24 := by rw [outputsBytes_length, outputs, twelve]
      have loaded : bs = (e.outputs.map outputBytes).flatten ++ stepHead e ++ (e.supervision.map supervisionBytes).flatten ++ rest := by
        rw [outputs, bytes, List.append_assoc, List.append_assoc, ← List.append_assoc (stepHead e), ← tail, List.take_append_drop]
      have counted : bs.getD 35 0 = u8 e.supervision.length := by
        rw [loaded, List.append_assoc, List.append_assoc, getD_append_high _ _ _ _ (by omega), outs]
        rfl
      have within : j < 36 + 2 * e.supervision.length := by
        have k : ¬ 36 + 2 * (bs.getD 35 0).toNat ≤ j := used
        rw [counted, toNat_u8 (by omega)] at k
        omega
      have front : ((e.outputs.map outputBytes).flatten ++ stepHead e ++ (e.supervision.map supervisionBytes).flatten).length =
          36 + 2 * e.supervision.length := by
        rw [List.length_append, List.length_append, outs, stepHead_length, supervisionBytes_length]
      rw [stepBytes_eq, padded_supervision few, ← List.append_assoc, loaded]
      rw [← front] at within
      exact (List.getElem?_append_left within).trans (List.getElem?_append_left within).symm
    · cases h
  · cases h

/-! ### Staging an entry (R164) -/

theorem stageEntry_bytes (t : Tables) {src : Tables} {k : TableKind} {i : Nat} (hi : i < k.size) (h : src.entryOk k i) :
    stageEntry t k i (entryBytes src k i) = some (t.putEntry src k i) := by
  unfold stageEntry
  rw [if_neg (by omega)]
  cases k with
  | point => exact congrArg (Option.map _) (readPoint_pointBytes h)
  | condition => exact congrArg (Option.map _) (readCond_condBytes h)
  | flue => exact congrArg (Option.map _) (readFlue_flueBytes h)
  | step => exact congrArg (Option.map _) (readStep_stepBytes h)
  | sequence => exact congrArg (Option.map _) (readSeq_seqBytes h)
  | circuit => exact congrArg (Option.map _) (readCircuit_circuitBytes h)
  | role => exact congrArg (Option.map _) (readRole_roleBytes h)
  | device => exact congrArg (Option.map _) (readDevice_deviceBytes h)

/-- What a staged entry is: the one whose bytes were loaded, in its ranges. -/
structure Staged (t t' : Tables) (k : TableKind) (i : Nat) (bs : List Byte) : Prop where
  index : i < k.size
  length : bs.length = k.partLengths.sum
  ok : t'.entryOk k i
  alone : t' = t.putEntry t' k i
  bytes : ∀ j, j < bs.length → ¬ unusedPlace k bs j → (entryBytes t' k i)[j]? = bs[j]?

theorem getD_set_self {α : Type} {l : List α} {i : Nat} (h : i < l.length) (x d : α) : (l.set i x).getD i d = x :=
  (getD_set l i i x d).trans (if_pos ⟨rfl, h⟩)

theorem pointBytes_length (e : PointEntry) : (pointBytes e).length = 14 := rfl
theorem condBytes_length (e : CondEntry) : (condBytes e).length = 13 := rfl
theorem flueBytes_length (e : FlueRecord) : (flueBytes e).length = 23 := rfl
theorem deviceBytes_length (e : DeviceEntry) : (deviceBytes e).length = 6 := rfl

theorem padTo_length (n : Nat) (x : Byte) (bs : List Byte) : (padTo n x bs).length = n := by
  rw [padTo, List.length_take, List.length_append, List.length_replicate]
  omega

theorem seqBytes_length (e : SeqEntry) : (seqBytes e).length = 14 := by
  rw [seqBytes, List.length_append, padTo_length]
  rfl

theorem tierBytes_length (x : Option TierRole) : (tierBytes x).length = 3 := by cases x <;> rfl

theorem circuitBytes_length (e : CircuitEntry) : (circuitBytes e).length = 20 := by
  unfold circuitBytes
  simp only [List.length_append, tierBytes_length]
  rfl

theorem roleBytes_length (e : RoleEntry) : (roleBytes e).length = 11 := by
  unfold roleBytes
  simp only [List.length_append]
  cases e.target <;> rfl

theorem stepBytes_length {e : StepEntry} (h : e.outputs.length = 12) : (stepBytes e).length = 44 := by
  rw [stepBytes_eq, List.length_append, List.length_append, outputsBytes_length, h, stepHead_length, padTo_length]

theorem stageEntry_some {t t' : Tables} {k : TableKind} {i : Nat} {bs : List Byte} (ht : t.sized) (h : stageEntry t k i bs = some t') :
    Staged t t' k i bs := by
  obtain ⟨points, conds, steps, seqs, circuits, roles⟩ := ht
  unfold stageEntry at h
  split at h
  · cases h
  · next hi =>
    have index : i < k.size := by omega
    cases k with
    | point =>
      obtain ⟨e, he, rfl⟩ := Option.map_eq_some_iff.1 h
      obtain ⟨ok, bytes⟩ := readPoint_some he
      have entry : Tables.point { t with points := t.points.set i e } i = e := getD_set_self (by rw [points]; exact index) e _
      exact ⟨index, by rw [← bytes, pointBytes_length]; rfl, by rw [Tables.entryOk, entry]; exact ok, by rw [Tables.putEntry, entry],
        fun j _ _ => by rw [entryBytes, entry, bytes]⟩
    | condition =>
      obtain ⟨e, he, rfl⟩ := Option.map_eq_some_iff.1 h
      obtain ⟨ok, bytes⟩ := readCond_some he
      have entry : Tables.cond { t with conds := t.conds.set i e } i = e := getD_set_self (by rw [conds]; exact index) e _
      exact ⟨index, by rw [← bytes, condBytes_length]; rfl, by rw [Tables.entryOk, entry]; exact ok, by rw [Tables.putEntry, entry],
        fun j _ _ => by rw [entryBytes, entry, bytes]⟩
    | flue =>
      obtain ⟨e, he, rfl⟩ := Option.map_eq_some_iff.1 h
      obtain ⟨ok, bytes⟩ := readFlue_some he
      exact ⟨index, by rw [← bytes, flueBytes_length]; rfl, ok, rfl, fun j _ _ => by rw [entryBytes, bytes]⟩
    | step =>
      obtain ⟨e, he, rfl⟩ := Option.map_eq_some_iff.1 h
      obtain ⟨ok, length, bytes⟩ := readStep_some he
      have entry : Tables.step { t with steps := t.steps.set i e } i = e := getD_set_self (by rw [steps]; exact index) e _
      exact ⟨index, length, by rw [Tables.entryOk, entry]; exact ok, by rw [Tables.putEntry, entry],
        fun j hj used => by rw [entryBytes, entry]; exact bytes j hj used⟩
    | sequence =>
      obtain ⟨e, he, rfl⟩ := Option.map_eq_some_iff.1 h
      obtain ⟨ok, bytes⟩ := readSeq_some he
      have entry : Tables.seq { t with seqs := t.seqs.set i e } i = e := getD_set_self (by rw [seqs]; exact index) e _
      exact ⟨index, by rw [← bytes, seqBytes_length]; rfl, by rw [Tables.entryOk, entry]; exact ok, by rw [Tables.putEntry, entry],
        fun j _ _ => by rw [entryBytes, entry, bytes]⟩
    | circuit =>
      obtain ⟨e, he, rfl⟩ := Option.map_eq_some_iff.1 h
      obtain ⟨ok, length, bytes⟩ := readCircuit_some he
      have entry : Tables.circuit { t with circuits := t.circuits.set i e } i = e := getD_set_self (by rw [circuits]; exact index) e _
      exact ⟨index, length, by rw [Tables.entryOk, entry]; exact ok, by rw [Tables.putEntry, entry],
        fun j hj used => by rw [entryBytes, entry]; exact bytes j hj used⟩
    | role =>
      obtain ⟨e, he, rfl⟩ := Option.map_eq_some_iff.1 h
      obtain ⟨ok, length, bytes⟩ := readRole_some he
      have entry : Tables.role { t with roles := t.roles.set i e } i = e := getD_set_self (by rw [roles]; exact index) e _
      exact ⟨index, length, by rw [Tables.entryOk, entry]; exact ok, by rw [Tables.putEntry, entry],
        fun j hj used => by rw [entryBytes, entry]; exact bytes j hj used⟩
    | device =>
      obtain ⟨e, he, rfl⟩ := Option.map_eq_some_iff.1 h
      obtain ⟨ok, bytes⟩ := readDevice_some he
      exact ⟨index, by rw [← bytes, deviceBytes_length]; rfl, ok, rfl, fun j _ _ => by rw [entryBytes, bytes]⟩

theorem set_getD_self {α : Type} (l : List α) (i : Nat) (d : α) : l.set i (l.getD i d) = l := by
  by_cases h : i < l.length
  · rw [getD_of_lt _ _ h, List.set_getElem_self]
  · rw [List.set_eq_of_length_le (by omega)]

theorem putEntry_self (t : Tables) (k : TableKind) (i : Nat) : t.putEntry t k i = t := by
  cases k with
  | point => exact congrArg (fun l => ({ t with points := l } : Tables)) (set_getD_self _ _ _)
  | condition => exact congrArg (fun l => ({ t with conds := l } : Tables)) (set_getD_self _ _ _)
  | step => exact congrArg (fun l => ({ t with steps := l } : Tables)) (set_getD_self _ _ _)
  | sequence => exact congrArg (fun l => ({ t with seqs := l } : Tables)) (set_getD_self _ _ _)
  | circuit => exact congrArg (fun l => ({ t with circuits := l } : Tables)) (set_getD_self _ _ _)
  | role => exact congrArg (fun l => ({ t with roles := l } : Tables)) (set_getD_self _ _ _)
  | flue | device => rfl

/-! ### The layouts, place by place -/

/-- Four supervision entries fill their places; those past the count are 0. -/
theorem supervision_padded {vs : List Supervision} (h : vs.length ≤ 4) {watch : Nat → List Byte}
    (some' : ∀ j v, vs[j]? = some v → watch j = supervisionBytes v) (none' : ∀ j, vs[j]? = none → watch j = [0#8, 0#8]) :
    padTo 8 0 (vs.map supervisionBytes).flatten = watch 0 ++ watch 1 ++ watch 2 ++ watch 3 := by
  match vs, h with
  | [], _ =>
    rw [none' 0 rfl, none' 1 rfl, none' 2 rfl, none' 3 rfl]
    rfl
  | [a], _ =>
    rw [some' 0 a rfl, none' 1 rfl, none' 2 rfl, none' 3 rfl]
    rfl
  | [a, b], _ =>
    rw [some' 0 a rfl, some' 1 b rfl, none' 2 rfl, none' 3 rfl]
    rfl
  | [a, b, c], _ =>
    rw [some' 0 a rfl, some' 1 b rfl, some' 2 c rfl, none' 3 rfl]
    rfl
  | [a, b, c, d], _ =>
    rw [some' 0 a rfl, some' 1 b rfl, some' 2 c rfl, some' 3 d rfl]
    rfl
  | _ :: _ :: _ :: _ :: _ :: _, h => exact absurd h (by simp only [List.length_cons]; omega)

theorem tracePoints_padded {ps : List Nat} (h : ps.length ≤ 4) :
    padTo 4 255 (ps.map u8) = [indexByte ps[0]?, indexByte ps[1]?, indexByte ps[2]?, indexByte ps[3]?] := by
  match ps, h with
  | [], _ | [_], _ | [_, _], _ | [_, _, _], _ | [_, _, _, _], _ => rfl
  | _ :: _ :: _ :: _ :: _ :: _, h => exact absurd h (by simp only [List.length_cons]; omega)

theorem entryBytes_length (t : Tables) (k : TableKind) (i : Nat) :
    (entryBytes t k i).length = k.partLengths.sum ∨ k = .step ∧ (t.step i).outputs.length ≠ 12 := by
  cases k with
  | point => exact .inl (pointBytes_length _)
  | condition => exact .inl (condBytes_length _)
  | flue => exact .inl (flueBytes_length _)
  | sequence => exact .inl (seqBytes_length _)
  | circuit => exact .inl (circuitBytes_length _)
  | role => exact .inl (roleBytes_length _)
  | device => exact .inl (deviceBytes_length _)
  | step =>
    by_cases h : (t.step i).outputs.length = 12
    · exact .inl (stepBytes_length h)
    · exact .inr ⟨rfl, h⟩

end Sys2Proof.Machine

section
open Sys2Proof Sys2Proof.Machine

/-- Settles O57: bytes and entries, kind by kind. -/
theorem stagedEntriesRoundTrip : Obligations.StagedEntriesRoundTrip := by
  unfold Obligations.StagedEntriesRoundTrip
  refine ⟨fun t src k i hi ok => stageEntry_bytes t hi ok, fun t t' k i bs ht staged => ?_, fun t i p k => ?_, by decide⟩
  · obtain ⟨hi, -, ok, -, -⟩ := stageEntry_some ht staged
    rw [stageEntry_bytes t' hi ok, putEntry_self]
  · intro output tier watch
    have tiers (x : Option TierRole) : tierBytes x = tier x := by cases x <;> rfl
    refine ⟨rfl, rfl, rfl, fun e he length few => ?_, fun e he few => ?_, ?_, ?_, rfl, rfl, entryBytes_length t k i⟩
    · have bytes : entryBytes t .step i = stepBytes e := by rw [← he]; rfl
      have padded := supervision_padded few (watch := fun j => watch j e) (fun j v h => by simp only [watch, h]; rfl)
        fun j h => by simp only [watch, h]
      rw [bytes, stepBytes_eq, padded]
      generalize watch 0 e = w0, watch 1 e = w1, watch 2 e = w2, watch 3 e = w3
      unfold stepHead
      cases e.next <;> cases e.onTimeout
      all_goals
        simp only [u16, List.append_assoc, List.cons_append, List.nil_append]
        rfl
    · subst he
      show seqBytes (t.seq i) = _
      rw [seqBytes, tracePoints_padded few]
      rfl
    · show circuitBytes (t.circuit i) = _
      rw [circuitBytes, tiers, tiers]
    · show roleBytes (t.role i) = _
      generalize t.role i = e
      unfold roleBytes
      dsimp only
      cases e.target <;> rfl

end
end

section
/-! SUPPORT. LOAD part by part (R163, R164): O56. -/

namespace Sys2Proof.Machine

/-- A LOAD that is read, to its answer. -/
theorem exec_load {s : State} {src kind index part : Byte} {fields : List Byte} {k : TableKind} {i p : Nat} (h : s.manages src)
    (calm : s.committing = false) (short : fields.length ≤ 21) (reads : readLoad kind index part fields = some (.load k i p fields)) :
    exec (.load src kind index part fields) s =
      .next (State.reply (doLoad k i p fields (s.heardFrom src)).1 src (doLoad k i p fields (s.heardFrom src)).2).arbitrate := by
  have e : exec (.load src kind index part fields) s = request src 1 (kind :: index :: part :: fields) s := rfl
  rw [e, request_performed h (by decide) (by simp only [List.length_cons]; omega) ((readRequest_load _ _ _ _).trans reads) (.inl calm)]
  exact finish_idle rfl

/-- A part is expected: the first of an entry, or the next one of the entry that is being assembled (R163). -/
def State.expects (s : State) (k : TableKind) (i p : Nat) : Prop :=
  p = 0 ∨ ∃ old, s.assembly = some { kind := k, index := i, nextPart := p, fields := old }

/-- The bytes of an entry with part `p` added. -/
def State.gathered (s : State) (p : Nat) (fields : List Byte) : List Byte :=
  if p = 0 then fields else (s.assembly.map Assembly.fields).getD [] ++ fields

theorem doLoad_unexpected {s : State} {k : TableKind} {i p : Nat} {fields : List Byte} (h : ¬ s.expects k i p) :
    doLoad k i p fields s = ({ s with assembly := none }, .badRequest) := by
  have later : p ≠ 0 := fun j => h (.inl j)
  unfold doLoad
  rw [if_neg later]
  cases ha : s.assembly with
  | none => rfl
  | some a =>
    refine if_neg fun ⟨kind, index, next⟩ => h (.inr ⟨a.fields, ?_⟩)
    rw [ha, ← kind, ← index, ← next]

theorem doLoad_expected {s : State} {k : TableKind} {i p : Nat} {fields : List Byte} (h : s.expects k i p) :
    doLoad k i p fields s = takePart s { kind := k, index := i, nextPart := p + 1, fields := s.gathered p fields } := by
  unfold doLoad State.gathered
  by_cases first : p = 0
  · subst first
    rw [if_pos rfl, if_pos rfl]
  · obtain ⟨old, ha⟩ := h.resolve_left first
    rw [if_neg first, if_neg first, ha]
    exact if_pos ⟨rfl, rfl, rfl⟩

theorem takePart_more {s : State} {a : Assembly} (h : a.nextPart < a.kind.partLengths.length) :
    takePart s a = ({ s with assembly := some a }, okEmpty) := by
  exact if_pos h

theorem takePart_last {s : State} {a : Assembly} (h : a.kind.partLengths.length ≤ a.nextPart) {t : Tables}
    (staged : stageEntry s.staging a.kind a.index a.fields = some t) :
    takePart s a = ({ s with assembly := none, staging := t }, okEmpty) := by
  rw [takePart, if_neg (by omega), finishLoad]
  dsimp only
  rw [staged]

theorem takePart_refused {s : State} {a : Assembly} (h : a.kind.partLengths.length ≤ a.nextPart)
    (staged : stageEntry s.staging a.kind a.index a.fields = none) :
    takePart s a = ({ s with assembly := none }, .badRequest) := by
  rw [takePart, if_neg (by omega), finishLoad]
  dsimp only
  rw [staged]

theorem State.heardFrom_assembly (s : State) (src : Byte) : (s.heardFrom src).assembly = s.assembly ∧
    (s.heardFrom src).staging = s.staging := by
  rw [State.heardFrom_eq]
  exact ⟨rfl, rfl⟩

end Sys2Proof.Machine

section
open Sys2Proof Sys2Proof.Machine

/-- Settles O56: what staging makes of an entry, and what each part of a LOAD does. -/
theorem loadStagesEntries : Obligations.LoadStagesEntries := by
  unfold Obligations.LoadStagesEntries
  refine ⟨fun t t' k i bs ht staged => ?_, fun s src kind index part fields k p m calm short reads => ?_⟩
  · obtain ⟨index, length, ok, alone, bytes⟩ := stageEntry_some ht staged
    exact ⟨index, length, ok, alone, bytes⟩
  · intro h ok bs expected
    obtain ⟨assembly, staging⟩ := s.heardFrom_assembly src
    have wanted : h.expects k index.toNat p ↔ expected := by unfold State.expects; rw [assembly]
    have bytes : h.gathered p fields = bs := by unfold State.gathered; rw [assembly]
    have run := exec_load m calm short reads
    refine ⟨fun stray => ?_, fun due more => ?_, fun t due last staged => ?_, fun due last refused => ?_⟩
    · rw [run, doLoad_unexpected fun j => stray (wanted.1 j)]
    all_goals rw [run, doLoad_expected (wanted.2 due), bytes]
    · rw [takePart_more more]
      rfl
    · rw [takePart_last last (by rw [staging]; exact staged)]
      rfl
    · rw [takePart_refused last (by rw [staging]; exact refused)]

end
end

section
/-! SUPPORT. READ, STATUS and TRACE READ: the numbers, the runtime parts and the status pages as bytes. -/
namespace Sys2Proof.Machine

/-! ### The three requests -/

theorem exec_read {s : State} {src image kind index part : Byte} {active : Bool} {k : TableKind} {i p : Nat} (m : s.manages src)
    (reads : readRead image kind index part = some (.read active k i p)) :
    exec (.read src image kind index part) s
      = .next ((s.heardFrom src).reply src (.ok (readBytes (s.heardFrom src) active k i p))).arbitrate := by
  have e : exec (.read src image kind index part) s = request src 2 [image, kind, index, part] s := rfl
  rw [e, request_performed m (by decide) (by simp) (q := .read active k i p)
    ((readRequest_read _ _ _ _).trans reads) (.inr rfl)]
  exact finish_idle_answer _ _ _

theorem exec_status {s : State} {src page : Byte} (m : s.manages src) (h : page.toNat < 13) :
    exec (.status src page) s
      = .next ((s.heardFrom src).reply src (.ok (statusPage (s.heardFrom src) page.toNat))).arbitrate := by
  have e : exec (.status src page) s = request src 11 [page] s := rfl
  rw [e, request_performed m (by decide) (by simp) (q := .status page.toNat)
    (by rw [readRequest_status, readIndex_of_small h]; rfl) (.inr rfl)]
  exact finish_idle_answer _ _ _

theorem traceReadBytes_heardFrom (s : State) (src : Byte) (index count : Nat) :
    traceReadBytes (s.heardFrom src) index count = traceReadBytes s index count := by
  rw [State.heardFrom_eq]
  rfl

theorem exec_traceRead {s : State} {src count : Byte} {index : Word} (m : s.manages src) (low : 1 ≤ count.toNat)
    (high : count.toNat ≤ 4) (inside : index.toNat + count.toNat ≤ 512) :
    exec (.traceRead src index count) s
      = .next ((s.heardFrom src).reply src (.ok (traceReadBytes s index.toNat count.toNat))).arbitrate := by
  have e : exec (.traceRead src index count) s = request src 12 (u16 index.toNat ++ [count]) s := rfl
  have taken : readRequest 12 (u16 index.toNat ++ [count]) = some (.traceRead index.toNat count.toNat) := by
    have n := n16_u16 index.toNat index.isLt
    refine (readRequest_traceRead _ _ _).trans ?_
    rw [n, if_pos]
    simp only [Bool.and_eq_true, within_iff, decide_eq_true_eq]
    exact ⟨⟨low, high⟩, inside⟩
  rw [e, request_performed m (by decide) (by simp [u16]) taken (.inr rfl), ← traceReadBytes_heardFrom s src]
  exact finish_idle_answer _ _ _

/-! ### Numbers in bytes -/

theorem u24_eq (n : Nat) : u24 n = u8 (n / 65536) :: u16 n := rfl

theorem u32_eq (n : Nat) : u32 n = u16 (n / 65536) ++ u16 n := by
  simp only [u32, u16, List.cons_append, List.nil_append, Nat.div_div_eq_div_mul]

theorem saturate16_of_inRange {z : Int} (low : -32768 ≤ z) (high : z ≤ 32767) : saturate16 z = z := by
  unfold saturate16
  rw [if_neg (by omega), if_neg (by omega)]

theorem i16_of_nonneg {z : Int} (low : 0 ≤ z) (high : z ≤ 32767) : i16 z = u16 z.toNat := by
  unfold i16
  rw [saturate16_of_inRange (by omega) high, Int.emod_eq_of_lt low (by omega)]

theorem i16_of_neg {z : Int} (high : z < 0) (low : -32768 ≤ z) : i16 z = u16 (65536 + z).toNat := by
  unfold i16
  rw [saturate16_of_inRange low (by omega)]
  congr 2
  omega

theorem bit_le (b : Bool) : bit b ≤ 1 := by cases b <;> decide

theorem flagByte_eight (b0 b1 b2 b3 b4 b5 b6 b7 : Bool) :
    (flagByte [b0, b1, b2, b3, b4, b5, b6, b7]).toNat = bit b0 + 2 * bit b1 + 4 * bit b2 + 8 * bit b3 + 16 * bit b4 +
      32 * bit b5 + 64 * bit b6 + 128 * bit b7 := by
  have h0 := bit_le b0; have h1 := bit_le b1; have h2 := bit_le b2; have h3 := bit_le b3
  have h4 := bit_le b4; have h5 := bit_le b5; have h6 := bit_le b6; have h7 := bit_le b7
  simp only [flagByte, u8, List.foldr, BitVec.toNat_ofNat]
  omega

theorem flagByte_false (bs : List Bool) : flagByte (bs ++ [false]) = flagByte bs := by
  unfold flagByte
  rw [List.foldr_append]
  rfl

theorem secondsLeft_rounded (n : Nat) : secondsLeft n = n / 10 ∨ n % 10 ≠ 0 ∧ secondsLeft n = n / 10 + 1 := by
  unfold secondsLeft
  split
  next up => exact .inr ⟨up.1, rfl⟩
  next => exact .inl rfl

/-! ### The runtime parts -/

theorem readBytes_loaded (s : State) {k : TableKind} {p : Nat} (h : p < k.partLengths.length) (i : Nat) :
    readBytes s true k i p = entryPart s.tables k i p := by
  unfold readBytes
  rw [if_pos rfl, if_pos h]

/-- Up to eight values of two bytes each fill a place of sixteen bytes from its start; the rest is 0. -/
theorem values_padded (high low : Int → Byte) {window : List Int} (h : window.length ≤ 8) {value : Nat → List Byte}
    (some' : ∀ i z, window[i]? = some z → value i = [high z, low z]) (none' : ∀ i, window[i]? = none → value i = [0#8, 0#8]) :
    padTo 16 0 (window.map fun z => [high z, low z]).flatten = value 0 ++ value 1 ++ value 2 ++ value 3 ++ value 4 ++ value 5 ++
      value 6 ++ value 7 := by
  match window, h with
  | [], _ =>
    rw [none' 0 rfl, none' 1 rfl, none' 2 rfl, none' 3 rfl, none' 4 rfl, none' 5 rfl, none' 6 rfl, none' 7 rfl]
    rfl
  | [_], _ =>
    rw [some' 0 _ rfl, none' 1 rfl, none' 2 rfl, none' 3 rfl, none' 4 rfl, none' 5 rfl, none' 6 rfl, none' 7 rfl]
    rfl
  | [_, _], _ =>
    rw [some' 0 _ rfl, some' 1 _ rfl, none' 2 rfl, none' 3 rfl, none' 4 rfl, none' 5 rfl, none' 6 rfl, none' 7 rfl]
    rfl
  | [_, _, _], _ =>
    rw [some' 0 _ rfl, some' 1 _ rfl, some' 2 _ rfl, none' 3 rfl, none' 4 rfl, none' 5 rfl, none' 6 rfl, none' 7 rfl]
    rfl
  | [_, _, _, _], _ =>
    rw [some' 0 _ rfl, some' 1 _ rfl, some' 2 _ rfl, some' 3 _ rfl, none' 4 rfl, none' 5 rfl, none' 6 rfl, none' 7 rfl]
    rfl
  | [_, _, _, _, _], _ =>
    rw [some' 0 _ rfl, some' 1 _ rfl, some' 2 _ rfl, some' 3 _ rfl, some' 4 _ rfl, none' 5 rfl, none' 6 rfl, none' 7 rfl]
    rfl
  | [_, _, _, _, _, _], _ =>
    rw [some' 0 _ rfl, some' 1 _ rfl, some' 2 _ rfl, some' 3 _ rfl, some' 4 _ rfl, some' 5 _ rfl, none' 6 rfl, none' 7 rfl]
    rfl
  | [_, _, _, _, _, _, _], _ =>
    rw [some' 0 _ rfl, some' 1 _ rfl, some' 2 _ rfl, some' 3 _ rfl, some' 4 _ rfl, some' 5 _ rfl, some' 6 _ rfl, none' 7 rfl]
    rfl
  | [_, _, _, _, _, _, _, _], _ =>
    rw [some' 0 _ rfl, some' 1 _ rfl, some' 2 _ rfl, some' 3 _ rfl, some' 4 _ rfl, some' 5 _ rfl, some' 6 _ rfl, some' 7 _ rfl]
    rfl
  | _ :: _ :: _ :: _ :: _ :: _ :: _ :: _ :: _ :: _, h => exact absurd h (by simp only [List.length_cons]; omega)

theorem optI16_none : optI16 none = [0#8, 0#8] := by decide

theorem window_padded {window : List Int} (h : window.length ≤ 8) :
    padTo 16 0 (window.map i16).flatten = optI16 window[0]? ++ optI16 window[1]? ++ optI16 window[2]? ++ optI16 window[3]? ++
      optI16 window[4]? ++ optI16 window[5]? ++ optI16 window[6]? ++ optI16 window[7]? := by
  have padded := values_padded (fun z => u8 ((saturate16 z % 65536).toNat / 256)) (fun z => u8 (saturate16 z % 65536).toNat) h
    (value := fun i => optI16 window[i]?) (fun i z k => ?_) fun i k => ?_
  · exact padded
  · rw [k]
    rfl
  · rw [k, optI16_none]

theorem beneath_append {i : Nat} {above below : List Nat} (h : i ∉ above) : beneath i (above ++ i :: below) = below.head? := by
  induction above with
  | nil => exact if_pos rfl
  | cons x rest ih =>
    obtain ⟨first, later⟩ := not_or.1 fun k => h (List.mem_cons.2 k)
    exact (if_neg (Ne.symm first)).trans (ih later)

theorem beneath_of_not_mem {i : Nat} {chain : List Nat} (h : i ∉ chain) : beneath i chain = none := by
  induction chain with
  | nil => rfl
  | cons x rest ih =>
    obtain ⟨first, later⟩ := not_or.1 fun k => h (List.mem_cons.2 k)
    exact (if_neg (Ne.symm first)).trans (ih later)

theorem State.active_eq (s : State) (i : Nat) : s.active i = decide (i ∈ s.seq.chain) := by
  unfold State.active
  rw [List.contains_eq_mem]

theorem seqRunBytes_saved (s : State) (i : Nat) : seqRunBytes s i =
    [flagByte [decide (i ∈ s.seq.chain), (s.returnLink i).isSome], indexByte (s.returnLink i), flagByte [(s.seqRun i).saved.isSome]] ++
      (match (s.seqRun i).saved with
        | some c => [u8 c.step] ++ u16 c.elapsed ++ [flagByte [c.allowance.isSome]] ++ optU16 c.allowance
        | none => [0#8, 0#8, 0#8, 0#8, 0#8, 0#8]) ++ [u8 (s.seqRun i).recycle] := by
  rw [seqRunBytes, State.active_eq]
  cases (s.seqRun i).saved <;> rfl

theorem circuitRunBytes_last (x : CircuitRun) : circuitRunBytes x =
    u24 x.debt ++ [u8 (codeOf Stage.all x.stage), flagByte [x.blocked], flagByte [x.last.isSome]] ++
      (match x.last with
        | some d => i16 d.1 ++ [u8 (codeOf DeficitSource.all d.2)]
        | none => [0#8, 0#8, 0#8]) := by
  unfold circuitRunBytes
  cases x.last with
  | none => rfl
  | some d => simp only [Option.map_some, Option.getD_some, optI16, List.append_assoc]

theorem roleRunBytes_target (s : State) (i : Nat) : roleRunBytes s i =
    [u8 (codeOf Claimant.all (s.role i).owner)] ++ u16 (s.role i).applied ++ u16 (s.role i).requested ++
      [flagByte [(s.role i).actual.isSome, (s.role i).confirm.isSome]] ++ optU16 (s.role i).actual ++
      [match (s.tables.role i).target with
        | .line l => flagByte [(s.role i).since, (s.role i).heard.isSome, (s.line l).commanded, s.sense l, (s.line l).settle.isNone,
            (s.line l).mismatch]
        | .field _ _ => flagByte [(s.role i).since, (s.role i).heard.isSome]
        | .none => flagByte [(s.role i).since, (s.role i).heard.isSome]] ++
      [u8 (((s.role i).confirm.map secondsLeft).getD 0)] := by
  unfold roleRunBytes roleFlags
  dsimp only
  rw [Option.isSome_map]
  cases (s.tables.role i).target <;> simp only [List.append_assoc, List.cons_append, List.nil_append]

theorem flueRunBytes_eq (x : FlueRun) : flueRunBytes x =
    [flagByte [x.baseline.isSome, x.required.isSome, x.riseTimer.isSome, x.allowance.isSome, x.allowanceFrom.isSome],
      u8 (codeOf RiseState.all x.rise)] ++ optI16 x.baseline ++ optU16 x.required ++ optU16 (x.riseTimer.map secondsLeft) ++
      optU16 x.allowance ++ optI16 x.allowanceFrom := by
  unfold flueRunBytes
  dsimp only
  rw [Option.isSome_map]

/-! ### The status pages -/

/-- One place of page 0: the member at this depth of the chain, counted from the top. -/
def State.memberPlace (s : State) (d : Nat) : List Byte :=
  match s.seq.chain[d]? with
  | none => [255#8, 255#8, 0#8, 0#8, 0#8]
  | some n =>
    (match d, s.seq.running, (s.seqRun n).saved with
      | 0, some x, _ => [u8 n, u8 x.step] ++ u16 x.elapsed
      | 0, none, _ => [u8 n, 255#8, 0#8, 0#8]
      | _ + 1, _, some c => [u8 n, u8 c.step] ++ u16 c.elapsed
      | _ + 1, _, none => [u8 n, 255#8, 0#8, 0#8]) ++ [u8 (s.seqRun n).recycle]

theorem memberStatus_top {s : State} {n : Nat} (h : s.seq.chain[0]? = some n) : s.memberPlace 0 = s.memberStatus n := by
  have top : s.top = some n := List.head?_eq_getElem?.trans h
  rw [State.memberPlace, h, State.memberStatus, State.memberStep, State.memberElapsed, if_pos top, if_pos top]
  cases s.seq.running <;> rfl

theorem memberStatus_beneath {s : State} (apart : s.seq.chain.Nodup) {d n : Nat} (h : s.seq.chain[d + 1]? = some n) :
    s.memberPlace (d + 1) = s.memberStatus n := by
  have below : s.top ≠ some n := by
    intro top
    have first : s.seq.chain[0]? = some n := List.head?_eq_getElem?.symm.trans top
    have inside := (List.getElem?_eq_some_iff.1 first).1
    exact absurd ((List.getElem?_inj inside apart).1 (first.trans h.symm)) (by omega)
  rw [State.memberPlace, h, State.memberStatus, State.memberStep, State.memberElapsed, if_neg below, if_neg below]
  dsimp only
  cases s.seq.running <;> cases (s.seqRun n).saved <;> rfl

theorem memberPlace_none {s : State} {d : Nat} (h : s.seq.chain[d]? = none) : s.memberPlace d = emptyMember := by
  rw [State.memberPlace, h]
  rfl

/-- Up to four members fill the four places from the top; the others stand empty. -/
theorem places_padded {chain : List Nat} (h : chain.length ≤ 4) {place : Nat → List Byte} {status : Nat → List Byte}
    (some' : ∀ d n, chain[d]? = some n → place d = status n) (none' : ∀ d, chain[d]? = none → place d = emptyMember) :
    (((chain.map status) ++ List.replicate 4 emptyMember).take 4).flatten = place 0 ++ place 1 ++ place 2 ++ place 3 := by
  match chain, h with
  | [], _ =>
    rw [none' 0 rfl, none' 1 rfl, none' 2 rfl, none' 3 rfl]
    rfl
  | [a], _ =>
    rw [some' 0 a rfl, none' 1 rfl, none' 2 rfl, none' 3 rfl]
    simp only [List.append_assoc]
    rfl
  | [a, b], _ =>
    rw [some' 0 a rfl, some' 1 b rfl, none' 2 rfl, none' 3 rfl]
    simp only [List.append_assoc]
    rfl
  | [a, b, c], _ =>
    rw [some' 0 a rfl, some' 1 b rfl, some' 2 c rfl, none' 3 rfl]
    simp only [List.append_assoc]
    rfl
  | [a, b, c, d], _ =>
    rw [some' 0 a rfl, some' 1 b rfl, some' 2 c rfl, some' 3 d rfl]
    simp [List.flatten, List.append_assoc]
  | _ :: _ :: _ :: _ :: _ :: _, h => exact absurd h (by simp only [List.length_cons]; omega)

theorem State.unitState_eq (s : State) : u8 s.unitState =
    (match s.locked, s.seq.chain with | false, [] => 0#8 | false, _ :: _ => 1#8 | true, _ :: _ => 2#8 | true, [] => 3#8) := by
  unfold State.unitState
  cases s.locked <;> cases s.seq.chain <;> rfl

theorem State.committing_byte (s : State) : u8 (bit s.committing) = if s.store.commit = .none then 0#8 else 1#8 := by
  unfold State.committing
  cases s.store.commit <;> rfl

theorem statusChain_places {s : State} (short : s.seq.chain.length ≤ 4) (apart : s.seq.chain.Nodup) : statusChain s =
    [(match s.locked, s.seq.chain with | false, [] => 0#8 | false, _ :: _ => 1#8 | true, _ :: _ => 2#8 | true, [] => 3#8),
      if s.store.commit = .none then 0#8 else 1#8,
      flagByte [decide (s.phase = .fallback), s.seq.demand, s.gate.present, s.pins.limitClosed, s.seq.purgeDue],
      u8 s.seq.chain.length] ++ s.memberPlace 0 ++ s.memberPlace 1 ++ s.memberPlace 2 ++ s.memberPlace 3 := by
  have place (d n : Nat) (h : s.seq.chain[d]? = some n) : s.memberPlace d = s.memberStatus n := by
    cases d with
    | zero => exact memberStatus_top h
    | succ d => exact memberStatus_beneath apart h
  rw [statusChain, places_padded short place fun d h => memberPlace_none h, State.unitState_eq, State.committing_byte]
  simp only [List.append_assoc]

theorem statusTriggers_running (s : State) : statusTriggers s =
    (match s.seq.running with
      | some x => [1#8] ++ u16 x.minDwell ++ u16 x.maxDwell ++ [flagByte [x.hold]]
      | none => [0#8, 0#8, 0#8, 0#8, 0#8, 0#8]) ++
      bitField ((List.range 12).map fun n => (s.trigger n).stands) ++ (List.range 12).map fun n => triggerByte (s.trigger n) := by
  unfold statusTriggers
  cases s.seq.running with
  | none => rfl
  | some x => rfl

theorem range_twelve : List.range 12 = [0, 1, 2, 3, 4, 5, 6, 7, 8, 9, 10, 11] := rfl

theorem bitField_range (f : Nat → Bool) : bitField ((List.range 12).map f) =
    [flagByte [f 8, f 9, f 10, f 11], flagByte [f 0, f 1, f 2, f 3, f 4, f 5, f 6, f 7]] :=
  bitField_twelve (f 0) (f 1) (f 2) (f 3) (f 4) (f 5) (f 6) (f 7) (f 8) (f 9) (f 10) (f 11)

theorem State.circuitStages_eq (s : State) : s.circuitStages =
    (let half := fun (c : Nat) => codeOf Stage.all (s.circuit c).stage +
      (if (s.circuit c).blocked = true then 4 else 0) + (if (s.tables.circuit c).inUse = true then 8 else 0)
    [u8 (half 0 * 16 + half 1), u8 (half 2 * 16 + half 3), u8 (half 4 * 16 + half 5)]) := by
  simp only [State.circuitStages, circuitNibble_eq]

theorem statusRolesLow_eq (s : State) : statusRolesLow s = ownerBytes s 0 ++ ownerBytes s 1 ++ ownerBytes s 2 ++ ownerBytes s 3 ++
    ownerBytes s 4 ++ ownerBytes s 5 ++ ownerBytes s 6 ++ ownerBytes s 7 := rfl

theorem locked_byte (s : State) : u8 (bit s.locked) = flagByte [s.fault.data.locked] := by
  unfold State.locked
  cases s.fault.data.locked <;> rfl

theorem record_ended (o : Option OpenRecord) : (o.bind OpenRecord.ended).isSome = o.any fun r => r.ended.isSome := by
  cases o <;> rfl

theorem statusGate_slots (s : State) : statusGate s =
    [flagByte [(s.gate.absence.map secondsLeft).isSome], u8 ((s.gate.absence.map secondsLeft).getD 0)] ++ flueValueBytes s.flue ++
      [u8 (codeOf RiseState.all s.flue.rise)] ++ s.circuitStages ++ [u8 s.gate.up.length, u8 s.gate.down.length, u8 s.gate.reply.length] ++
      [flagByte (NoticeKind.all.map fun k => (s.notice k).flag)] ++
      bitField ((List.range 12).map fun r => (s.slot r).any Slot.pending) := by
  refine congrArg (fun waits : Nat → Bool => _ ++ bitField ((List.range 12).map waits)) (funext fun r => ?_)
  cases s.slot r <;> rfl

theorem historyBytes_eq (x : HistoryEntry) : historyBytes x = u16 x.number ++ [u8 x.cause, indexByte x.seq, indexByte x.step,
    flagByte [x.flueTemp.isSome, x.second.isSome, false, false, false, false, false, x.limitMark]] ++
      optI16 x.flueTemp ++ [u8 (x.second.getD 0)] := by
  have flags : u8 (bit x.flueTemp.isSome + 2 * bit x.second.isSome + 128 * bit x.limitMark)
      = flagByte [x.flueTemp.isSome, x.second.isSome, false, false, false, false, false, x.limitMark] := by
    cases x.flueTemp.isSome <;> cases x.second.isSome <;> cases x.limitMark <;> rfl
  rw [historyBytes, flags]

theorem statusPage_history (s : State) {n : Nat} (h : n < 6) : statusPage s (7 + n) = optHistoryBytes s.fault.data.history[n]? := by
  match n, h with
  | 0, _ | 1, _ | 2, _ | 3, _ | 4, _ | 5, _ => rfl

/-! ### The trace -/

theorem traceReadBytes_succ {s : State} {index count : Nat} (h : index + count < s.trace.mem.length) :
    traceReadBytes s index (count + 1) = traceReadBytes s index count ++ (s.trace.mem[index + count]?.map traceBytes).getD [] := by
  rw [traceReadBytes, List.range_succ, List.map_append, List.flatten_append, List.getElem?_eq_getElem h]
  simp only [List.map_cons, List.map_nil, List.flatten_cons, List.flatten_nil, List.append_nil, getD_of_lt _ _ h]
  rfl

theorem traceBytes_sample {p : Nat} (h : p < 24) (v : Int) (record offset : Nat) :
    traceBytes { kind := .sample p v, record := record, offset := offset } = [u8 (0x40 + p)] ++ ([u8 record] ++ u16 offset) ++ i16 v := by
  have e : u8 (2 * 32 + p % 32) = u8 (0x40 + p) := congrArg u8 (by omega)
  exact congrArg (fun b => (b :: u8 record :: u16 offset) ++ i16 v) e

end Sys2Proof.Machine

section
open Sys2Proof Sys2Proof.Machine

/-- Settles O58: the requests, the numbers, the runtime parts, the status pages, the trace and the codes. -/
theorem readsAnswer : Obligations.ReadsAnswer := by
  unfold Obligations.ReadsAnswer
  refine ⟨fun s src m => ?_, fun n z o oz b0 b1 b2 b3 b4 b5 b6 b7 => ?_, fun s k i p => ?_, fun s => ?_,
    fun s index count record offset n m z => ?_, ?_⟩
  · exact ⟨fun image kind index part active k i p reads => exec_read m reads, fun page h => exec_status m h,
      fun index count low high inside => exec_traceRead m low high inside⟩
  · exact ⟨by simp [u8], rfl, u24_eq n, u32_eq n, i16_of_nonneg, i16_of_neg, rfl, rfl, rfl, flagByte_eight b0 b1 b2 b3 b4 b5 b6 b7,
      flagByte_false, secondsLeft_rounded n⟩
  · refine ⟨rfl, fun h => readBytes_loaded s h i, rfl, rfl, fun a b c d e f g j short window => ?_, flueRunBytes_eq s.flue,
      seqRunBytes_saved s i, fun above below chain apart => ?_, beneath_of_not_mem, circuitRunBytes_last (s.circuit i),
      roleRunBytes_target s i⟩
    · obtain ⟨rfl, rfl, rfl, rfl, rfl, rfl, rfl, rfl⟩ : s.flue.window[0]? = a ∧ s.flue.window[1]? = b ∧ s.flue.window[2]? = c ∧
          s.flue.window[3]? = d ∧ s.flue.window[4]? = e ∧ s.flue.window[5]? = f ∧ s.flue.window[6]? = g ∧ s.flue.window[7]? = j := by
        simpa only [List.cons.injEq, and_true] using window
      have shown : readBytes s true .flue i 2 = flueWindowBytes s.flue := rfl
      rw [shown, flueWindowBytes, window_padded short]
      simp only [List.append_assoc]
      rfl
    · rw [State.returnLink, chain]
      exact beneath_append apart
  · dsimp only
    refine ⟨fun short apart => statusChain_places short apart, ?_, ?_, ?_, ?_, ?_, fun none' => ?_, fun x some' => ?_,
      fun n h none' => ?_, fun n x h some' => ?_⟩
    · rw [show statusPage s 1 = statusTriggers s from rfl, statusTriggers_running, bitField_range]
      rfl
    · rw [show statusPage s 2 = statusGate s from rfl, statusGate_slots, Option.isSome_map, bitField_range, State.circuitStages_eq]
      rfl
    · exact statusRolesLow_eq s
    · rfl
    · rw [show statusPage s 5 = statusLockout s from rfl, statusLockout]
      rw [Option.isSome_map, locked_byte, record_ended]
    · exact congrArg faultBytes none'
    · exact congrArg faultBytes some'
    · rw [statusPage_history s h, none']
      rfl
    · rw [statusPage_history s h, some', optHistoryBytes, historyBytes_eq]
  · exact ⟨traceReadBytes_succ, rfl, rfl, rfl, fun h => traceBytes_sample h z record offset, rfl, rfl, rfl, rfl⟩
  · decide

end
end

section
/-! SUPPORT. The second mark of the Frost Unit: its three groups of events (the claims, the requests, the faults) as segments
that lead from one state to the next in any order. -/
namespace Sys2Proof.Machine

/-! ### Segments of events, taken one after the other in any order -/

/-- One change after another. -/
def Following {α : Type} (R R' : α → α → Prop) (a c : α) : Prop := ∃ b, R a b ∧ R' b c

theorem following_eq {α : Type} (R : α → α → Prop) : Following R Eq = R := by
  funext a c
  refine propext ⟨fun h => ?_, fun h => ⟨c, h, rfl⟩⟩
  obtain ⟨b, hb, rfl⟩ := h
  exact hb

theorem eq_following {α : Type} (R : α → α → Prop) : Following Eq R = R := by
  funext a c
  refine propext ⟨fun h => ?_, fun h => ⟨a, rfl, h⟩⟩
  obtain ⟨b, rfl, hb⟩ := h
  exact hb

/-- What the groups of events change, each its own: the claims, the trigger flags, and the fault with what records it. -/
def State.reports (s : State) : FaultUnit × TraceUnit × Store × List Notice := (s.fault, s.trace, s.store, s.gate.notices)

/-- The claims, the flags and the reports have changed as the three relations say. -/
def Did (claims : List RoleRun → List RoleRun → Prop) (flags : List Trigger → List Trigger → Prop)
    (reports : FaultUnit × TraceUnit × Store × List Notice → FaultUnit × TraceUnit × Store × List Notice → Prop) (s t : State) : Prop :=
  claims s.roles t.roles ∧ flags s.seq.triggers t.seq.triggers ∧ reports s.reports t.reports

/-- From any state with `P`, events that wait in front are taken to their end, within a number of actions, to a state with `P`. -/
def Segment (P : State → Prop) (n : Nat) (R : State → State → Prop) (l : List Act) : Prop :=
  ∀ s rest, P s → ∃ m t, m ≤ n ∧ Leads m (Work.waiting s (l ++ rest)) (Work.waiting t rest) ∧ P t ∧ R s t

section
variable {P : State → Prop} {n n' : Nat} {l l' : List Act}
  {A A' : List RoleRun → List RoleRun → Prop} {B B' : List Trigger → List Trigger → Prop}
  {C C' : FaultUnit × TraceUnit × Store × List Notice → FaultUnit × TraceUnit × Store × List Notice → Prop}

theorem Segment.append (h : Segment P n (Did A B C) l) (g : Segment P n' (Did A' B' C') l') :
    Segment P (n + n') (Did (Following A A') (Following B B') (Following C C')) (l ++ l') := by
  intro s rest p
  obtain ⟨m, t, few, lead, q, a, b, c⟩ := h s (l' ++ rest) p
  obtain ⟨m', u, few', lead', r, a', b', c'⟩ := g t rest q
  rw [List.append_assoc]
  exact ⟨m + m', u, by omega, lead.trans lead', r, ⟨_, a, a'⟩, ⟨_, b, b'⟩, ⟨_, c, c'⟩⟩

theorem Segment.nil (P : State → Prop) (n : Nat) : Segment P n (Did Eq Eq Eq) [] :=
  fun s _ p => ⟨0, s, Nat.zero_le n, Leads.refl _, p, rfl, rfl, rfl⟩

/-- Three groups of which each changes its own part, in any of the six orders. -/
theorem Segment.arranged {claims flags faults : List Act} (hA : Segment P n (Did A Eq Eq) claims) (hB : Segment P n (Did Eq B Eq) flags)
    (hC : Segment P n (Did Eq Eq C) faults) (o : HandoffOrder) : Segment P (n + n + n) (Did A B C) (arrange o claims flags faults) := by
  have e1 := (hA.append hB).append hC
  have e2 := (hA.append hC).append hB
  have e3 := (hB.append hA).append hC
  have e4 := (hB.append hC).append hA
  have e5 := (hC.append hA).append hB
  have e6 := (hC.append hB).append hA
  simp only [following_eq, eq_following] at e1 e2 e3 e4 e5 e6
  cases o
  · exact e1
  · exact e2
  · exact e3
  · exact e4
  · exact e5
  · exact e6

end

/-! ### The frame of a second mark -/

/-- Only conditions, claims, lines, trigger flags, and what a fault or a notice writes, differ. -/
def MarkFrame (b t : State) : Prop :=
  t = { b with conds := t.conds, roles := t.roles, lines := t.lines, fault := t.fault, trace := t.trace, store := t.store
               seq := { b.seq with triggers := t.seq.triggers }
               gate := { b.gate with slots := t.gate.slots, notices := t.gate.notices } }

theorem MarkFrame.refl (b : State) : MarkFrame b b := rfl

theorem MarkFrame.trans {s t u : State} (h : MarkFrame s t) (g : MarkFrame t u) : MarkFrame s u := by
  unfold MarkFrame at *
  rw [h] at g
  exact g

theorem MarkFrame.of_calm {s t : State} (h : OnlyCalm s t) : MarkFrame s t := by
  unfold OnlyCalm at h
  unfold MarkFrame
  generalize ha : t.conds = a at h ⊢
  generalize hb : t.roles = b at h ⊢
  generalize hc : t.lines = c at h ⊢
  generalize hd : t.gate.slots = d at h ⊢
  generalize he : t.gate.notices = e at h ⊢
  subst h
  rfl

theorem MarkFrame.of_conds {s t : State} {c : List CondRun} (h : t = { s with conds := c }) : MarkFrame s t := by
  subst h
  rfl

section
variable {b t : State} (h : MarkFrame b t)
include h

theorem MarkFrame.phase : t.phase = b.phase := by rw [h]
theorem MarkFrame.tables : t.tables = b.tables := by rw [h]
theorem MarkFrame.staging : t.staging = b.staging := by rw [h]
theorem MarkFrame.points : t.points = b.points := by rw [h]
theorem MarkFrame.flue : t.flue = b.flue := by rw [h]
theorem MarkFrame.pins : t.pins = b.pins := by rw [h]
theorem MarkFrame.circuits : t.circuits = b.circuits := by rw [h]
theorem MarkFrame.clock : t.clock = b.clock := by rw [h]
theorem MarkFrame.frostTimer : t.frostTimer = b.frostTimer := by rw [h]
theorem MarkFrame.up : t.gate.up = b.gate.up := by rw [h]
theorem MarkFrame.down : t.gate.down = b.gate.down := by rw [h]
theorem MarkFrame.seq : t.seq = { b.seq with triggers := t.seq.triggers } := by rw [h]
theorem MarkFrame.chain : t.seq.chain = b.seq.chain := by rw [h]
theorem MarkFrame.running : t.seq.running = b.seq.running := by rw [h]
theorem MarkFrame.demand : t.seq.demand = b.seq.demand := by rw [h]
theorem MarkFrame.present : t.gate.present = b.gate.present := by rw [h]

theorem MarkFrame.frostClaim (r : Nat) : t.frostClaim r = b.frostClaim r := by
  unfold State.frostClaim State.anyBlocked State.circuit
  rw [h.tables, h.circuits]

theorem MarkFrame.unheeded (hu : b.unheeded) (triggers : t.seq.triggers.length = 12) : t.unheeded := by
  obtain ⟨quiet, sources, -⟩ := hu
  refine ⟨fun x hx => ?_, fun n hn used => ?_, triggers⟩
  · rw [h.tables]
    exact quiet x (h.running.symm.trans hx)
  · rw [h.tables] at used ⊢
    exact sources n hn used

end

/-- A state on the way through a second mark that began in `b`. -/
structure OnMark (b t : State) : Prop where
  frame : MarkFrame b t
  sized : t.sized
  locked : t.locked = b.locked
  committing : t.committing = b.committing

theorem OnMark.unheeded {b t : State} (p : OnMark b t) (hu : b.unheeded) : t.unheeded := by
  obtain ⟨-, -, -, triggers, -⟩ := p.sized
  exact p.frame.unheeded hu triggers

theorem OnMark.switchCheck {b t : State} (p : OnMark b t) (n : Nat) (c : Cause) : t.switchCheck n c = b.switchCheck n c := by
  have tables := p.frame.tables
  have chain := p.frame.chain
  have present := p.frame.present
  unfold State.switchCheck State.outranked State.top State.active
  rw [tables, chain, present, p.locked, p.committing]

/-! ### The claims -/

theorem walked_all_sized {s : State} (h : s.sized) (rs : List CondInput) : (rs.foldl State.walked s).sized := by
  induction rs generalizing s with
  | nil => exact h
  | cons i rs ih =>
    rw [List.foldl_cons]
    have next := State.walked_sized h i
    generalize s.walked i = t at next ⊢
    exact ih next

theorem Segment.claims {b : State} (hn : b.phase = .normal) (hu : b.unheeded) :
    Segment (OnMark b) 50 (Did (fun _ roles => ∀ r, r < 12 → (roles.getD r RoleRun.reset).frost = b.frostClaim r) Eq Eq) [.frostClaims] := by
  intro s rest p
  have normal : s.phase = .normal := p.frame.phase.trans hn
  let f : Nat → RoleRun → RoleRun := fun r x => { x with frost := s.frostClaim r }
  have step := CalmStep.frostClaims p.sized
  obtain ⟨v, hv⟩ : ∃ v, v = s.appliedSlots f (List.range 12) := ⟨_, rfl⟩
  have first := Leads.take (Work.take_waiting s .frostClaims rest)
  have e : act .frostClaims (Work.waiting s rest) = ((Work.waiting s rest).withSt v).emit
      (((List.range 12).filter (s.movesApplied f)).map fun r => .condWalk (.role r)) := by
    rw [hv]
    exact (if_pos (State.normal_of_phase normal)).trans (applySlots_eq f (w := Work.waiting s rest) p.sized)
  rw [show s.appliedSlots _ (List.range 12) = v from hv.symm] at step
  have notices : v.gate.notices = s.gate.notices := by rw [hv, State.appliedSlots_eq]
  clear_value f
  clear hv
  have few : ((List.range 12).filter (s.movesApplied f)).length ≤ 12 :=
    Nat.le_trans (List.length_filter_le _ _) (Nat.le_of_eq List.length_range)
  have sized := step.sized p.sized
  have vFrame := MarkFrame.of_calm step.frame
  have vp : OnMark b v := ⟨p.frame.trans vFrame, sized, by rw [← p.locked]; unfold State.locked; rw [step.frame.fault],
    by rw [← p.committing]; unfold State.committing; rw [step.frame.store]⟩
  obtain ⟨k, hk, walks⟩ := condWalks_lead (step.frame.phase.trans normal) (vp.unheeded hu)
    (((List.range 12).filter (s.movesApplied f)).map CondInput.role)
    (fun i hi c k => by obtain ⟨r, -, rfl⟩ := List.mem_map.1 hi; cases k) rest
  rw [List.map_map, show Act.condWalk ∘ CondInput.role = fun r => Act.condWalk (.role r) from rfl] at walks
  have walked := walked_all_eq v (((List.range 12).filter (s.movesApplied f)).map CondInput.role)
  have walkedSized := walked_all_sized sized (((List.range 12).filter (s.movesApplied f)).map CondInput.role)
  generalize (((List.range 12).filter (s.movesApplied f)).map CondInput.role).foldl State.walked v = t at walks walked walkedSized
  rw [List.length_map] at hk
  rw [e] at first
  refine ⟨1 + 0 + k, t, by omega, (first.trans (Leads.emit s v _ rest)).trans walks, ⟨vp.frame.trans (MarkFrame.of_conds walked), walkedSized,
    by rw [← vp.locked, walked]; rfl, by rw [← vp.committing, walked]; rfl⟩, fun r hr => ?_, ?_, ?_⟩
  · rw [walked, ← p.frame.frostClaim]
    exact step.frosted rfl r hr
  · rw [walked]
    exact congrArg SeqUnit.triggers step.frame.seq.symm
  · rw [walked]
    show (s.fault, s.trace, s.store, s.gate.notices) = (v.fault, v.trace, v.store, v.gate.notices)
    rw [step.frame.fault, step.frame.trace, step.frame.store, notices]

/-! ### The requests -/

/-- The trigger flags after the requests of one mark (R106). -/
def requestedFlags (adds removes : List (Nat × Nat)) (flags : List Trigger) : List Trigger :=
  (List.range 12).map fun n => frostSource adds removes n (flags.getD n Trigger.clear)

theorem State.bestTrigger_lt {s : State} {n : Nat} (h : s.bestTrigger = some n) : n < 12 := by
  have fold (l : List Nat) (hl : ∀ i ∈ l, i < 12) (m : Option Nat) (hm : ∀ i, m = some i → i < 12) :
      ∀ i, l.foldl (fun m n =>
        if (s.trigger n).stands then
          match m with
          | some b => if (s.tables.seq b).priority < (s.tables.seq n).priority then some n else some b
          | none => some n
        else m) m = some i → i < 12 := by
    induction l generalizing m with
    | nil => exact hm
    | cons k l ih =>
      refine ih (fun i hi => hl i (List.mem_cons_of_mem _ hi)) _ fun i hi => ?_
      dsimp only at hi
      have first := hl k List.mem_cons_self
      split at hi
      · split at hi
        · split at hi
          · cases hi; exact first
          · exact hm i hi
        · cases hi; exact first
      · exact hm i hi
  exact fold (List.range 12) (fun i hi => List.mem_range.1 hi) none (fun i hi => nomatch hi) n h

/-- A flag that may not be served waits. -/
theorem examine_refused {w : Work} {n : Nat} (best : w.st.bestTrigger = some n) (refused : w.st.switchCheck n .trigger ≠ none)
    (inactive : w.st.switchCheck n .trigger ≠ some .active) : actExamineTriggers w = w := by
  unfold actExamineTriggers
  rw [best]
  dsimp only
  cases check : w.st.switchCheck n .trigger with
  | none => exact absurd check refused
  | some r =>
    cases r with
    | active => exact absurd check inactive
    | _ => exact ite_self _

theorem actExamineTriggers_of_refused {w : Work} (h : ∀ n, n < 12 → w.st.switchCheck n .trigger ≠ none ∧ w.st.switchCheck n .trigger ≠ some .active) :
    act .examineTriggers w = w := by
  have e : act .examineTriggers w = actExamineTriggers w := rfl
  rw [e]
  cases best : w.st.bestTrigger with
  | none =>
    rw [actExamineTriggers, best]
    exact ite_self _
  | some n =>
    obtain ⟨passes, active⟩ := h n (State.bestTrigger_lt best)
    exact examine_refused best passes active

/-- While nothing may be switched to, changed flags start nothing. -/
theorem updateTriggers_leads {s : State} (f : Nat → Trigger → Trigger)
    (refused : ∀ n, n < 12 → s.switchCheck n .trigger ≠ none ∧ s.switchCheck n .trigger ≠ some .active)
    (idle : s.seq.demand = false ∨ s.locked = true) (l : List Act) :
    ∃ m, m ≤ 2 ∧ Leads m (updateTriggers f (Work.waiting s l))
      (Work.waiting (s.setSeq { s.seq with triggers := (List.range 12).map fun n => f n (s.trigger n) }) l) := by
  unfold updateTriggers
  rw [Work.waiting_st]
  dsimp only
  obtain ⟨t, ht⟩ : ∃ t, t = s.setSeq { s.seq with triggers := (List.range 12).map fun n => f n (s.trigger n) } := ⟨_, rfl⟩
  have refused' : ∀ n, n < 12 → t.switchCheck n .trigger ≠ none ∧ t.switchCheck n .trigger ≠ some .active := by
    rw [ht]
    exact refused
  have demand : t.demandIdle := by
    have off : t.demandServed = false := by
      unfold State.demandServed
      rcases idle with h | h
      · rw [show t.seq.demand = false by rw [ht]; exact h]; simp
      · rw [show t.locked = true by rw [ht]; exact h]; simp
    unfold State.demandIdle
    rw [off]
    rfl
  rw [← ht]
  have idles (acts : List Act) (h : ∀ a ∈ acts, a = .examineTriggers ∨ a = .examineDemand) :
      Leads acts.length (((Work.waiting s l).withSt t).push acts) (Work.waiting t l) := by
    induction acts with
    | nil => exact Leads.refl _
    | cons a acts ih =>
      have first : Leads 1 (((Work.waiting s l).withSt t).push (a :: acts)) (act a (((Work.waiting s l).withSt t).push acts)) := Leads.take rfl
      have same : act a (((Work.waiting s l).withSt t).push acts) = ((Work.waiting s l).withSt t).push acts := by
        rcases h a List.mem_cons_self with rfl | rfl
        · exact actExamineTriggers_of_refused refused'
        · exact actExamineDemand_of_idle demand
      rw [same] at first
      rw [List.length_cons, Nat.add_comm]
      exact first.trans (ih fun b hb => h b (List.mem_cons_of_mem _ hb))
  refine ⟨_, ?_, idles _ fun a ha => ?_⟩
  · rw [List.length_append]
    split <;> split <;> simp
  · rcases List.mem_append.1 ha with k | k
    · split at k
      · exact .inl (List.mem_singleton.1 k)
      · cases k
    · split at k
      · exact .inr (List.mem_singleton.1 k)
      · cases k

theorem Segment.requests {b : State} (refused : ∀ n, n < 12 → b.switchCheck n .trigger ≠ none ∧ b.switchCheck n .trigger ≠ some .active)
    (idle : b.seq.demand = false ∨ b.locked = true) (adds removes : List (Nat × Nat)) :
    Segment (OnMark b) 50 (Did Eq (fun flags flags' => flags' = requestedFlags adds removes flags) Eq) [.frostHandoff adds removes] := by
  intro s rest p
  have first := Leads.take (Work.take_waiting s (.frostHandoff adds removes) rest)
  obtain ⟨m, few, lead⟩ := updateTriggers_leads (s := s) (frostSource adds removes)
    (fun n hn => by rw [p.switchCheck]; exact refused n hn) (idle.imp p.frame.demand.trans p.locked.trans) rest
  obtain ⟨h1, h2, h3, -, h4⟩ := p.sized
  exact ⟨1 + m, _, by omega, first.trans lead, ⟨p.frame.trans rfl, ⟨h1, h2, h3, by simp [State.setSeq], h4⟩, p.locked, p.committing⟩, rfl, rfl, rfl⟩

end Sys2Proof.Machine
end

section
/-! SUPPORT. The second mark of the Frost Unit: the faults of requests made while LOCKED, and the events of one mark. -/
namespace Sys2Proof.Machine

/-! ### The faults (R107, R146) -/

/-- The fault of a request that sequence `n` would serve, made while LOCKED (R107). -/
def blockedFault (n : Nat) : FaultIn := { code := 68, cls := .notice, seq := some n, step := none, line := none }

/-- What one such fault changes of the fault, the trace, the store and the notices; `b` says its time and flue temperature. -/
def Blamed (b : State) (n : Nat) (x y : FaultUnit × TraceUnit × Store × List Notice) : Prop :=
  y.1.record = some { code := 68, cls := .notice, outcome := .whileLocked, limitMark := false, seq := some n, step := none
                      line := none, time := b.faultTime, flueTemp := b.flueTemp } ∧
  (y.2.2.2.getD (codeOf NoticeKind.all .fault) Notice.none).flag = true ∧
  (∀ e rest, x.1.data.history = e :: rest → e.second = none →
    y.1.data = { x.1.data with history := { e with second := some 68 } :: rest }) ∧
  (∀ e rest, x.1.data.history = e :: rest → e.second.isSome = true → y.1.data = x.1.data)

theorem recordSecond_eq (code : Nat) (s : State) : recordSecond code s = { s with
    fault := (recordSecond code s).fault, store := (recordSecond code s).store
    gate := { s.gate with notices := (recordSecond code s).gate.notices } } := by
  unfold recordSecond
  split <;> rfl

theorem recordSecond_kept (code : Nat) (s : State) : (recordSecond code s).fault.data.locked = s.fault.data.locked ∧
    (recordSecond code s).store.commit = s.store.commit ∧ (recordSecond code s).fault.data.allowance = s.fault.data.allowance := by
  unfold recordSecond
  split
  · exact ⟨rfl, (requestPersist_store _).2, rfl⟩
  · exact ⟨rfl, rfl, rfl⟩

/-- The state after the fault of a blocked request has been traced and recorded. -/
def State.blamed (s : State) (n : Nat) : State :=
  (recordSecond 68 (s.setTrace (s.traced [.fault 68]))).noteFault (s.faultRecord (blockedFault n) .notice .whileLocked false)

theorem State.blamed_eq (s : State) (n : Nat) : s.blamed n = { s with
    fault := (s.blamed n).fault, trace := (s.blamed n).trace, store := (s.blamed n).store
    gate := { s.gate with notices := (s.blamed n).gate.notices } } := by
  have e := recordSecond_eq 68 (s.setTrace (s.traced [.fault 68]))
  unfold State.blamed
  generalize recordSecond 68 (s.setTrace (s.traced [.fault 68])) = u at e ⊢
  generalize ha : u.fault = a at e
  generalize hb : u.store = b at e
  generalize hc : u.gate.notices = c at e
  generalize s.traced [.fault 68] = t at e
  subst e
  rfl

theorem State.blamed_kept (s : State) (n : Nat) : (s.blamed n).locked = s.locked ∧ (s.blamed n).committing = s.committing := by
  obtain ⟨locked, commit, -⟩ := recordSecond_kept 68 (s.setTrace (s.traced [.fault 68]))
  refine ⟨locked, ?_⟩
  unfold State.committing
  rw [show (s.blamed n).store = (recordSecond 68 (s.setTrace (s.traced [.fault 68]))).store from rfl, commit]
  rfl

theorem State.blamed_blames {s : State} (hl : s.gate.notices.length = 7) (n : Nat) :
    Blamed s n s.reports (s.blamed n).reports ∧ (s.blamed n).gate.notices.length = 7 := by
  obtain ⟨-, -, length⟩ := recordSecond_seq 68 (s.setTrace (s.traced [.fault 68]))
  obtain ⟨flag, length'⟩ := noteFault_flag (s := recordSecond 68 (s.setTrace (s.traced [.fault 68]))) (length.trans hl)
    (s.faultRecord (blockedFault n) .notice .whileLocked false)
  refine ⟨⟨rfl, flag, fun e rest history empty => ?_, fun e rest history taken => ?_⟩, length'⟩
  · have filled := (recordSecond_empty (s := s.setTrace (s.traced [.fault 68])) 68 history empty).1
    exact congrArg FaultUnit.data filled
  · have same := recordSecond_taken (s := s.setTrace (s.traced [.fault 68])) 68 history taken
    show (recordSecond 68 (s.setTrace (s.traced [.fault 68]))).fault.data = _
    rw [same]
    rfl

theorem blockedFault_act {s : State} (locked : s.locked = true) (chain : s.seq.chain = []) (n : Nat) (l : List Act) :
    act (.takeFault (blockedFault n)) (Work.waiting s l) = ((Work.waiting s l).trace (.fault 68)).withSt (s.blamed n) := by
  show actTakeFault (blockedFault n) (Work.waiting s l) = _
  have recorded : AsRecorded (Work.idle s) (Work.waiting s l) := ⟨rfl, rfl, rfl⟩
  have trace : ((Work.waiting s l).trace (.fault 68)).st = s.setTrace (s.traced [.fault 68]) := by
    rw [Work.trace_st, (recorded.traced _).trace]
    rfl
  have stays : endPurge ((Work.waiting s l).trace (.fault 68)) = (Work.waiting s l).trace (.fault 68) := by
    refine if_pos ?_
    rw [trace]
    show s.seq.chain.isEmpty = true
    rw [chain]
    rfl
  rw [actTakeFault_locked (w := Work.waiting s l) locked]
  unfold faultLocked
  dsimp only
  rw [show (blockedFault n).code = 68 from rfl, stays, trace]
  rfl

theorem State.blamed_sized {s : State} (locked : s.locked = true) (chain : s.seq.chain = []) (hs : s.sized) (n : Nat) : (s.blamed n).sized := by
  have moves := act_moves (.takeFault (blockedFault n)) (Work.waiting s [])
  rw [blockedFault_act locked chain] at moves
  exact moves.keeps Move.sized hs

theorem blockedFault_leads {s : State} (locked : s.locked = true) (chain : s.seq.chain = []) (hl : s.gate.notices.length = 7) (n : Nat)
    (l : List Act) : ∃ m ns, m ≤ 3 ∧ ns.length = 7 ∧
      Leads m (Work.waiting s (.takeFault (blockedFault n) :: l)) (Work.waiting ((s.blamed n).withNotices ns) l) ∧
      (((s.blamed n).withNotices ns).notice .fault).flag = true := by
  have first := Leads.take (Work.take_waiting s (.takeFault (blockedFault n)) l)
  have e := blockedFault_act locked chain n l
  rw [e] at first
  obtain ⟨⟨-, flag, -⟩, length⟩ := s.blamed_blames hl n
  have ends (halves : List Nat) (few : halves.length ≤ 2)
      (shape : ((Work.waiting s l).trace (.fault 68)).withSt (s.blamed n) = Work.ending (s.blamed n) halves l) :
      ∃ m ns, m ≤ 3 ∧ ns.length = 7 ∧
        Leads m (Work.waiting s (.takeFault (blockedFault n) :: l)) (Work.waiting ((s.blamed n).withNotices ns) l) ∧
        (((s.blamed n).withNotices ns).notice .fault).flag = true := by
    obtain ⟨ns, rest, kept, sized⟩ := ending_leads_raised halves l length
    rw [shape] at first
    exact ⟨1 + halves.length, ns, by omega, sized, first.trans rest, kept _ flag⟩
  rcases trace_waiting s (.fault 68) l with set | ⟨idle, -⟩
  · obtain ⟨halves, few, shape⟩ := setTrace_waiting s (s.traced [.fault 68]) l
    exact ends halves few (by rw [set, shape]; rfl)
  · exact ends [] (Nat.zero_le _) (by rw [idle]; rfl)

/-- The faults of the circuits that wait for these sequences, one after the other. -/
def BlamedAll (b : State) : List Nat → FaultUnit × TraceUnit × Store × List Notice → FaultUnit × TraceUnit × Store × List Notice → Prop
  | [] => Eq
  | n :: ns => Following (Blamed b n) (BlamedAll b ns)

/-- Of the faults of one mark the last is recorded, and the first alone can be a second fault (R143, R146). -/
theorem BlamedAll.last {b : State} {ns : List Nat} {n : Nat} {x y : FaultUnit × TraceUnit × Store × List Notice}
    (h : BlamedAll b (ns ++ [n]) x y) : Blamed b n x y := by
  induction ns generalizing x with
  | nil =>
    obtain ⟨z, first, rfl⟩ := h
    exact first
  | cons a ns ih =>
    obtain ⟨z, ⟨-, -, filled, kept⟩, later⟩ := h
    obtain ⟨record, flag, -, stays⟩ := ih later
    refine ⟨record, flag, fun e rest history empty => ?_, fun e rest history taken => ?_⟩
    · have data := filled e rest history empty
      exact (stays _ rest (congrArg LockoutData.history data) rfl).trans data
    · have data := kept e rest history taken
      exact (stays e rest ((congrArg LockoutData.history data).trans history) taken).trans data

theorem OnMark.blamed {b s : State} (p : OnMark b s) (on : b.locked = true) (chain : b.seq.chain = []) (n : Nat) {ns : List Notice} (hl : ns.length = 7) :
    OnMark b ((s.blamed n).withNotices ns) := by
  obtain ⟨locked, committing⟩ := s.blamed_kept n
  have e := s.blamed_eq n
  have sized := State.blamed_sized (p.locked.trans on) (p.frame.chain.trans chain) p.sized n
  generalize s.blamed n = u at e locked committing sized ⊢
  have frame : MarkFrame s (u.withNotices ns) := by
    generalize ha : u.fault = a at e
    generalize hb : u.trace = b at e
    generalize hc : u.store = c at e
    generalize hd : u.gate.notices = d at e
    subst e
    rfl
  obtain ⟨h1, h2, h3, h4, h5, h6, h7, h8, h9, -, h10⟩ := sized
  exact ⟨p.frame.trans frame, ⟨h1, h2, h3, h4, h5, h6, h7, h8, h9, hl, h10⟩, locked.trans p.locked, committing.trans p.committing⟩

theorem Segment.faults {b : State} (locked : b.locked = true) (chain : b.seq.chain = []) (ns : List Nat) :
    Segment (OnMark b) (3 * ns.length) (Did Eq Eq (BlamedAll b ns)) (ns.map fun n => .takeFault (blockedFault n)) := by
  induction ns with
  | nil => exact Segment.nil _ _
  | cons n ns ih =>
    have one : Segment (OnMark b) 3 (Did Eq Eq (Blamed b n)) [.takeFault (blockedFault n)] := by
      intro s rest p
      have length : s.gate.notices.length = 7 := by obtain ⟨-, -, -, -, -, -, -, -, -, length, -⟩ := p.sized; exact length
      obtain ⟨m, c, few, hc, lead, flag⟩ := blockedFault_leads (p.locked.trans locked) (p.frame.chain.trans chain) length n rest
      obtain ⟨⟨record, -, filled, kept⟩, -⟩ := s.blamed_blames length n
      rw [faultTime_of_eq p.frame.clock, flueTemp_of_eq p.frame.tables p.frame.points] at record
      have e := s.blamed_eq n
      refine ⟨m, _, few, lead, p.blamed locked chain n hc, ?_, ?_, record, flag, filled, kept⟩
      · exact (congrArg State.roles e).symm
      · exact (congrArg (fun u : State => u.seq.triggers) e).symm
    have both := one.append ih
    simp only [following_eq] at both
    rw [show 3 * (n :: ns).length = 3 + 3 * ns.length by rw [List.length_cons]; omega]
    exact both

/-! ### The circuits of a mark -/

theorem mem_movedCircuits {s t : State} {c : Nat} (h : c < 6) (stage : (s.circuit c).stage ≠ (t.circuit c).stage) : movedCircuits s t ≠ [] := by
  refine List.ne_nil_of_mem (a := c) (List.mem_filter.2 ⟨List.mem_range.2 h, ?_⟩)
  simp [circuitMoved, stage]

theorem transitions_contains {s t : State} {a b : Stage} {c n : Nat} : (transitions s t a b).contains (c, n) = true ↔
    c < 6 ∧ ((s.circuit c).stage = a ∧ (t.circuit c).stage = b) ∧ (s.tables.circuit c).tier2 = some n := by
  rw [List.contains_iff_mem]
  unfold transitions
  rw [List.mem_filterMap]
  constructor
  · rintro ⟨d, hd, e⟩
    split at e
    · next made =>
      obtain ⟨k, hk, pair⟩ := Option.map_eq_some_iff.1 e
      cases pair
      exact ⟨List.mem_range.1 hd, made, hk⟩
    · cases e
  · rintro ⟨hc, made, named⟩
    exact ⟨c, List.mem_range.2 hc, by rw [if_pos made, named]; rfl⟩

theorem transitions_nil {s t : State} {a b : Stage} (h : ∀ c, c < 6 → ¬ ((s.circuit c).stage = a ∧ (t.circuit c).stage = b)) :
    transitions s t a b = [] :=
  List.filterMap_eq_nil_iff.2 fun c hc => if_neg (h c (List.mem_range.1 hc))

/-- The transition of the highest circuit that makes it comes last. -/
theorem transitions_last {s t : State} {a b : Stage} {c n : Nat} (hc : c < 6) (made : (s.circuit c).stage = a ∧ (t.circuit c).stage = b)
    (named : (s.tables.circuit c).tier2 = some n) (highest : ∀ d, c < d → d < 6 → ¬ ((s.circuit d).stage = a ∧ (t.circuit d).stage = b)) :
    ∃ before, transitions s t a b = before ++ [(c, n)] ∧
      ((∀ d, d < c → ¬ ((s.circuit d).stage = a ∧ (t.circuit d).stage = b)) → before = []) := by
  let f : Nat → Option (Nat × Nat) := fun c =>
    if (s.circuit c).stage = a ∧ (t.circuit c).stage = b then (s.tables.circuit c).tier2.map fun n => (c, n) else none
  have split : List.range 6 = List.range c ++ c :: (List.range (5 - c)).map (c + 1 + ·) := by
    rw [show (6 : Nat) = c + 1 + (5 - c) by omega, List.range_add, List.range_succ, List.append_assoc]
    rfl
  have last : f c = some (c, n) := by
    show (if _ then _ else _) = _
    rw [if_pos made, named]
    rfl
  have later : ((List.range (5 - c)).map (c + 1 + ·)).filterMap f = [] := by
    refine List.filterMap_eq_nil_iff.2 fun d hd => if_neg ?_
    obtain ⟨k, hk, rfl⟩ := List.mem_map.1 hd
    have inside := List.mem_range.1 hk
    exact highest _ (by omega) (by omega)
  refine ⟨(List.range c).filterMap f, ?_, fun alone => List.filterMap_eq_nil_iff.2 fun d hd => if_neg (alone d (List.mem_range.1 hd))⟩
  show (List.range 6).filterMap f = _
  rw [split, List.filterMap_append, List.filterMap_cons_some last, later]

end Sys2Proof.Machine
end

section
/-! SUPPORT. The second mark of the Frost Unit to the end of its event. -/
namespace Sys2Proof.Machine

/-! ### The event of a second mark -/

/-- The notices of the circuits that moved wait at the end of the event. -/
theorem frostMoved_fins (w : Work) (cs moved : List Nat) (h : w.fins = cs.map .frostNotice) :
    ∃ ds : List Nat, ds.length ≤ cs.length + moved.length ∧ w.frostMoved moved = { w with fins := ds.map .frostNotice } := by
  unfold Work.frostMoved
  induction moved generalizing w cs with
  | nil => exact ⟨cs, by simp, by rw [List.foldl_nil, ← h]⟩
  | cons c moved ih =>
    have next : (w.fin (.frostNotice c)).fins = (cs.filter (fun d => Act.frostNotice d != .frostNotice c) ++ [c]).map .frostNotice := by
      show w.fins.filter (fun x => x != .frostNotice c) ++ [.frostNotice c] = _
      rw [h, List.filter_map, List.map_append]
      rfl
    obtain ⟨ds, few, e⟩ := ih (w.fin (.frostNotice c)) _ next
    have shorter : (cs.filter (fun d => Act.frostNotice d != .frostNotice c)).length ≤ cs.length := List.length_filter_le _ _
    rw [List.length_append, List.length_singleton] at few
    exact ⟨ds, by rw [List.length_cons]; omega, by rw [List.foldl_cons, e]; rfl⟩

theorem frostNotices_lead (t : State) (cs : List Nat) (acts : List Act) : ∃ ns, ns.length = t.gate.notices.length ∧
    Leads cs.length { st := t, stack := [], fins := cs.map .frostNotice, emitted := acts, queue := [] } (Work.waiting (t.withNotices ns) acts) := by
  induction cs generalizing t with
  | nil =>
    have none := Leads.emitted (w := { st := t, stack := [], fins := [], emitted := acts, queue := [] }) rfl rfl
    rw [List.append_nil] at none
    exact ⟨t.gate.notices, rfl, none⟩
  | cons c cs ih =>
    obtain ⟨ns, length, rest⟩ := ih (t.raiseNotice .frost (t.frostContent c))
    have first : Leads 1 { st := t, stack := [], fins := (c :: cs).map .frostNotice, emitted := acts, queue := [] }
        { st := t.raiseNotice .frost (t.frostContent c), stack := [], fins := cs.map .frostNotice, emitted := acts, queue := [] } :=
      Leads.take (a := .frostNotice c) (w' := { st := t, stack := [], fins := cs.map .frostNotice, emitted := acts, queue := [] }) rfl
    exact ⟨ns, length.trans List.length_set, by rw [List.length_cons, Nat.add_comm]; exact first.trans rest⟩

/-- The requests of one mark, as one hand-off (R106). -/
def requestActs (adds removes : List (Nat × Nat)) : List Act :=
  if adds.isEmpty && removes.isEmpty then [] else [.frostHandoff adds removes]

theorem frostMark_leads {s : State} (hn : s.phase = .normal) : ∃ k ns, k ≤ 6 ∧ ns.length = s.gate.notices.length ∧
    Leads k (frostMark (Work.idle s)) (Work.waiting (s.markedCircuits.withNotices ns)
      (arrange s.order (claimsIfMoved (movedCircuits s s.markedCircuits))
        (requestActs (transitions s s.markedCircuits .circulate .firingRequested) (transitions s s.markedCircuits .firingRequested .circulate))
        (blockedFaults s (transitions s s.markedCircuits .circulate .firingRequested)))) := by
  have few := movedCircuits_length s s.markedCircuits
  have e : frostMark (Work.idle s) = (((Work.idle s).withSt s.markedCircuits).emit
      (arrange s.order (claimsIfMoved (movedCircuits s s.markedCircuits))
        (requestActs (transitions s s.markedCircuits .circulate .firingRequested) (transitions s s.markedCircuits .firingRequested .circulate))
        (blockedFaults s (transitions s s.markedCircuits .circulate .firingRequested)))).frostMoved (movedCircuits s s.markedCircuits) :=
    if_pos (State.normal_of_phase hn)
  rw [e]
  generalize arrange s.order _ _ _ = acts
  obtain ⟨ds, hd, shape⟩ := frostMoved_fins (((Work.idle s).withSt s.markedCircuits).emit acts) [] (movedCircuits s s.markedCircuits) rfl
  rw [List.length_nil] at hd
  obtain ⟨ns, length, lead⟩ := frostNotices_lead s.markedCircuits ds acts
  rw [shape]
  exact ⟨ds.length, ns, by omega, length, lead⟩

theorem blockedFaults_eq (s : State) (adds : List (Nat × Nat)) : blockedFaults s adds =
    if s.locked = true then (adds.map Prod.snd).map fun n => .takeFault (blockedFault n) else [] := by
  unfold blockedFaults
  rw [List.map_map]
  rfl

/-! ### What a mark leaves -/

/-- What the requests of one mark leave of the flags (R106). -/
def FlagsAsked (adds removes : List (Nat × Nat)) (flags flags' : List Trigger) : Prop :=
  (∀ n, n < 12 → (flags'.getD n Trigger.clear).own = (flags.getD n Trigger.clear).own ∧
    ∀ c, c < 6 → (flags'.getD n Trigger.clear).circuits.getD c false =
      if adds.contains (c, n) then true else if removes.contains (c, n) then false else (flags.getD n Trigger.clear).circuits.getD c false) ∧
  (adds = [] ∧ removes = [] → flags' = flags)

theorem flagsAsked_requested {adds removes : List (Nat × Nat)} (some' : ¬ (adds = [] ∧ removes = [])) (flags : List Trigger) :
    FlagsAsked adds removes flags (requestedFlags adds removes flags) := by
  refine ⟨fun n hn => ?_, fun k => absurd k some'⟩
  unfold requestedFlags
  rw [getD_map_range, if_pos hn]
  refine ⟨rfl, fun c hc => ?_⟩
  unfold frostSource
  rw [getD_map_range, if_pos hc]

/-- What the claims of one mark leave: those of the circuits as they stand when one has moved, and the old ones otherwise. -/
def ClaimsTaken (b : State) (moved : List Nat) (roles roles' : List RoleRun) : Prop :=
  (moved ≠ [] → ∀ r, r < 12 → (roles'.getD r RoleRun.reset).frost = b.frostClaim r) ∧ (moved = [] → roles' = roles)

section
variable {P : State → Prop} {n : Nat} {l : List Act}

theorem Segment.mono {R Q : State → State → Prop} (h : Segment P n R l) (sub : ∀ s t, R s t → Q s t) : Segment P n Q l := by
  intro s rest p
  obtain ⟨m, t, few, lead, q, r⟩ := h s rest p
  exact ⟨m, t, few, lead, q, sub s t r⟩

theorem Segment.loosen {R : State → State → Prop} {n' : Nat} (h : Segment P n R l) (more : n ≤ n') : Segment P n' R l := by
  intro s rest p
  obtain ⟨m, t, few, rest⟩ := h s rest p
  exact ⟨m, t, Nat.le_trans few more, rest⟩

end

theorem BlamedAll.of_eq {a b : State} (time : b.faultTime = a.faultTime) (temp : b.flueTemp = a.flueTemp) (ns : List Nat) :
    BlamedAll b ns = BlamedAll a ns := by
  induction ns with
  | nil => rfl
  | cons n ns ih =>
    unfold BlamedAll
    rw [ih]
    congr 1
    unfold Blamed
    rw [time, temp]

theorem Segment.claimsIfMoved {b : State} (hn : b.phase = .normal) (hu : b.unheeded) (moved : List Nat) :
    Segment (OnMark b) 50 (Did (ClaimsTaken b moved) Eq Eq) (claimsIfMoved moved) := by
  cases moved with
  | nil =>
    refine (Segment.nil (OnMark b) 50).mono fun s t did => ?_
    obtain ⟨roles, rest⟩ := did
    exact ⟨⟨fun k => absurd rfl k, fun _ => roles.symm⟩, rest⟩
  | cons c moved =>
    refine (Segment.claims hn hu).mono fun s t did => ?_
    obtain ⟨roles, rest⟩ := did
    exact ⟨⟨fun _ => roles, fun k => nomatch k⟩, rest⟩

theorem Segment.requestActs {b : State} (adds removes : List (Nat × Nat))
    (served : adds = [] ∧ removes = [] ∨ (∀ n, n < 12 → b.switchCheck n .trigger ≠ none ∧ b.switchCheck n .trigger ≠ some .active) ∧
      (b.seq.demand = false ∨ b.locked = true)) :
    Segment (OnMark b) 50 (Did Eq (FlagsAsked adds removes) Eq) (requestActs adds removes) := by
  by_cases h : adds = [] ∧ removes = []
  · obtain ⟨rfl, rfl⟩ := h
    refine (Segment.nil (OnMark b) 50).mono fun s t did => ?_
    obtain ⟨roles, flags, reports⟩ := did
    exact ⟨roles, by rw [flags]; exact ⟨fun n _ => ⟨rfl, fun c _ => rfl⟩, fun _ => rfl⟩, reports⟩
  · obtain ⟨refused, idle⟩ := served.resolve_left h
    have e : Sys2Proof.Machine.requestActs adds removes = [.frostHandoff adds removes] := by
      refine if_neg ?_
      rw [Bool.and_eq_true, List.isEmpty_iff, List.isEmpty_iff]
      exact h
    rw [e]
    refine (Segment.requests refused idle adds removes).mono fun s t did => ?_
    obtain ⟨roles, flags, reports⟩ := did
    exact ⟨roles, by rw [flags]; exact flagsAsked_requested h _, reports⟩

/-- What a second mark leaves, from the state `s` in which it was taken, when no switch follows. -/
structure Marked (s u : State) : Prop where
  timer : u.frostTimer = 0
  claims : ClaimsTaken s.markedCircuits (movedCircuits s s.markedCircuits) s.roles u.roles
  points : u.points = s.points
  flue : u.flue = s.flue
  pins : u.pins = s.pins
  tables : u.tables = s.tables
  staging : u.staging = s.staging
  up : u.gate.up = s.gate.up
  down : u.gate.down = s.gate.down
  seq : u.seq = { s.seq with triggers := u.seq.triggers }
  flags : FlagsAsked (transitions s s.markedCircuits .circulate .firingRequested) (transitions s s.markedCircuits .firingRequested .circulate)
    s.seq.triggers u.seq.triggers
  circuits : u.circuits = s.markedCircuits.circuits

theorem markedCircuits_sized {s : State} (h : s.sized) (ns : List Notice) (hl : ns.length = 7) :
    (({ s with frostTimer := 0 } : State).markedCircuits.withNotices ns).sized := by
  obtain ⟨h1, h2, h3, h4, -, h6, h7, h8, h9, -, h11⟩ := h
  exact ⟨h1, h2, h3, h4, by simp [State.withNotices, State.setGate, State.markedCircuits], h6, h7, h8, h9, hl, h11⟩

/-- A second mark after which no switch is made: while UNLOCKED it raises no fault, and while LOCKED the faults of `ns`. -/
theorem finish_frostMark {s : State} (hn : s.phase = .normal) (hs : s.sized) (hu : s.unheeded)
    (served : transitions s s.markedCircuits .circulate .firingRequested = [] ∧ transitions s s.markedCircuits .firingRequested .circulate = [] ∨
      (∀ n, n < 12 → s.switchCheck n .trigger ≠ none ∧ s.switchCheck n .trigger ≠ some .active) ∧ (s.seq.demand = false ∨ s.locked = true))
    (ns : List Nat) (faults : blockedFaults s (transitions s s.markedCircuits .circulate .firingRequested)
      = ns.map fun n => .takeFault (blockedFault n)) (few : ns.length ≤ 6) (locked : ns = [] ∨ s.locked = true ∧ s.seq.chain = []) :
    ∃ u notices, exec .frostSecondMark s = .next u.arbitrate ∧ Marked s u ∧
      BlamedAll s ns (s.fault, s.trace, s.store, notices) u.reports := by
  let s' : State := { s with frostTimer := 0 }
  have powered : s.powered = true := by unfold State.powered; rw [hn]; rfl
  have e : exec .frostSecondMark s = finish (frostMark (Work.idle s')) := if_pos powered
  obtain ⟨k, notices, hk, length, lead⟩ := frostMark_leads (s := s') hn
  have hl : s.gate.notices.length = 7 := by obtain ⟨-, -, -, -, -, -, -, -, -, hl, -⟩ := hs; exact hl
  obtain ⟨b, hb⟩ : ∃ b, b = s'.markedCircuits.withNotices notices := ⟨_, rfl⟩
  have sized : b.sized := by rw [hb]; exact markedCircuits_sized hs notices (length.trans hl)
  have start : OnMark b b := ⟨MarkFrame.refl b, sized, rfl, rfl⟩
  have normal : b.phase = .normal := by rw [hb]; exact hn
  have unheeded : b.unheeded := by rw [hb]; exact hu
  have claims := Segment.claimsIfMoved normal unheeded (movedCircuits s s.markedCircuits)
  have requests := Segment.requestActs (b := b) (transitions s s.markedCircuits .circulate .firingRequested)
    (transitions s s.markedCircuits .firingRequested .circulate) (by rw [hb]; exact served)
  have faulted : Segment (OnMark b) 50 (Did Eq Eq (BlamedAll s ns)) (blockedFaults s (transitions s s.markedCircuits .circulate .firingRequested)) := by
    have time : b.faultTime = s.faultTime := faultTime_of_eq (by rw [hb]; rfl)
    have temp : b.flueTemp = s.flueTemp := flueTemp_of_eq (by rw [hb]; rfl) (by rw [hb]; rfl)
    rw [faults, ← BlamedAll.of_eq time temp]
    rcases locked with rfl | ⟨on, empty⟩
    · exact Segment.nil _ _
    · exact (Segment.faults (b := b) (by rw [hb]; exact on) (by rw [hb]; exact empty) ns).loosen (by omega)
  obtain ⟨m, u, hm, run, marked, roles, flags, reports⟩ := claims.arranged requests faulted s.order b [] start
  rw [List.append_nil] at run
  have lead' : Leads k (frostMark (Work.idle s')) (Work.waiting b (arrange s.order (claimsIfMoved (movedCircuits s s.markedCircuits))
      (requestActs (transitions s s.markedCircuits .circulate .firingRequested) (transitions s s.markedCircuits .firingRequested .circulate))
      (blockedFaults s (transitions s s.markedCircuits .circulate .firingRequested)))) := by
    rw [hb]
    exact lead
  have frame := marked.frame
  have shared (r : Nat) : b.frostClaim r = s.markedCircuits.frostClaim r := by rw [hb]; rfl
  refine ⟨u, notices, e.trans ((lead'.trans run).finish (by have : Config.cascadeLimit = 65536 := rfl; omega) rfl), ?_, ?_⟩
  · refine ⟨frame.frostTimer.trans ?_, ⟨fun h r hr => (roles.1 h r hr).trans (shared r), fun h => (roles.2 h).trans ?_⟩, frame.points.trans ?_,
      frame.flue.trans ?_, frame.pins.trans ?_, frame.tables.trans ?_, frame.staging.trans ?_, frame.up.trans ?_, frame.down.trans ?_,
      frame.seq.trans ?_, ?_, frame.circuits.trans ?_⟩
    case refine_11 =>
      rw [hb] at flags
      exact flags
    all_goals rw [hb]; rfl
  · rw [hb] at reports
    exact reports

end Sys2Proof.Machine
end

section
/-! SUPPORT. The FROST claim as a highest claim, and a trigger that a second mark serves. -/
namespace Sys2Proof.Machine

/-! ### The highest of the claims (R105) -/

/-- `o` is the highest of the values with `S`, and none when there are none. -/
def IsHighest (o : Option Nat) (S : Nat → Prop) : Prop :=
  (∀ v, o = some v → S v ∧ ∀ w, S w → w ≤ v) ∧ (o = none → ∀ w, ¬ S w)

theorem IsHighest.self (o : Option Nat) : IsHighest o (fun v => o = some v) := by
  refine ⟨fun v h => ⟨h, fun w k => ?_⟩, fun h w k => ?_⟩
  · rw [h, Option.some.injEq] at k
    omega
  · rw [h] at k
    cases k

theorem IsHighest.congr {o : Option Nat} {S T : Nat → Prop} (h : IsHighest o S) (e : ∀ v, S v ↔ T v) : IsHighest o T := by
  have same : S = T := funext fun v => propext (e v)
  rw [← same]
  exact h

theorem IsHighest.max {a b : Option Nat} {S T : Nat → Prop} (h : IsHighest a S) (g : IsHighest b T) :
    IsHighest (maxClaim a b) (fun v => S v ∨ T v) := by
  cases a with
  | none =>
    have empty := h.2 rfl
    have e : maxClaim none b = b := by cases b <;> rfl
    rw [e]
    exact g.congr fun v => ⟨.inr, fun k => k.resolve_left (empty v)⟩
  | some x =>
    cases b with
    | none =>
      have empty := g.2 rfl
      exact h.congr fun v => ⟨.inl, fun k => k.resolve_right (empty v)⟩
    | some y =>
      obtain ⟨hx, aboveX⟩ := h.1 x rfl
      obtain ⟨hy, aboveY⟩ := g.1 y rfl
      have e : maxClaim (some x) (some y) = some (Nat.max x y) := rfl
      rw [e]
      refine ⟨fun v hv => ?_, fun k => nomatch k⟩
      cases hv
      refine ⟨?_, fun w hw => hw.elim (fun k => Nat.le_trans (aboveX w k) (Nat.le_max_left x y)) fun k => Nat.le_trans (aboveY w k) (Nat.le_max_right x y)⟩
      rcases Nat.le_total x y with le | le
      · rw [show Nat.max x y = y from Nat.max_eq_right le]; exact .inr hy
      · rw [show Nat.max x y = x from Nat.max_eq_left le]; exact .inl hx

theorem IsHighest.foldl {l : List Nat} {g : Nat → Option Nat} {T : Nat → Nat → Prop} (hg : ∀ c, IsHighest (g c) (T c))
    {o : Option Nat} {S : Nat → Prop} (h : IsHighest o S) :
    IsHighest (l.foldl (fun m c => maxClaim m (g c)) o) (fun v => S v ∨ ∃ c, c ∈ l ∧ T c v) := by
  induction l generalizing o S with
  | nil => exact h.congr fun v => by simp
  | cons c l ih =>
    refine (ih (h.max (hg c))).congr fun v => ?_
    simp only [List.mem_cons, exists_eq_or_imp, or_assoc]

/-- A tier-1 place of a circuit claims `v` for role `r`. -/
theorem tierClaim_iff (o : Option TierRole) (r v : Nat) : tierClaim o r = some v ↔ ∃ p, o = some p ∧ p.role = r ∧ p.output.claim = some v := by
  unfold tierClaim
  cases o with
  | none => simp
  | some p =>
    by_cases h : p.role = r
    · simp [h]
    · simp [h]

theorem circuitClaim_highest (e : CircuitEntry) (x : CircuitRun) (r : Nat) : IsHighest (circuitClaim e x r)
    (fun v => e.inUse = true ∧ x.stage ≠ .quiet ∧ ∃ p : TierRole, (e.tierA = some p ∨ e.tierB = some p) ∧ p.role = r ∧ p.output.claim = some v) := by
  have stage : x.stage.claims = true ↔ x.stage ≠ .quiet := by cases x.stage <;> simp [Stage.claims]
  unfold circuitClaim
  split
  · next on =>
    obtain ⟨used, claims⟩ := Bool.and_eq_true_iff.1 on
    refine ((IsHighest.self (tierClaim e.tierA r)).max (IsHighest.self (tierClaim e.tierB r))).congr fun v => ?_
    rw [tierClaim_iff, tierClaim_iff]
    constructor
    · rintro (⟨p, named, rest⟩ | ⟨p, named, rest⟩)
      · exact ⟨used, stage.1 claims, p, .inl named, rest⟩
      · exact ⟨used, stage.1 claims, p, .inr named, rest⟩
    · rintro ⟨-, -, p, named | named, rest⟩
      · exact .inl ⟨p, named, rest⟩
      · exact .inr ⟨p, named, rest⟩
  · next off =>
    refine (IsHighest.self none).congr fun v => ⟨fun k => (nomatch k), fun ⟨used, moving, _⟩ => ?_⟩
    exact absurd (Bool.and_eq_true_iff.2 ⟨used, stage.2 moving⟩) off

theorem anyBlocked_iff (s : State) : s.anyBlocked = true ↔ ∃ c, c < 6 ∧ (s.tables.circuit c).inUse = true ∧ (s.circuit c).blocked = true := by
  unfold State.anyBlocked
  simp [List.any_eq_true]

theorem frostClaim_highest (s : State) (r : Nat) : IsHighest (s.frostClaim r) (fun v =>
    (∃ c, c < 6 ∧ (s.tables.circuit c).inUse = true ∧ (s.circuit c).stage ≠ .quiet ∧
      ∃ p : TierRole, ((s.tables.circuit c).tierA = some p ∨ (s.tables.circuit c).tierB = some p) ∧ p.role = r ∧ p.output.claim = some v) ∨
    (r = 7 ∧ v = 1000 ∧ ∃ c, c < 6 ∧ (s.tables.circuit c).inUse = true ∧ (s.circuit c).blocked = true)) := by
  have alarm : IsHighest (if r = 7 ∧ s.anyBlocked = true then some 1000 else none)
      (fun v => r = 7 ∧ v = 1000 ∧ ∃ c, c < 6 ∧ (s.tables.circuit c).inUse = true ∧ (s.circuit c).blocked = true) := by
    refine (IsHighest.self _).congr fun v => ?_
    rw [← anyBlocked_iff]
    split
    · next on => simp [on, eq_comm]
    · next off => exact ⟨fun k => (nomatch k), fun ⟨seven, _, blocked⟩ => absurd ⟨seven, blocked⟩ off⟩
  refine (alarm.foldl (l := List.range 6) fun c => circuitClaim_highest (s.tables.circuit c) (s.circuit c) r).congr fun v => ?_
  simp only [List.mem_range]
  exact or_comm

/-- A blocked circuit in use raises the ALARM (R105). -/
theorem frostClaim_alarm {s : State} {c : Nat} (h : c < 6) (used : (s.tables.circuit c).inUse = true) (blocked : (s.circuit c).blocked = true) :
    ∃ v, s.frostClaim 7 = some v ∧ 1000 ≤ v := by
  obtain ⟨some', none'⟩ := frostClaim_highest s 7
  cases claim : s.frostClaim 7 with
  | none => exact absurd (.inr ⟨rfl, rfl, c, h, used, blocked⟩) (none' claim 1000)
  | some v => exact ⟨v, rfl, (some' v claim).2 1000 (.inr ⟨rfl, rfl, c, h, used, blocked⟩)⟩

end Sys2Proof.Machine
end

section
/-! SUPPORT. A second mark whose request is served at once: the claims on the way to the call, and the call. -/
namespace Sys2Proof.Machine

/-! ### On the way to the call -/

/-- Only circuits, claims, lines, slots, notices and the mark's own timer differ. -/
def CallScene (s t : State) : Prop :=
  t = { s with circuits := t.circuits, frostTimer := t.frostTimer, roles := t.roles, lines := t.lines
               gate := { s.gate with slots := t.gate.slots, notices := t.gate.notices } }

theorem CallScene.trans {s t u : State} (h : CallScene s t) (g : CallScene t u) : CallScene s u := by
  unfold CallScene at *
  rw [h] at g
  exact g

section
variable {s t : State} (h : CallScene s t)
include h

theorem CallScene.tables : t.tables = s.tables := by rw [h]
theorem CallScene.seq : t.seq = s.seq := by rw [h]
theorem CallScene.phase : t.phase = s.phase := by rw [h]
theorem CallScene.points : t.points = s.points := by rw [h]
theorem CallScene.conds : t.conds = s.conds := by rw [h]
theorem CallScene.pins : t.pins = s.pins := by rw [h]
theorem CallScene.staging : t.staging = s.staging := by rw [h]
theorem CallScene.fault : t.fault = s.fault := by rw [h]
theorem CallScene.store : t.store = s.store := by rw [h]
theorem CallScene.trace : t.trace = s.trace := by rw [h]
theorem CallScene.clock : t.clock = s.clock := by rw [h]
theorem CallScene.up : t.gate.up = s.gate.up := by rw [h]
theorem CallScene.down : t.gate.down = s.gate.down := by rw [h]
theorem CallScene.present : t.gate.present = s.gate.present := by rw [h]

theorem CallScene.unwatched (hu : s.unwatched) : t.unwatched := fun c hc => by rw [h.tables]; exact hu c hc

theorem CallScene.switchCheck (n : Nat) (c : Cause) : t.switchCheck n c = s.switchCheck n c := by
  have tables := h.tables
  have seq := h.seq
  have present := h.present
  have fault := h.fault
  have store := h.store
  unfold State.switchCheck State.outranked State.top State.active State.locked State.committing
  rw [tables, seq, present, fault, store]

theorem CallScene.seqEntersQuietly {n : Nat} (heard : ∀ r, r < 12 → (t.role r).heard = (s.role r).heard) (q : s.seqEntersQuietly n) :
    t.seqEntersQuietly n := by
  obtain ⟨all, quiet, idle⟩ := q
  have tables := h.tables
  have conds := h.conds
  have seq := h.seq
  refine ⟨?_, ?_, ?_⟩
  · unfold State.entryHeard at *
    rw [tables]
    refine List.all_eq_true.2 fun r hr => ?_
    rw [heard r (List.mem_range.1 hr)]
    exact List.all_eq_true.1 all r hr
  · unfold State.entersQuietly State.supervisionFails State.held State.cond at *
    rw [tables, conds]
    exact quiet
  · unfold State.noTriggers at *
    rw [seq]
    exact idle

/-- What stands after a call, seen from before the claims. -/
theorem CallScene.calledSeq {u : State} {n : Nat} {below : List Nat} (k : t.calledSeq u n below []) : s.calledSeq u n below [] := by
  have recorded : AsRecorded (Work.idle s) (Work.idle t) := ⟨h.trace, h.clock, h.tables⟩
  obtain ⟨⟨chain, running, claims, triggers, purgeDue, notice, trace, points, conds, pins, tables, staging, up, down⟩, demand, fault, store⟩ := k
  rw [allowanceNow_of_eq h.tables h.points, h.tables] at running
  rw [h.tables] at claims trace
  rw [h.seq] at triggers purgeDue demand
  refine ⟨⟨chain, running, claims, triggers, purgeDue, notice, trace.trans ?_, points.trans h.points, conds.trans h.conds, pins.trans h.pins,
    tables.trans h.tables, staging.trans h.staging, up.trans h.up, down.trans h.down⟩, demand, fault.trans h.fault, store.trans h.store⟩
  exact ((recorded.top n).traced _).trace

end

theorem State.appliedSlots_heard {s : State} (sized : s.sized) {f : Nat → RoleRun → RoleRun} (hf : ∀ r x, (f r x).heard = x.heard) {r : Nat}
    (hr : r < 12) : ((s.appliedSlots f (List.range 12)).role r).heard = (s.role r).heard := by
  obtain ⟨same, changed⟩ := State.appliedSlots_alone sized f hr
  have roles : s.roles.length = 12 := by obtain ⟨-, -, -, -, -, roles, -⟩ := sized; exact roles
  by_cases e : f r (s.role r) = s.role r
  · rw [(same e).1]
  · rw [(changed e).1, State.changedRole_role s false _ (by omega), if_pos rfl]
    have kept : (s.actedRole false r (f r (s.role r))).heard = (f r (s.role r)).heard := by
      unfold State.actedRole
      split
      · split <;> rfl
      · split <;> rfl
    rw [kept, hf]

/-- While no condition is in use the claims are taken without a word to anyone else. -/
theorem frostClaims_lead {s : State} (hn : s.phase = .normal) (hs : s.sized) (hu : s.unwatched) (rest : List Act) :
    ∃ m v, m ≤ 13 ∧ Leads m (Work.waiting s (.frostClaims :: rest)) (Work.waiting v rest) ∧ v.sized ∧ CallScene s v ∧
      v.circuits = s.circuits ∧ ∀ r, r < 12 → (v.role r).heard = (s.role r).heard := by
  obtain ⟨f, hf⟩ : ∃ f : Nat → RoleRun → RoleRun, f = fun r x => { x with frost := s.frostClaim r } := ⟨_, rfl⟩
  have taken : act .frostClaims (Work.waiting s rest) = applySlots f (Work.waiting s rest) := by
    rw [hf]
    exact if_pos (State.normal_of_phase hn)
  have heard (r : Nat) (hr : r < 12) : ((s.appliedSlots f (List.range 12)).role r).heard = (s.role r).heard :=
    State.appliedSlots_heard hs (by rw [hf]; exact fun _ _ => rfl) hr
  clear hf
  have first := Leads.take (Work.take_waiting s .frostClaims rest)
  rw [taken, applySlots_eq f (w := Work.waiting s rest) hs, Work.waiting_st] at first
  have sized := State.appliedSlots_sized hs f (List.range 12)
  have shape := State.appliedSlots_eq s f (List.range 12)
  have few : ((List.range 12).filter (s.movesApplied f)).length ≤ 12 :=
    Nat.le_trans (List.length_filter_le _ _) (Nat.le_of_eq List.length_range)
  generalize (List.range 12).filter (s.movesApplied f) = rs at first few
  generalize s.appliedSlots f (List.range 12) = v at first sized heard shape
  have scene : CallScene s v := by
    unfold CallScene
    generalize ha : v.roles = a at shape ⊢
    generalize hb : v.lines = b at shape ⊢
    generalize hc : v.gate.slots = c at shape ⊢
    subst shape
    rfl
  have walks := unwatchedWalks_lead (scene.unwatched hu) (rs.map CondInput.role)
    (fun i hi c k => by obtain ⟨r, -, rfl⟩ := List.mem_map.1 hi; cases k) rest
  rw [List.map_map, show Act.condWalk ∘ CondInput.role = fun r => Act.condWalk (.role r) from rfl, List.length_map] at walks
  exact ⟨1 + 0 + rs.length, v, by omega, (first.trans (Leads.emit s v _ rest)).trans walks, sized, scene, by rw [shape], heard⟩

/-! ### The one request, and the call (R92, R93, R106) -/

theorem bestTrigger_only {s : State} {n : Nat} (hn : n < 12) (stands : (s.trigger n).stands = true)
    (alone : ∀ k, k < 12 → k ≠ n → (s.trigger k).stands = false) : s.bestTrigger = some n := by
  let f : Option Nat → Nat → Option Nat := fun m n =>
    if (s.trigger n).stands then
      match m with
      | some b => if (s.tables.seq b).priority < (s.tables.seq n).priority then some n else some b
      | none => some n
    else m
  have skip (l : List Nat) (hl : ∀ k ∈ l, (s.trigger k).stands = false) (m : Option Nat) : l.foldl f m = m := by
    induction l with
    | nil => rfl
    | cons k l ih =>
      have first : f m k = m := if_neg (by rw [hl k List.mem_cons_self]; exact Bool.false_ne_true)
      rw [List.foldl_cons, first]
      exact ih fun j hj => hl j (List.mem_cons_of_mem _ hj)
  have split : List.range 12 = List.range n ++ n :: (List.range (11 - n)).map (n + 1 + ·) := by
    rw [show (12 : Nat) = n + 1 + (11 - n) by omega, List.range_add, List.range_succ, List.append_assoc]
    rfl
  have taken : f none n = some n := if_pos stands
  show (List.range 12).foldl f none = some n
  have before : (List.range n).foldl f none = none := skip _ (fun k hk => by
    have := List.mem_range.1 hk
    exact alone _ (by omega) (by omega)) none
  rw [split, List.foldl_append, before, List.foldl_cons, taken]
  refine skip _ (fun k hk => ?_) (some n)
  obtain ⟨j, hj, rfl⟩ := List.mem_map.1 hk
  have := List.mem_range.1 hj
  exact alone _ (by omega) (by omega)

theorem frostSource_other {c n k : Nat} (h : k ≠ n) : frostSource [(c, n)] [] k Trigger.clear = Trigger.clear := by
  have other (d : Nat) : ([(c, n)] : List (Nat × Nat)).contains (d, k) = false := by
    rw [List.contains_eq_mem]
    simp [h]
  unfold frostSource
  simp only [other]
  rfl

theorem frostSource_stands {c n : Nat} (h : c < 6) : (frostSource [(c, n)] [] n Trigger.clear).stands = true := by
  have own (d : Nat) : ([(c, n)] : List (Nat × Nat)).contains (d, n) = decide (d = c) := by
    rw [List.contains_eq_mem]
    simp
  unfold Trigger.stands frostSource
  rw [Bool.or_eq_true, List.any_eq_true]
  exact .inr ⟨true, List.mem_map.2 ⟨c, List.mem_range.2 h, by rw [own]; simp⟩, rfl⟩

/-- A request for a sequence that may be called, when no other flag stands, is served at once. -/
theorem request_leads {s : State} {c n : Nat} (hn : s.phase = .normal) (clear : s.seq.triggers = List.replicate 12 Trigger.clear)
    (busy : s.seq.chain.isEmpty = false) (hc : c < 6) (hn' : n < 12) (check : s.switchCheck n .trigger = none) (rest : List Act) :
    Leads 2 (Work.waiting s (.frostHandoff [(c, n)] [] :: rest)) (doCall n .trigger (Work.waiting s rest)) := by
  have first := Leads.take (Work.take_waiting s (.frostHandoff [(c, n)] []) rest)
  have trigger (k : Nat) : s.trigger k = Trigger.clear := by
    unfold State.trigger
    rw [clear, getD_replicate]
  obtain ⟨t, ht⟩ : ∃ t, t = s.setSeq { s.seq with triggers := (List.range 12).map fun k => frostSource [(c, n)] [] k (s.trigger k) } := ⟨_, rfl⟩
  have flag (k : Nat) (hk : k < 12) : t.trigger k = frostSource [(c, n)] [] k Trigger.clear := by
    rw [ht]
    show ((List.range 12).map fun k => frostSource [(c, n)] [] k (s.trigger k)).getD k Trigger.clear = _
    rw [getD_map_range, if_pos hk, trigger]
  have stands : (t.trigger n).stands = true := by rw [flag n hn']; exact frostSource_stands hc
  have alone (k : Nat) (hk : k < 12) (other : k ≠ n) : (t.trigger k).stands = false := by
    rw [flag k hk, frostSource_other other]
    rfl
  have newly : ((List.range 12).any fun k => (t.trigger k).stands && !(s.trigger k).stands) = true :=
    List.any_eq_true.2 ⟨n, List.mem_range.2 hn', by rw [stands, trigger]; rfl⟩
  have full : t.seq.chain.isEmpty = false := by rw [ht]; exact busy
  have shape : act (.frostHandoff [(c, n)] []) (Work.waiting s rest) = ((Work.waiting s rest).withSt t).push [.examineTriggers] := by
    show updateTriggers (frostSource [(c, n)] []) (Work.waiting s rest) = _
    unfold updateTriggers
    dsimp only
    rw [Work.waiting_st, ← ht, newly, full, Bool.and_false]
    rfl
  have restored : t.setTrigger n Trigger.clear = s := by
    have flags : ((List.range 12).map fun k => frostSource [(c, n)] [] k (s.trigger k)).set n Trigger.clear = s.seq.triggers := by
      rw [clear]
      refine List.ext_getElem (by simp) fun k h1 h2 => ?_
      rw [List.getElem_set, List.getElem_replicate]
      split
      · rfl
      · next other =>
        rw [List.getElem_map, List.getElem_range, trigger]
        exact frostSource_other (Ne.symm other)
    rw [ht]
    show s.setSeq { s.seq with triggers := ((List.range 12).map fun k => frostSource [(c, n)] [] k (s.trigger k)).set n Trigger.clear } = s
    rw [flags]
    rfl
  have second : Leads 1 (((Work.waiting s rest).withSt t).push [.examineTriggers]) (actExamineTriggers ((Work.waiting s rest).withSt t)) :=
    Leads.take (a := .examineTriggers) rfl
  have best : t.bestTrigger = some n := bestTrigger_only hn' stands alone
  have served : actExamineTriggers ((Work.waiting s rest).withSt t) = doCall n .trigger (Work.waiting s rest) := by
    have passes : t.switchCheck n .trigger = none := by rw [ht]; exact check
    unfold actExamineTriggers
    rw [if_pos (show ((Work.waiting s rest).withSt t).st.normal = true by rw [ht]; exact State.normal_of_phase hn)]
    rw [show ((Work.waiting s rest).withSt t).st = t from rfl, best]
    dsimp only
    rw [passes, restored]
    rfl
  rw [shape] at first
  rw [served] at second
  exact first.trans second

theorem arrange_pair (o : HandoffOrder) (walks flags : List Act) :
    arrange o walks flags [] = walks ++ flags ∨ arrange o walks flags [] = flags ++ walks := by
  cases o <;> simp [arrange]

/-- A second mark that makes the one request which can be served: up to the hand-off of the request. -/
theorem requestingMark_leads {s : State} {adds removes : List (Nat × Nat)} (hn : s.phase = .normal) (hs : s.sized) (hu : s.unwatched)
    (unlocked : s.locked = false) (some' : adds ≠ []) (hadds : adds = transitions s s.markedCircuits .circulate .firingRequested)
    (hremoves : removes = transitions s s.markedCircuits .firingRequested .circulate) :
    ∃ m v rest, m ≤ 20 ∧ exec .frostSecondMark s = finish (frostMark (Work.idle { s with frostTimer := 0 })) ∧
      Leads m (frostMark (Work.idle { s with frostTimer := 0 })) (Work.waiting v (.frostHandoff adds removes :: rest)) ∧
      v.sized ∧ CallScene s v ∧ v.circuits = s.markedCircuits.circuits ∧ (∀ r, r < 12 → (v.role r).heard = (s.role r).heard) ∧
      (rest = [] ∨ rest = [.frostClaims]) := by
  have powered : s.powered = true := by unfold State.powered; rw [hn]; rfl
  obtain ⟨k, notices, hk, length, lead⟩ := frostMark_leads (s := { s with frostTimer := 0 }) hn
  have hl : s.gate.notices.length = 7 := by obtain ⟨-, -, -, -, -, -, -, -, -, hl, -⟩ := hs; exact hl
  have sized := markedCircuits_sized hs notices (length.trans hl)
  have request : requestActs adds removes = [.frostHandoff adds removes] :=
    if_neg (by rw [Bool.and_eq_true, List.isEmpty_iff, List.isEmpty_iff]; exact fun both => some' both.1)
  have quiet : blockedFaults s adds = [] := if_neg (by rw [unlocked]; exact Bool.false_ne_true)
  have lead' : Leads k (frostMark (Work.idle { s with frostTimer := 0 }))
      (Work.waiting (({ s with frostTimer := 0 } : State).markedCircuits.withNotices notices)
        (arrange s.order (claimsIfMoved (movedCircuits s s.markedCircuits)) (requestActs adds removes) (blockedFaults s adds))) := by
    rw [hadds, hremoves]
    exact lead
  have scene : CallScene s (({ s with frostTimer := 0 } : State).markedCircuits.withNotices notices) := rfl
  have circuits : (({ s with frostTimer := 0 } : State).markedCircuits.withNotices notices).circuits = s.markedCircuits.circuits := rfl
  have roles : (({ s with frostTimer := 0 } : State).markedCircuits.withNotices notices).roles = s.roles := rfl
  generalize ({ s with frostTimer := 0 } : State).markedCircuits.withNotices notices = b at lead' scene circuits roles sized
  have heard (r : Nat) : (b.role r).heard = (s.role r).heard := by unfold State.role; rw [roles]
  rw [request, quiet] at lead'
  have claims : claimsIfMoved (movedCircuits s s.markedCircuits) = [] ∨ claimsIfMoved (movedCircuits s s.markedCircuits) = [.frostClaims] := by
    unfold claimsIfMoved
    split
    · exact .inl rfl
    · exact .inr rfl
  generalize claimsIfMoved (movedCircuits s s.markedCircuits) = walks at lead' claims
  rcases arrange_pair s.order walks [.frostHandoff adds removes] with e | e
  · rw [e] at lead'
    rcases claims with rfl | rfl
    · exact ⟨k, b, [], by omega, if_pos powered, lead', sized, scene, circuits, fun r _ => heard r, .inl rfl⟩
    · obtain ⟨m, v, hm, next, sized', scene', circuits', heard'⟩ := frostClaims_lead (scene.phase.trans hn) sized (scene.unwatched hu)
        [.frostHandoff adds removes]
      exact ⟨k + m, v, [], by omega, if_pos powered, lead'.trans next, sized', scene.trans scene', circuits'.trans circuits,
        fun r hr => (heard' r hr).trans (heard r), .inl rfl⟩
  · rw [e] at lead'
    exact ⟨k, b, walks, by omega, if_pos powered, lead', sized, scene, circuits, fun r _ => heard r, claims⟩

/-- Circuits told that S`n` has become active (R104). -/
def firedCircuits (t : Tables) (circuits : List CircuitRun) (n : Nat) : List CircuitRun :=
  (List.range 6).map fun c =>
    if (t.circuit c).inUse then firedBy n (t.circuit c) (circuits.getD c CircuitRun.reset) else circuits.getD c CircuitRun.reset

theorem joined_circuits (s : State) (n : Nat) : (s.joined n).circuits = firedCircuits s.tables s.circuits n := rfl

/-- A second mark that makes one request, which is served by a call (R87, R104). -/
theorem finish_requestingMark {s : State} {c n t : Nat} {x : Running} {below : List Nat} (hn : s.phase = .normal) (hs : s.sized) (hu : s.unwatched)
    (unlocked : s.locked = false) (chain : s.seq.chain = t :: below) (ht : t < 12) (hx : s.seq.running = some x)
    (clear : s.seq.triggers = List.replicate 12 Trigger.clear) (hc : c < 6) (check : s.switchCheck n .trigger = none)
    (quiet : s.seqEntersQuietly n) (adds : transitions s s.markedCircuits .circulate .firingRequested = [(c, n)])
    (removes : transitions s s.markedCircuits .firingRequested .circulate = []) :
    ∃ u : State, exec .frostSecondMark s = .next u.arbitrate ∧ s.calledSeq u n (t :: below) [] ∧
      (u.seqRun t).saved = some { step := x.step, elapsed := x.elapsed, allowance := x.allowance } ∧
      u.circuits = firedCircuits s.tables s.markedCircuits.circuits n := by
  obtain ⟨m, v, rest, hm, run, lead, sized, scene, circuits, heard, waits⟩ := requestingMark_leads hn hs hu unlocked (List.cons_ne_nil _ _)
    adds.symm removes.symm
  have tables := scene.tables
  have seq := scene.seq
  have inside : n < 12 := by
    refine Classical.byContradiction fun far => ?_
    unfold State.switchCheck at check
    rw [if_pos (by simp [far])] at check
    cases check
  have runs : t < v.seq.runs.length := by obtain ⟨-, -, runs, -⟩ := sized; omega
  have next := request_leads (scene.phase.trans hn) (by rw [seq]; exact clear) (by rw [seq, chain]; rfl) hc inside
    ((scene.switchCheck n .trigger).trans check) rest
  have light : (Work.waiting v rest).weight calmWeight ≤ 40 := by
    rcases waits with rfl | rfl <;> simp [Work.weight, Work.waiting, calmWeight]
  obtain ⟨u, ends, called, saved, joined⟩ := finish_called (s := v) (kinds := []) (lead.trans next) (by rw [Work.waiting_st, seq]; exact chain)
    (by rw [Work.waiting_st, seq]; exact hx) runs (SameGround.refl v) ⟨rfl, rfl, rfl⟩ rfl rfl rfl (scene.phase.trans hn) (State.undisturbed_of_unwatched (scene.unwatched hu))
    sized (scene.seqEntersQuietly heard quiet)
    (fun a ha => by
      rcases waits with rfl | rfl
      · cases ha
      · cases List.mem_singleton.1 ha
        exact .inl (.inl trivial))
    (by omega)
  rw [joined_circuits, Work.waiting_st, tables, circuits] at joined
  exact ⟨u, run.trans ends, scene.calledSeq called, saved, joined⟩

end Sys2Proof.Machine
end

section
/-! SUPPORT. What a second mark leaves, part by part. -/
namespace Sys2Proof.Machine

theorem transitions_marked_nil {s : State} {a b : Stage} (h : ∀ c, c < 6 → ¬ ((s.circuit c).stage = a ∧ (s.markedCircuit c).stage = b)) :
    transitions s s.markedCircuits a b = [] :=
  transitions_nil fun c hc => by rw [markedCircuits_circuit s hc]; exact h c hc

theorem transitions_marked_iff {s : State} {a b : Stage} {c n : Nat} (hc : c < 6) : (transitions s s.markedCircuits a b).contains (c, n) = true ↔
    ((s.circuit c).stage = a ∧ (s.markedCircuit c).stage = b) ∧ (s.tables.circuit c).tier2 = some n := by
  rw [transitions_contains, markedCircuits_circuit s hc]
  exact ⟨And.right, fun k => ⟨hc, k⟩⟩

section
variable {s u : State} (h : Marked s u)
include h

theorem Marked.circuit {c : Nat} (hc : c < 6) : u.circuit c = s.markedCircuit c := by
  rw [← markedCircuits_circuit s hc]
  unfold State.circuit
  rw [h.circuits]

theorem Marked.calm : u.frostTimer = 0 ∧ (movedCircuits s s.markedCircuits ≠ [] → ∀ r, r < 12 → (u.role r).frost = s.markedCircuits.frostClaim r) ∧
    (movedCircuits s s.markedCircuits = [] → u.roles = s.roles) ∧ u.points = s.points ∧ u.flue = s.flue ∧ u.pins = s.pins ∧
    u.tables = s.tables ∧ u.staging = s.staging ∧ u.gate.up = s.gate.up ∧ u.gate.down = s.gate.down :=
  ⟨h.timer, h.claims.1, h.claims.2, h.points, h.flue, h.pins, h.tables, h.staging, h.up, h.down⟩

theorem Marked.requested {n : Nat} (hn : n < 12) : (u.trigger n).own = (s.trigger n).own ∧ ∀ c, c < 6 →
    ((s.tables.circuit c).tier2 = some n → ((s.circuit c).stage = .circulate ∧ (s.markedCircuit c).stage = .firingRequested) →
      (u.trigger n).circuits.getD c false = true) ∧
    ((s.tables.circuit c).tier2 = some n → ((s.circuit c).stage = .firingRequested ∧ (s.markedCircuit c).stage = .circulate) →
      (u.trigger n).circuits.getD c false = false) ∧
    ((s.tables.circuit c).tier2 ≠ some n ∨ ¬ ((s.circuit c).stage = .circulate ∧ (s.markedCircuit c).stage = .firingRequested) ∧
        ¬ ((s.circuit c).stage = .firingRequested ∧ (s.markedCircuit c).stage = .circulate) →
      (u.trigger n).circuits.getD c false = (s.trigger n).circuits.getD c false) := by
  obtain ⟨own, circuits⟩ := h.flags.1 n hn
  refine ⟨own, fun c hc => ?_⟩
  have flag : (u.trigger n).circuits.getD c false = _ := circuits c hc
  rw [flag]
  refine ⟨fun named begins => if_pos ((transitions_marked_iff hc).2 ⟨begins, named⟩), fun named ends => ?_, fun neither => ?_⟩
  · have unbegun : ¬ (transitions s s.markedCircuits .circulate .firingRequested).contains (c, n) = true := fun k => by
      obtain ⟨⟨stage, -⟩, -⟩ := (transitions_marked_iff hc).1 k
      rw [ends.1] at stage
      cases stage
    rw [if_neg unbegun, if_pos ((transitions_marked_iff hc).2 ⟨ends, named⟩)]
  · rw [if_neg fun k => ?_, if_neg fun k => ?_]
    · rfl
    · obtain ⟨ends, named⟩ := (transitions_marked_iff hc).1 k
      exact neither.elim (fun other => other named) fun still => still.2 ends
    · obtain ⟨begins, named⟩ := (transitions_marked_iff hc).1 k
      exact neither.elim (fun other => other named) fun still => still.1 begins

end

/-- A mark that raises no fault leaves fault, trace and store. -/
theorem reports_kept {s u : State} {notices : List Notice} (h : BlamedAll s [] (s.fault, s.trace, s.store, notices) u.reports) :
    u.fault = s.fault ∧ u.trace = s.trace ∧ u.store = s.store := by
  have e : (s.fault, s.trace, s.store, notices) = (u.fault, u.trace, u.store, u.gate.notices) := h
  simp only [Prod.mk.injEq] at e
  obtain ⟨fault, trace, store, -⟩ := e
  exact ⟨fault.symm, trace.symm, store.symm⟩

/-- While LOCKED on an empty chain no check passes, and none says that the sequence is active. -/
theorem switchCheck_locked {s : State} (locked : s.locked = true) (empty : s.seq.chain = []) (n : Nat) :
    s.switchCheck n .trigger ≠ none ∧ s.switchCheck n .trigger ≠ some .active := by
  have idle : s.active n = false := by unfold State.active; rw [empty]; rfl
  unfold State.switchCheck
  rw [idle, locked]
  refine ⟨fun k => ?_, fun k => ?_⟩
  · repeat' split at k
    all_goals simp_all
  · repeat' split at k
    all_goals simp_all

end Sys2Proof.Machine

section
open Sys2Proof Sys2Proof.Machine

/-- Settles O32: a mark after which no switch is made, one whose request is served, one before the tables govern, and the FROST
claim as the highest of the circuits' claims. -/
theorem frostMarkTaken : Obligations.FrostMarkTaken := by
  unfold Obligations.FrostMarkTaken
  refine ⟨fun s => ?_, fun s r => ?_⟩
  · dsimp only
    refine ⟨fun hn hs hu none' => ?_, fun hn hs hu unlocked demand refused => ?_,
      fun c n hn hs hu locked empty hc used named hn' begins highest => ?_,
      fun c n t x below hn hs hu unlocked chain ht hx clear hc begins used named alone check quiet => ?_, fun early => ?_⟩
    · have adds := transitions_marked_nil (a := .circulate) (b := .firingRequested) fun c hc => (none' c hc).1
      have removes := transitions_marked_nil (a := .firingRequested) (b := .circulate) fun c hc => (none' c hc).2
      obtain ⟨u, notices, run, marked, reports⟩ := finish_frostMark hn hs hu (.inl ⟨adds, removes⟩) []
        (by rw [adds]; exact ite_self _) (Nat.zero_le 6) (.inl rfl)
      obtain ⟨fault, trace, store⟩ := reports_kept reports
      refine ⟨u, run, marked.calm, fun c hc => marked.circuit hc, ?_, fault, trace, store⟩
      have flags := marked.flags.2 ⟨adds, removes⟩
      have seq := marked.seq
      rw [flags] at seq
      exact seq
    · have served : blockedFaults s (transitions s s.markedCircuits .circulate .firingRequested) = [] :=
        if_neg (by rw [unlocked]; exact Bool.false_ne_true)
      obtain ⟨u, notices, run, marked, reports⟩ := finish_frostMark hn hs hu (.inr ⟨refused, .inl demand⟩) [] served (Nat.zero_le 6) (.inl rfl)
      obtain ⟨fault, trace, store⟩ := reports_kept reports
      exact ⟨u, run, marked.calm, ⟨marked.seq, fun n hn => marked.requested hn⟩, fun c hc => marked.circuit hc, fault, trace, store⟩
    · obtain ⟨before, adds, -⟩ := transitions_last (t := s.markedCircuits) hc
        (by rw [markedCircuits_circuit s hc]; exact begins) named (fun d above hd => by rw [markedCircuits_circuit s hd]; exact highest d above hd)
      have length : (transitions s s.markedCircuits .circulate .firingRequested).length ≤ 6 :=
        Nat.le_trans (List.length_filterMap_le _ _) (Nat.le_of_eq List.length_range)
      obtain ⟨u, notices, run, marked, reports⟩ := finish_frostMark hn hs hu
        (.inr ⟨fun n _ => switchCheck_locked locked empty n, .inr locked⟩)
        ((transitions s s.markedCircuits .circulate .firingRequested).map Prod.snd) ((blockedFaults_eq s _).trans (if_pos locked))
        (by rw [List.length_map]; exact length) (.inr ⟨locked, empty⟩)
      have moved : movedCircuits s s.markedCircuits ≠ [] := mem_movedCircuits hc (by rw [markedCircuits_circuit s hc, begins.1, begins.2]; decide)
      have blocked : (s.markedCircuit c).blocked = true := by
        rw [markedCircuit_blocked used, begins.1, begins.2, locked]
        rfl
      rw [adds, List.map_append] at reports
      obtain ⟨record, flag, filled, kept⟩ := reports.last
      refine ⟨u, run, marked.calm, ⟨marked.seq, fun n hn => marked.requested hn⟩, fun d hd => marked.circuit hd, ?_, ?_, flag, record, filled, kept⟩
      · rw [marked.circuit hc, blocked]
      · have claim : (u.role 7).frost = s.markedCircuits.frostClaim 7 := marked.claims.1 moved 7 (by decide)
        rw [claim]
        exact frostClaim_alarm hc used (by rw [markedCircuits_circuit s hc]; exact blocked)
    · have adds : transitions s s.markedCircuits .circulate .firingRequested = [(c, n)] := by
        have others (d : Nat) (hd : d < 6) (other : d ≠ c) :
            ¬ ((s.circuit d).stage = .circulate ∧ (s.markedCircuits.circuit d).stage = .firingRequested) := by
          rw [markedCircuits_circuit s hd]
          exact (alone d hd other).1
        obtain ⟨before, shape, first⟩ := transitions_last (t := s.markedCircuits) hc
          (by rw [markedCircuits_circuit s hc]; exact begins) named fun d above hd => others d hd (by omega)
        rw [shape, first fun d below => others d (by omega) (by omega)]
        rfl
      have removes : transitions s s.markedCircuits .firingRequested .circulate = [] := by
        refine transitions_marked_nil fun d hd ends => ?_
        by_cases same : d = c
        · subst same
          rw [begins.1] at ends
          cases ends.1
        · exact (alone d hd same).2 ends
      obtain ⟨u, run, called, saved, fired⟩ := finish_requestingMark hn hs hu unlocked chain ht hx clear hc check quiet adds removes
      refine ⟨u, run, called, saved, ?_, ?_⟩
      · obtain ⟨⟨-, -, -, triggers, -⟩, -⟩ := called
        unfold State.trigger
        rw [triggers, clear, getD_replicate]
      · unfold State.circuit
        rw [fired, firedCircuits, getD_map_range, if_pos hc, if_pos used]
        show firedBy n _ (s.markedCircuits.circuit c) = _
        rw [markedCircuits_circuit s hc, firedBy, if_pos ⟨begins.2, named⟩]
    · have powered : s.powered = true := by unfold State.powered; rcases early with h | h <;> rw [h] <;> rfl
      have idle : frostMark (Work.idle { s with frostTimer := 0 }) = Work.idle { s with frostTimer := 0 } := by
        refine if_neg ?_
        show ¬ s.normal = true
        unfold State.normal
        rcases early with h | h <;> rw [h] <;> decide
      have e : exec .frostSecondMark s = finish (frostMark (Work.idle { s with frostTimer := 0 })) := if_pos powered
      rw [e, idle]
      exact finish_idleState _
  · obtain ⟨some', none'⟩ := frostClaim_highest s r
    refine ⟨fun v hv => ?_, fun hv => ?_⟩
    · obtain ⟨among, above⟩ := some' v hv
      exact ⟨among, fun c w hc claims => above w (.inl ⟨c, hc, claims⟩), fun w alarm => above w (.inr alarm)⟩
    · exact ⟨fun c v hc claims => none' hv v (.inl ⟨c, hc, claims⟩), fun v alarm => none' hv v (.inr alarm)⟩

end
end

section
/-! SUPPORT. A hold expiry: the walk that begins with the condition that has come to hold, and the hand-off of the one change. -/
namespace Sys2Proof.Machine

/-! ### The walk from a hold expiry (R32, R33) -/

theorem State.believes_cond {s : State} {c : Nat} (h : c < s.conds.length) (i : Nat) :
    (s.believes c).cond i = if c = i then { raw := (s.cond c).raw, held := .yes, timer := none } else s.cond i := by
  have set : (s.believes c).cond i = if c = i ∧ i < s.conds.length then { raw := (s.cond c).raw, held := .yes, timer := none } else s.cond i :=
    getD_set _ _ _ _ _
  rw [set]
  by_cases e : c = i
  · subst e
    rw [if_pos ⟨rfl, h⟩, if_pos rfl]
  · rw [if_neg fun k => e k.1, if_neg e]

theorem expireHold_due {s : State} {c t : Nat} (used : (s.tables.cond c).inUse = true) (running : (s.cond c).timer = some t)
    (out : (s.tables.cond c).hold ≤ t) : expireHold c s = (s.believes c, if (s.cond c).held = .yes then [] else [c]) := by
  refine if_pos ?_
  unfold CondRun.due
  rw [used, running]
  simp [out]

theorem expireHold_idle {s : State} {c : Nat} (h : ∀ t, (s.cond c).timer = some t → t < (s.tables.cond c).hold) : expireHold c s = (s, []) := by
  refine if_neg fun k => ?_
  obtain ⟨-, due⟩ := Bool.and_eq_true_iff.1 k
  unfold CondRun.due at due
  cases running : (s.cond c).timer with
  | none => rw [running] at due; cases due
  | some t =>
    rw [running] at due
    exact absurd (of_decide_eq_true due) (Nat.not_le.2 (h t running))

/-- Where the walk marks no condition, it goes by. -/
theorem walkTo_still {i : CondInput} {s : State} {first : List Nat} {n : Nat}
    (h : ∀ k, k < n → (s.tables.cond k).inUse = true → marks i (s.tables.cond k) = false ∧ marksCombination first (s.tables.cond k) = false) :
    walkTo i s first n = (s, first) := by
  induction n with
  | zero => rfl
  | succ n ih =>
    rw [walkTo_succ, ih fun k hk => h k (by omega)]
    unfold walkAt
    dsimp only
    refine if_neg fun k => ?_
    obtain ⟨used, marked⟩ := Bool.and_eq_true_iff.1 k
    obtain ⟨unmarked, alone⟩ := h n (by omega) used
    rw [unmarked, alone] at marked
    cases marked

/-- A hold expiry reaches nothing below its condition, and not the condition itself: combinations name lower conditions. -/
theorem walk_hold_below {s : State} {c i : Nat} {first : List Nat} (hc : c < 32) (among : ∀ d ∈ first, d = c)
    (checked : ∀ i, i < 32 → condCheck s.tables i = true) (hi : i ≤ c) : (walk (.hold c) s first).1.cond i = s.cond i := by
  rw [← walk_below (.hold c) s first (n := c + 1) (by omega) (by omega), walkTo_still fun k hk used => ⟨rfl, ?_⟩]
  rw [← Bool.not_eq_true, marksCombination_iff]
  rintro ⟨kind, named⟩
  obtain ⟨a, b⟩ := combines_below (checked k (by omega)) used kind
  rcases named with named | named
  · have := among _ named; omega
  · have := among _ named; omega

theorem exec_holdExpiry (c : Nat) (hc : c < 32) (s : State) : exec (.holdExpiry c) s = finish (startWith s [.condWalk (.hold c)]) := if_pos hc

theorem holdWalk_leads (s : State) (c : Nat) : Leads 1 (startWith s [.condWalk (.hold c)]) (actCondWalk (.hold c) (Work.waiting s [])) :=
  startWith_leads s (.condWalk (.hold c))

theorem holdWalk_idle {s : State} {c : Nat} (h : ∀ t, (s.cond c).timer = some t → t < (s.tables.cond c).hold) :
    actCondWalk (.hold c) (Work.waiting s []) = Work.waiting s [] := by
  have start : walkStart (.hold c) (Work.waiting s []).st = (s, []) := expireHold_idle h
  have still : walk (.hold c) s [] = (s, []) := walkTo_still fun k hk used => ⟨rfl, by simp [marksCombination]⟩
  unfold actCondWalk
  rw [start, still]
  split <;> rfl

/-! ### The one change that a watched condition hands on -/

section
variable {s : State} {c : Nat} (h : s.watchedBy c)
include h

theorem watchedBy_undisturbed : s.undisturbed := by
  obtain ⟨-, kind, alone⟩ := h
  intro d hd used
  by_cases e : d = c
  · subst e
    rcases kind with k | k | k <;> rw [k] <;> rfl
  · rw [alone d hd e] at used
    cases used

theorem watchedBy_still (first : List Nat) {i : CondInput} (hi : ∀ e, marks i e = false) : walk i s first = (s, first) := by
  obtain ⟨-, kind, alone⟩ := h
  refine walkTo_still fun k hk used => ⟨hi _, ?_⟩
  by_cases e : k = c
  · subst e
    unfold marksCombination
    rcases kind with k | k | k <;> rw [k] <;> rfl
  · rw [alone k hk e] at used
    cases used

theorem holdExpiry_leads {t : Nat} (hc : c < 32) (hn : s.phase = .normal) (hs : s.conds.length = 32) (running : (s.cond c).timer = some t)
    (out : (s.tables.cond c).hold ≤ t) (held : (s.cond c).held ≠ .yes) :
    Leads 2 (startWith s [.condWalk (.hold c)]) (actHandoff [(c, .yes)] (Work.waiting (s.believes c) [])) := by
  have start : walkStart (.hold c) (Work.waiting s []).st = (s.believes c, [c]) :=
    (expireHold_due h.1 running out).trans (by rw [if_neg held])
  have still : walk (.hold c) (s.believes c) [c] = (s.believes c, [c]) := watchedBy_still (s := s.believes c) h [c] fun _ => rfl
  have handed : handoffSet (s.believes c) [c] = [(c, .yes)] := by
    show [(c, (s.believes c).held c)] = _
    unfold State.held
    rw [State.believes_cond (by omega), if_pos rfl]
  have walked : actCondWalk (.hold c) (Work.waiting s []) = ((Work.waiting s []).withSt (s.believes c)).emit [.handoff [(c, .yes)]] := by
    unfold actCondWalk
    rw [start, still, if_pos (show (Work.waiting s []).st.normal = true from State.normal_of_phase hn)]
    dsimp only
    rw [handed]
    rfl
  have first := holdWalk_leads s c
  rw [walked] at first
  exact (first.trans (Leads.emit s (s.believes c) [.handoff [(c, .yes)]] [])).trans (Leads.take (Work.take_waiting (s.believes c) (.handoff [(c, .yes)]) []))

end

theorem believes_sized {s : State} (h : s.sized) (c : Nat) : (s.believes c).sized := by
  obtain ⟨points, conds, rest⟩ := h
  exact ⟨points, List.length_set.trans conds, rest⟩

/-! ### What a set of held values does to the running step (R69) -/

theorem actHandoff_idle {set : List (Nat × Tri)} {w : Work} (h : w.st.seq.running = none) : actHandoff set w = w.push [.applyTriggers set] := by
  unfold actHandoff
  rw [h]

theorem setViolates_iff (e : StepEntry) (set : List (Nat × Tri)) : setViolates e set = true ↔
    ∃ v ∈ e.supervision, ∃ h, set.lookup v.cond = some h ∧
      (h = .unknown ∧ v.fail = true ∨ h = .yes ∧ v.expected = false ∨ h = .no ∧ v.expected = true) := by
  unfold setViolates
  rw [List.any_eq_true]
  refine exists_congr fun v => and_congr_right fun _ => ?_
  cases found : set.lookup v.cond with
  | none => simp
  | some h => simp [violated_iff]

theorem setProves_iff (e : StepEntry) (set : List (Nat × Tri)) : setProves e set = true ↔
    ∃ c h, e.proving = some c ∧ set.lookup c = some h ∧ (h = .yes ∧ e.provingValue = true ∨ h = .no ∧ e.provingValue = false) := by
  unfold setProves
  cases proving : e.proving with
  | none => simp
  | some c =>
    cases found : set.lookup c with
    | none => simp [found]
    | some h => cases h <;> simp [found, proves]

section
variable {set : List (Nat × Tri)} {w : Work} {x : Running} (hx : w.st.seq.running = some x)
include hx

theorem actHandoff_fails {n : Nat} (top : w.st.top = some n) (fails : setViolates (w.st.tables.step x.step) set = true) :
    actHandoff set w = w.push [.takeFault (w.st.stepFault n x.step), .applyTriggers set] := by
  unfold actHandoff faultTop
  rw [hx, top]
  exact if_pos fails

theorem actHandoff_proves (holds : ¬ setViolates (w.st.tables.step x.step) set = true) (taken : x.markTaken = true) (going : x.hold = false)
    (proof : setProves (w.st.tables.step x.step) set = true) : actHandoff set w = w.push [.advance, .applyTriggers set] := by
  unfold actHandoff
  rw [hx]
  exact (if_neg holds).trans (if_pos (by rw [taken, going, proof]; rfl))

theorem actHandoff_stays (holds : ¬ setViolates (w.st.tables.step x.step) set = true)
    (still : ¬ (x.markTaken = true ∧ x.hold = false ∧ setProves (w.st.tables.step x.step) set = true)) :
    actHandoff set w = w.push [.applyTriggers set] := by
  unfold actHandoff
  rw [hx]
  refine (if_neg holds).trans (if_neg fun k => still ?_)
  simpa [and_assoc] using k

end

/-! ### What a set of held values does to the trigger flags (R92) -/

theorem ownSource_circuits (s : State) (set : List (Nat × Tri)) (n : Nat) (t : Trigger) : (ownSource s set n t).circuits = t.circuits := by
  unfold ownSource
  split
  · split
    · split
      · split <;> rfl
      · rfl
      · rfl
    · rfl
  · rfl

theorem ownSource_named {s : State} {set : List (Nat × Tri)} {n c : Nat} (used : (s.tables.seq n).inUse = true)
    (named : (s.tables.seq n).trigger = some c) (t : Trigger) : ownSource s set n t =
      match set.lookup c with
      | some .yes => if s.active n then t else { t with own := true }
      | some _ => { t with own := false }
      | none => t := by
  unfold ownSource
  rw [if_pos used, named] <;> rfl

theorem ownSource_unnamed {s : State} {n : Nat} (h : (s.tables.seq n).inUse = false ∨ (s.tables.seq n).trigger = none)
    (set : List (Nat × Tri)) (t : Trigger) : ownSource s set n t = t := by
  unfold ownSource
  rcases h with h | h
  · rw [h]
    rfl
  · rw [h]
    exact ite_self t

theorem actApplyTriggers_trigger (set : List (Nat × Tri)) (w : Work) {n : Nat} (hn : n < 12) :
    (actApplyTriggers set w).st.trigger n = ownSource w.st set n (w.st.trigger n) := by
  show ((List.range 12).map fun k => ownSource w.st set k (w.st.trigger k)).getD n Trigger.clear = _
  rw [getD_map_range, if_pos hn]

end Sys2Proof.Machine
end

section
/-! SUPPORT. The three consumers of a hold expiry: supervision, proof, and a trigger. -/
namespace Sys2Proof.Machine

theorem lookup_single (c d : Nat) (h : Tri) : List.lookup d [(c, h)] = if d = c then some h else none := by
  by_cases e : d = c
  · subst e
    rw [if_pos rfl]
    exact List.lookup_cons_self
  · rw [if_neg e, List.lookup_cons, beq_eq_false_iff_ne.2 e]
    rfl

theorem unasked_single {s : State} {c : Nat} (triggers : s.seq.triggers.length = 12)
    (free : ∀ n, n < 12 → (s.tables.seq n).inUse = true → (s.tables.seq n).trigger ≠ some c) (h : Tri) : s.unasked [(c, h)] := by
  refine ⟨triggers, fun n hn used d named => ?_⟩
  rw [lookup_single, if_neg]
  rintro rfl
  exact free n hn used named

theorem setViolates_single (e : StepEntry) (c : Nat) : setViolates e [(c, .yes)] = true ↔ ∃ v ∈ e.supervision, v.cond = c ∧ v.expected = false := by
  rw [setViolates_iff]
  refine exists_congr fun v => and_congr_right fun _ => ?_
  rw [lookup_single]
  constructor
  · rintro ⟨h, found, kind⟩
    split at found
    · next same =>
      cases found
      exact ⟨same, by simpa using kind⟩
    · cases found
  · rintro ⟨same, expected⟩
    exact ⟨.yes, if_pos same, .inr (.inl ⟨rfl, expected⟩)⟩

theorem setProves_single (e : StepEntry) (c : Nat) : setProves e [(c, .yes)] = true ↔ e.proving = some c ∧ e.provingValue = true := by
  rw [setProves_iff]
  constructor
  · rintro ⟨d, h, proving, found, kind⟩
    rw [lookup_single] at found
    split at found
    · next same =>
      cases found
      subst same
      exact ⟨proving, by simpa using kind⟩
    · cases found
  · rintro ⟨proving, value⟩
    exact ⟨c, .yes, proving, by rw [lookup_single, if_pos rfl], .inl ⟨rfl, value⟩⟩

/-- The event of a hold expiry that a supervision entry forbids, recovered from (R69, R73). -/
theorem finish_heldFault {s : State} {c : Nat} {x : Running} {n m : Nat} {below : List Nat} {v : Work} {e : Supervision}
    (lead : Leads 2 v (actHandoff [(c, .yes)] (Work.waiting s []))) (hn : s.phase = .normal) (hs : s.sized) (hu : s.undisturbed)
    (unlocked : s.locked = false) (free : ∀ n, n < 12 → (s.tables.seq n).inUse = true → (s.tables.seq n).trigger ≠ some c)
    (hx : s.seq.running = some x) (chain : s.seq.chain = n :: below) (hn' : n < 12) (supervises : e ∈ (s.tables.step x.step).supervision)
    (cond : e.cond = c) (expected : e.expected = false) (cls : (s.tables.step x.step).faultClass = .recycle)
    (low : (s.seqRun n).recycle + 1 < (s.tables.seq n).recycleLimit) (link : (s.tables.seq n).recoveryLink = some m)
    (check : s.switchCheck m .recycle = none) (quiet : s.seqEntersQuietly m) :
    ∃ u : State, finish v = .next u.arbitrate ∧ s.enteredSeq u m below [.fault (s.tables.step x.step).faultCode] ∧
      (u.seqRun n).recycle = (s.seqRun n).recycle + 1 ∧
      u.fault = { s.fault with record := some (s.faultRecord (s.stepFault n x.step) .recycle .recycled false) } := by
  have top : (Work.waiting s []).st.top = some n := top_of_chain chain
  obtain ⟨-, -, runs, triggers, -⟩ := id hs
  rw [actHandoff_fails (w := Work.waiting s []) hx top ((setViolates_single _ c).2 ⟨e, supervises, cond, expected⟩)] at lead
  have taken : Leads 1 ((Work.waiting s []).push [.takeFault (s.stepFault n x.step), .applyTriggers [(c, .yes)]])
      (actTakeFault (s.stepFault n x.step) ((Work.waiting s []).push [.applyTriggers [(c, .yes)]])) := Leads.take (a := .takeFault _) rfl
  exact finish_recovery (lead.trans taken) chain (by rw [Work.push_st, Work.waiting_st, runs]; exact hn') (by unfold State.stepFault; rw [cls])
    rfl low link check unlocked hn hs hu quiet
    (fun a ha => by
      cases List.mem_singleton.1 (by simpa [Work.waits, Work.push, Work.waiting] using ha)
      exact .inr ⟨_, rfl, unasked_single triggers free _⟩)
    (by simp [Work.weight, Work.push, Work.waiting, calmWeight])

/-- The event of a hold expiry that proves the running step (R65, R69). -/
theorem finish_heldProof {s : State} {c : Nat} {x : Running} {n k : Nat} {v : Work}
    (lead : Leads 2 v (actHandoff [(c, .yes)] (Work.waiting s []))) (hn : s.phase = .normal) (hs : s.sized) (hu : s.undisturbed)
    (free : ∀ n, n < 12 → (s.tables.seq n).inUse = true → (s.tables.seq n).trigger ≠ some c)
    (hx : s.seq.running = some x) (top : s.top = some n) (taken : x.markTaken = true) (going : x.hold = false)
    (proving : (s.tables.step x.step).proving = some c) (value : (s.tables.step x.step).provingValue = true)
    (holds : ∀ e ∈ (s.tables.step x.step).supervision, e.cond = c → e.expected = true) (next : (s.tables.step x.step).next = .step k)
    (quiet : s.entersQuietly k) : ∃ u : State, finish v = .next u.arbitrate ∧ s.enteredStep u n k := by
  obtain ⟨-, -, -, triggers, -⟩ := id hs
  have unfailed : ¬ setViolates ((Work.waiting s []).st.tables.step x.step) [(c, .yes)] = true := fun h => by
    obtain ⟨e, supervises, cond, expected⟩ := (setViolates_single _ c).1 h
    rw [holds e supervises cond] at expected
    cases expected
  rw [actHandoff_proves (w := Work.waiting s []) hx unfailed taken going ((setProves_single _ c).2 ⟨proving, value⟩)] at lead
  have advance : actAdvance ((Work.waiting s []).push [.applyTriggers [(c, .yes)]])
      = ((Work.waiting s []).push [.applyTriggers [(c, .yes)]]).push [.stepEntry k] := by
    unfold actAdvance
    rw [Work.push_st, Work.waiting_st, hx]
    dsimp only
    rw [next]
  have first : Leads 1 ((Work.waiting s []).push [.advance, .applyTriggers [(c, .yes)]])
      (actAdvance ((Work.waiting s []).push [.applyTriggers [(c, .yes)]])) := Leads.take (a := .advance) rfl
  rw [advance] at first
  have second : Leads 1 (((Work.waiting s []).push [.applyTriggers [(c, .yes)]]).push [.stepEntry k])
      (actStepEntry k ((Work.waiting s []).push [.applyTriggers [(c, .yes)]])) := Leads.take (a := .stepEntry k) rfl
  obtain ⟨u, run, entered⟩ := finish_stepEntry (n := n) ((lead.trans first).trans second) hn hs hu top quiet
    (fun a ha => by
      cases List.mem_singleton.1 (by simpa [Work.waits, Work.push, Work.waiting] using ha)
      exact unasked_single triggers free _)
    (by simp [Work.weight, Work.push, Work.waiting, calmWeight])
  exact ⟨u, run, entered.enteredStep⟩

/-- The state in which S`n` has been asked for by its own condition (R92). -/
def State.asked (s : State) (n : Nat) : State :=
  s.setSeq { s.seq with triggers := s.seq.triggers.set n { s.trigger n with own := true } }

theorem State.asked_trigger {s : State} (length : s.seq.triggers.length = 12) {n : Nat} (hn : n < 12) (k : Nat) :
    (s.asked n).trigger k = if n = k then { s.trigger n with own := true } else s.trigger k := by
  have set : (s.asked n).trigger k = if n = k ∧ k < s.seq.triggers.length then { s.trigger n with own := true } else s.trigger k :=
    getD_set _ _ _ _ _
  rw [set, length]
  by_cases e : n = k
  · subst e
    rw [if_pos ⟨rfl, hn⟩, if_pos rfl]
  · rw [if_neg fun h => e h.1, if_neg e]

section
variable {s : State} {c n : Nat} (triggers : s.seq.triggers.length = 12) (hn : n < 12) (used : (s.tables.seq n).inUse = true)
  (named : (s.tables.seq n).trigger = some c) (off : n ∉ s.seq.chain)
  (alone : ∀ k, k < 12 → k ≠ n → (s.tables.seq k).inUse = true → (s.tables.seq k).trigger ≠ some c)
include triggers used named off alone

/-- A condition that comes to hold flags the one sequence that waits for it. -/
theorem flags_single : (List.range 12).map (fun k => ownSource s [(c, .yes)] k (s.trigger k)) =
    s.seq.triggers.set n { s.trigger n with own := true } := by
  refine List.ext_getElem (by simp [triggers]) fun k h1 h2 => ?_
  have hk : k < 12 := by simpa using h1
  have old : s.trigger k = s.seq.triggers[k]'(by omega) := by
    unfold State.trigger
    rw [getD_of_lt _ _ (by omega)]
  rw [List.getElem_map, List.getElem_range, List.getElem_set]
  by_cases e : n = k
  · subst e
    rw [if_pos rfl, ownSource_named used named, lookup_single, if_pos rfl]
    have idle : s.active n = false := by
      unfold State.active
      rw [List.contains_eq_mem, decide_eq_false off]
    dsimp only
    rw [idle]
    rfl
  · rw [if_neg e, ← old]
    by_cases inUse : (s.tables.seq k).inUse = true
    · cases waits : (s.tables.seq k).trigger with
      | none => exact ownSource_unnamed (.inr waits) _ _
      | some d =>
        have other : d ≠ c := fun same => alone k hk (Ne.symm e) inUse (waits.trans (congrArg some same))
        rw [ownSource_named inUse waits, lookup_single, if_neg other]
    · exact ownSource_unnamed (.inl (by simpa using inUse)) _ _

include hn in
theorem applyTriggers_single : actApplyTriggers [(c, .yes)] (Work.waiting s []) =
    ((Work.waiting s []).withSt (s.asked n)).push (if (s.trigger n).stands then [] else [.examineTriggers]) := by
  have flags := flags_single triggers used named off alone
  have shape : s.setSeq { s.seq with triggers := (List.range 12).map fun k => ownSource s [(c, .yes)] k (s.trigger k) } = s.asked n := by
    rw [flags]
    rfl
  have flag := State.asked_trigger triggers hn
  have stands : ((s.asked n).trigger n).stands = true := by
    rw [flag, if_pos rfl]
    rfl
  have newly : ((List.range 12).any fun k => ((s.asked n).trigger k).stands && !(s.trigger k).stands) = !(s.trigger n).stands := by
    cases before : (s.trigger n).stands with
    | false => exact List.any_eq_true.2 ⟨n, List.mem_range.2 hn, by rw [stands, before]; rfl⟩
    | true =>
      refine List.any_eq_false.2 fun k _ => ?_
      by_cases e : n = k
      · subst e
        rw [before]
        simp
      · rw [flag, if_neg e]
        simp
  have waits : (s.asked n).noTriggers = false := by
    rw [← Bool.not_eq_true]
    intro quiet
    have member : (s.asked n).trigger n ∈ (s.asked n).seq.triggers := by
      unfold State.trigger
      have inside : n < (s.asked n).seq.triggers.length := by
        show n < (s.seq.triggers.set n _).length
        rw [List.length_set, triggers]
        exact hn
      rw [getD_of_lt _ _ inside]
      exact List.getElem_mem inside
    have := List.all_eq_true.1 quiet _ member
    rw [stands] at this
    cases this
  unfold actApplyTriggers updateTriggers
  dsimp only
  rw [Work.waiting_st, shape, newly, waits, Bool.false_and, Bool.false_and]
  cases (s.trigger n).stands <;> rfl

end

theorem heedless_push {s : State} {c : Nat} (h : ∀ x, s.seq.running = some x → (s.tables.step x.step).proving ≠ some c ∧
    ∀ e ∈ (s.tables.step x.step).supervision, e.cond ≠ c) :
    actHandoff [(c, .yes)] (Work.waiting s []) = (Work.waiting s []).push [.applyTriggers [(c, .yes)]] := by
  cases hx : s.seq.running with
  | none => exact actHandoff_idle hx
  | some x =>
    obtain ⟨proving, supervision⟩ := h x hx
    refine actHandoff_stays (w := Work.waiting s []) hx (fun k => ?_) fun k => ?_
    · obtain ⟨e, supervises, cond, -⟩ := (setViolates_single _ c).1 k
      exact supervision e supervises cond
    · exact proving ((setProves_single _ c).1 k.2.2).1

theorem examine_served {w : Work} {n : Nat} (hn : w.st.phase = .normal) (best : w.st.bestTrigger = some n)
    (check : w.st.switchCheck n .trigger = none) :
    actExamineTriggers w = doCall n .trigger (w.withSt (w.st.setTrigger n Trigger.clear)) := by
  unfold actExamineTriggers
  rw [if_pos (State.normal_of_phase hn), best]
  dsimp only
  rw [check]

theorem switchCheck_inactive {s : State} {n : Nat} (off : n ∉ s.seq.chain) : s.switchCheck n .trigger ≠ some .active := by
  have idle : s.active n = false := by
    unfold State.active
    rw [List.contains_eq_mem, decide_eq_false off]
  unfold State.switchCheck
  rw [idle]
  intro k
  repeat' split at k
  all_goals simp_all

/-- A trigger that comes to stand alone: the event of a hold expiry up to the examination (R92, R93). -/
theorem asked_leads {s : State} {c n : Nat} {v : Work} (lead : Leads 2 v (actHandoff [(c, .yes)] (Work.waiting s [])))
    (triggers : s.seq.triggers.length = 12) (hn : n < 12) (used : (s.tables.seq n).inUse = true) (named : (s.tables.seq n).trigger = some c)
    (off : n ∉ s.seq.chain) (alone : ∀ k, k < 12 → k ≠ n → (s.tables.seq k).inUse = true → (s.tables.seq k).trigger ≠ some c)
    (heedless : ∀ x, s.seq.running = some x → (s.tables.step x.step).proving ≠ some c ∧ ∀ e ∈ (s.tables.step x.step).supervision, e.cond ≠ c) :
    (s.trigger n).stands = true ∧ Leads 3 v (Work.waiting (s.asked n) []) ∨
      (s.trigger n).stands = false ∧ Leads 4 v (actExamineTriggers (Work.waiting (s.asked n) [])) := by
  rw [heedless_push heedless] at lead
  have applied : Leads 1 ((Work.waiting s []).push [.applyTriggers [(c, .yes)]]) (actApplyTriggers [(c, .yes)] (Work.waiting s [])) :=
    Leads.take (a := .applyTriggers _) rfl
  rw [applyTriggers_single triggers hn used named off alone] at applied
  cases stands : (s.trigger n).stands with
  | true =>
    rw [stands] at applied
    exact .inl ⟨rfl, lead.trans applied⟩
  | false =>
    rw [stands] at applied
    have examined : Leads 1 (((Work.waiting s []).withSt (s.asked n)).push [.examineTriggers]) (actExamineTriggers (Work.waiting (s.asked n) [])) :=
      Leads.take (a := .examineTriggers) rfl
    exact .inr ⟨rfl, (lead.trans applied).trans examined⟩

theorem asked_best {s : State} {n : Nat} (triggers : s.seq.triggers.length = 12) (hn : n < 12)
    (others : ∀ k, k < 12 → k ≠ n → (s.trigger k).stands = false) : (s.asked n).bestTrigger = some n := by
  refine bestTrigger_only hn ?_ fun k hk other => ?_
  · rw [State.asked_trigger triggers hn, if_pos rfl]
    rfl
  · rw [State.asked_trigger triggers hn, if_neg (Ne.symm other)]
    exact others k hk other

/-- The hand-off of a walk that no consumer follows comes to its end. -/
theorem holdWalk_unheeded {s : State} {c : Nat} (hn : s.phase = .normal) (hu : s.unheeded) :
    ∃ m, m ≤ 3 ∧ Leads m (startWith s [.condWalk (.hold c)]) (Work.waiting (s.walkedFrom (.hold c)) []) := by
  have first := startWith_leads s (.condWalk (.hold c))
  have e := actCondWalk_of_normal (w := Work.waiting s []) hn (.hold c)
  rw [show act (.condWalk (.hold c)) (Work.idle s) = act (.condWalk (.hold c)) (Work.waiting s []) from rfl, e] at first
  split at first
  · exact ⟨1, by omega, first⟩
  · have emitted := first.trans (Leads.emit s (s.walkedFrom (.hold c)) _ [])
    exact ⟨1 + 0 + 2, by omega, emitted.trans (handoff_leads (State.walkedFrom_unheeded hu (.hold c)) _ [])⟩

end Sys2Proof.Machine
end

section
open Sys2Proof Sys2Proof.Machine

/-- Settles O21: the walk that begins with the hold, and its three consumers: supervision, proof and a trigger. -/
theorem holdExpiryBelieves : Obligations.HoldExpiryBelieves := by
  unfold Obligations.HoldExpiryBelieves
  refine ⟨fun c s hc => ⟨fun t running out used hn hs hu checked => ?_, fun stopped => ?_, fun t running early => ?_⟩,
    fun c s time hc running out held watched hn hs unlocked => ?_, fun set w => ⟨actHandoff_idle, fun x n hx top => ?_, fun n hn triggers => ?_⟩⟩
  · obtain ⟨-, length, -⟩ := id hs
    obtain ⟨m, few, lead⟩ := holdWalk_unheeded (c := c) hn hu
    have start : walkStart (.hold c) s = (s.believes c, if (s.cond c).held = .yes then [] else [c]) := expireHold_due used running out
    have walked : s.walkedFrom (.hold c) = (walk (.hold c) (s.believes c) (if (s.cond c).held = .yes then [] else [c])).1 := by
      rw [State.walkedFrom, start]
    have stands := State.walkedFrom_eq s (.hold c)
    generalize s.walkedFrom (.hold c) = u at lead walked stands
    have among : ∀ d ∈ (if (s.cond c).held = .yes then [] else [c]), d = c := by
      split
      · exact fun d hd => nomatch hd
      · exact fun d hd => List.mem_singleton.1 hd
    have below (i : Nat) (hi : i ≤ c) := walk_hold_below (s := s.believes c) hc among checked hi
    refine ⟨u, ?_, ?_, fun i hi => ?_, walked, stands⟩
    · rw [exec_holdExpiry c hc]
      exact lead.finish (by have : Config.cascadeLimit = 65536 := rfl; omega) rfl
    · rw [walked, below c (Nat.le_refl c), State.believes_cond (by omega), if_pos rfl]
    · rw [walked, below i (by omega), State.believes_cond (by omega), if_neg (by omega)]
  · have lead := holdWalk_leads s c
    rw [holdWalk_idle fun t h => by rw [stopped] at h; cases h] at lead
    rw [exec_holdExpiry c hc]
    exact lead.finish (by decide) rfl
  · have lead := holdWalk_leads s c
    rw [holdWalk_idle fun t' h => by rw [running] at h; cases h; exact early] at lead
    rw [exec_holdExpiry c hc]
    exact lead.finish (by decide) rfl
  · obtain ⟨-, length, -, triggers, -⟩ := id hs
    have lead := holdExpiry_leads watched hc hn length running out held
    have sized := believes_sized hs c
    have undisturbed : (s.believes c).undisturbed := watchedBy_undisturbed watched
    rw [exec_holdExpiry c hc]
    dsimp only
    refine ⟨fun x n m below e free hx chain hn' supervises cond expected cls low link check quiet => ?_,
      fun x n k free hx top taken going proving value holds next quiet => ?_, fun n hn' used named off alone heedless => ⟨fun refused others => ?_,
      fun t x below check clear chain ht hx quiet => ?_⟩⟩
    · obtain ⟨u, run, entered, count, fault⟩ := finish_heldFault lead hn sized undisturbed unlocked free hx chain hn' supervises cond expected cls
        low link check quiet
      exact ⟨u, run, entered, count, by rw [fault]; rfl, by rw [fault]; rfl⟩
    · exact finish_heldProof lead hn sized undisturbed free hx top taken going proving value holds next quiet
    · rcases asked_leads lead triggers hn' used named off alone heedless with ⟨-, ends⟩ | ⟨-, ends⟩
      · exact ends.finish (by decide) rfl
      · rw [examine_refused (w := Work.waiting ((s.believes c).asked n) []) (asked_best (s := s.believes c) triggers hn' others) refused
          (switchCheck_inactive off)] at ends
        exact ends.finish (by decide) rfl
    · have quietly (k : Nat) : ((s.believes c).trigger k) = Trigger.clear := by
        show s.trigger k = _
        unfold State.trigger
        rw [clear, getD_replicate]
      rcases asked_leads lead triggers hn' used named off alone heedless with ⟨stands, -⟩ | ⟨-, ends⟩
      · rw [quietly] at stands
        cases stands
      · have best := asked_best (s := s.believes c) triggers hn' fun k _ _ => by rw [quietly]; rfl
        have back : ((s.believes c).asked n).setTrigger n Trigger.clear = s.believes c := by
          show (s.believes c).setSeq { s.seq with triggers := (s.seq.triggers.set n { s.trigger n with own := true }).set n Trigger.clear } = _
          rw [List.set_set, clear, List.set_replicate_self, ← clear]
          rfl
        rw [examine_served (w := Work.waiting ((s.believes c).asked n) []) hn best check, Work.waiting_st, back] at ends
        obtain ⟨u, run, called, saved, -⟩ := finish_called (s := s.believes c) (kinds := []) ends chain hx
          (by obtain ⟨-, -, runs, -⟩ := sized; show t < (s.believes c).seq.runs.length; omega) (SameGround.refl _) ⟨rfl, rfl, rfl⟩ rfl rfl rfl hn undisturbed
          sized quiet (fun a ha => nomatch ha) (by simp [Work.weight, Work.withSt, Work.waiting])
        exact ⟨u, run, called, saved⟩
  · dsimp only
    refine ⟨fun fails => ?_, fun holds proof => ?_, fun holds still => ?_⟩
    · exact actHandoff_fails hx top ((setViolates_iff _ set).2 fails)
    · obtain ⟨taken, going, proves⟩ := proof
      exact actHandoff_proves hx (fun k => holds ((setViolates_iff _ set).1 k)) taken going ((setProves_iff _ set).2 proves)
    · exact actHandoff_stays hx (fun k => holds ((setViolates_iff _ set).1 k)) fun k =>
        still ⟨k.1, k.2.1, (setProves_iff _ set).1 k.2.2⟩
  · dsimp only
    rw [actApplyTriggers_trigger set w hn]
    refine ⟨ownSource_circuits _ _ _ _, fun c used named => ?_, fun idle => by rw [ownSource_unnamed idle]⟩
    rw [ownSource_named used named]
    refine ⟨fun found off => ?_, fun found on => ?_, fun found => ?_, fun found => ?_⟩
    · rw [found]
      dsimp only
      exact congrArg Trigger.own (if_neg fun k => off (List.contains_iff_mem.1 k))
    · rw [found]
      dsimp only
      exact congrArg Trigger.own (if_pos (List.contains_iff_mem.2 on))
    · rcases found with found | found <;> rw [found]
    · rw [found]

end

section
/-! SUPPORT. The image check of a part whose notice set is empty: O53. -/

namespace Sys2Proof.Machine

/-- The part at device reset, but with no entry in the pending-notice set: no notice can be raised in it. -/
def noticeless : State := State.reset.setGate { State.reset.gate with notices := [] }

/-- The number of entries of the pending-notice set in the state that an instruction leads to. -/
def noticesAfter (o : Host.Outcome State Fault Refusal) : Option Nat :=
  match o with
  | .next u => some u.gate.notices.length
  | _ => none

/-- The fault TABLE_INVALID is noted, and the notice it raises has no entry to be kept in. -/
theorem noticeless_raises_none : noticesAfter (exec .powerOnImageCheck noticeless) = some 0 := by decide +kernel

theorem ControlChoice.notices_length {s t : State} (h : ControlChoice s t) : t.gate.notices.length = s.gate.notices.length := by
  cases h with
  | urgent | notice => exact List.length_set
  | busy | reply | queue | idle => rfl

theorem State.arbitrate_notices_length (s : State) : s.arbitrate.gate.notices.length = s.gate.notices.length := by
  have field := s.fieldChoice.served.frame
  rw [State.arbitrate_eq]
  calc s.fieldChosen.controlChosen.gate.notices.length
      = s.fieldChosen.gate.notices.length := s.fieldChosen.controlChoice.notices_length
    _ = s.gate.notices.length := by rw [field]

theorem State.notice_of_none {s : State} (h : s.gate.notices.length = 0) (k : NoticeKind) : s.notice k = Notice.none := by
  rw [State.notice, List.length_eq_zero_iff.1 h]
  rfl

end Sys2Proof.Machine

section
open Sys2Proof Sys2Proof.Machine

/-- Refutes O53: on a bad image the statement asks of any state that the FAULT notice is raised, and does not ask that the
pending-notice set has its seven entries. In a state whose set is empty the notice has no entry to stand in. -/
theorem not_imageCheckEnds : ¬ Obligations.ImageCheckEnds := by
  intro h
  obtain ⟨-, -, bad⟩ := h noticeless
  obtain ⟨u, run, -, -, -, -, -, -, -, -, -, -, flag, -⟩ := bad rfl rfl rfl rfl
  have stays := noticeless_raises_none
  rw [run, noticesAfter, State.arbitrate_notices_length] at stays
  rw [State.notice_of_none (Option.some.inj stays)] at flag
  exact absurd flag (by decide)

end
end

section
/-! SUPPORT. What stands after a role table has been installed, and the walk over conditions that know nothing yet: O52. -/

namespace Sys2Proof.Machine

/-! ### A walk without evidence (R31, R33, R36) -/

/-- Nothing is known: no point has a reading, no flue value is decided, no role's output is confirmed. -/
structure State.Unknowing (s : State) : Prop where
  points : s.points = List.replicate 24 PointRun.empty
  conds : s.conds = List.replicate 32 CondRun.reset
  flue : s.flue = FlueRun.reset
  roles : ∀ r, roleConfirmedRaw s r = .unknown

theorem rawValue_unknowing {s : State} (h : s.Unknowing) (e : CondEntry) (previous : Tri) : rawValue s e previous = .unknown := by
  have unread (p : Nat) : goodValue (s.point p) = none := by
    rw [State.point, h.points, getD_replicate]
    rfl
  have unheld (c : Nat) : s.held c = .unknown := by
    rw [State.held, State.cond, h.conds, getD_replicate]
    rfl
  unfold rawValue
  rw [unread, unheld, unheld, h.roles, h.flue]
  cases e.kind <;> rfl

theorem walkAt_unknowing {s : State} (h : s.Unknowing) (i : CondInput) (c : Nat) : walkAt i (s, []) c = (s, []) := by
  have stands : s.cond c = CondRun.reset := by rw [State.cond, h.conds, getD_replicate]
  have same : s.setCond c CondRun.reset = s := by
    have e : s.conds.set c CondRun.reset = s.conds := by rw [h.conds, List.set_replicate_self]
    unfold State.setCond
    rw [e]
  unfold walkAt
  dsimp only
  split
  · rw [stands, rawValue_unknowing h, afterEvaluation_not_yes (by decide)]
    exact Prod.ext same rfl
  · rfl

/-- A walk over conditions that know nothing leaves them so, and hands nothing on. -/
theorem actCondWalk_unknowing {w : Work} (h : w.st.Unknowing) : act (.condWalk .all) w = w := by
  have walked : walk .all w.st [] = (w.st, []) := by
    unfold walk
    generalize List.range 32 = l
    induction l with
    | nil => rfl
    | cons c l ih => rw [List.foldl_cons, walkAt_unknowing h, ih]
  have e : act (.condWalk .all) w = actCondWalk .all w := rfl
  have start : walkStart .all w.st = (w.st, []) := rfl
  rw [e, actCondWalk, start, walked]
  exact ite_self _

/-! ### Installing a role table (R126) -/

/-- What a role is after a table with its entry `e` has been installed over the runtime `x`. -/
structure Installed (e : RoleEntry) (period : Nat) (x y : RoleRun) : Prop where
  shape : y = { RoleRun.reset with
    limit := y.limit, lockout := y.lockout, frost := y.frost, ctlFilled := y.ctlFilled, requested := y.requested
    applied := y.applied, owner := y.owner, confirm := y.confirm, refresh := y.refresh }
  claimed : (y.owner, y.applied) = y.claim
  ctlFilled : y.ctlFilled = x.ctlFilled
  requested : y.requested = x.requested
  field : ∀ n c, e.target = .field n c → y.confirm = some (e.confirmWindow * 10) ∧
    y.refresh = (if y.owner = .controller ∨ y.owner = .default then none else some (period * 10))
  direct : (∀ n c, e.target ≠ .field n c) → y.confirm = none ∧ y.refresh = none

theorem refreshed_period (o : Claimant) (period : Nat) : (if o.refreshed then some (period * 10) else none) =
    (if o = .controller ∨ o = .default then none else some (period * 10)) := by
  cases o <;> rfl

theorem State.installedRole_installed (s : State) (frost : Option Nat) (r : Nat) (x : RoleRun) :
    Installed (s.tables.role r) s.tables.device.refresh x (s.installedRole frost r x) := by
  unfold State.installedRole
  dsimp only
  split
  · next isField =>
    obtain ⟨n, c, field⟩ := (isField_iff _ _).1 isField
    exact ⟨rfl, rfl, rfl, rfl, fun _ _ _ => ⟨rfl, refreshed_period _ _⟩, fun direct => absurd field (direct n c)⟩
  · next direct => exact ⟨rfl, rfl, rfl, rfl, fun n c field => absurd ((isField_iff _ _).2 ⟨n, c, field⟩) direct, fun _ => ⟨rfl, rfl⟩⟩

theorem State.installedRole_limit (s : State) (frost : Option Nat) (r : Nat) (x : RoleRun) :
    (s.installedRole frost r x).limit = if s.pins.limitClosed = false ∧ r < 3 then some 0 else none := by
  have e : (s.installedRole frost r x).limit = s.limitSlot r := by unfold State.installedRole; dsimp only; split <;> rfl
  rw [e, State.limitSlot, limitClaim]
  cases s.pins.limitClosed <;> simp

theorem State.installedRole_lockout (s : State) (frost : Option Nat) (r : Nat) (x : RoleRun) :
    (s.installedRole frost r x).lockout = if s.locked = true ∧ (r = 0 ∨ r = 1 ∨ r = 2 ∨ r = 4) then some 0
      else if s.locked = true ∧ r = 7 then some 1000 else none := by
  have e : (s.installedRole frost r x).lockout = s.lockoutSlot r := by unfold State.installedRole; dsimp only; split <;> rfl
  rw [e, State.lockoutSlot, lockoutClaim]
  cases s.locked <;> simp

theorem State.installedRole_frost (s : State) (frost : Option Nat) (r : Nat) (x : RoleRun) : (s.installedRole frost r x).frost = frost := by
  unfold State.installedRole
  dsimp only
  split <;> rfl

section
variable (s : State) (base : Nat → RoleRun) (frost : Nat → Option Nat) (keep : Nat → Bool)

theorem State.installRoles_role {r : Nat} (h : r < 12) :
    (s.installRoles base frost keep).role r = s.installedRole (frost r) r (base r) :=
  (getD_map_range 12 r (fun r => s.installedRole (frost r) r (base r)) _).trans (if_pos h)

theorem State.installRoles_line {l : Nat} (h : l < 8) : (s.installRoles base frost keep).line l =
    { commanded := match s.tables.roleOfLine l with
        | some r => ((s.installRoles base frost keep).role r).applied != 0
        | none => false
      settle := some 2
      mismatch := keep l && (s.line l).mismatch } :=
  (getD_map_range 8 l (State.installedLine { s with roles := (s.installRoles base frost keep).roles } keep) _).trans ((if_pos h).trans (by
    unfold State.installedLine
    cases s.tables.roleOfLine l <;> simp only <;> rfl))

theorem State.installRoles_slot {r : Nat} (h : r < 12) : (s.installRoles base frost keep).slot r =
    match (s.tables.role r).target with
    | .field n c => some (placedSlot n c ((s.installRoles base frost keep).role r).applied)
    | _ => none :=
  (getD_map_range 12 r (State.installedSlot (s.installRoles base frost keep)) _).trans ((if_pos h).trans (by
    have t : (s.installRoles base frost keep).tables = s.tables := rfl
    unfold State.installedSlot
    rw [t] <;> rfl))

/-- Right after an installation no role's output is confirmed or refuted: confirmations and readback settles are running. -/
theorem State.installRoles_unconfirmed (sized : s.tables.roles.length = 12)
    (lines : ∀ r l, r < 12 → (s.tables.role r).target = .line l → l < 8) (r : Nat) :
    roleConfirmedRaw (s.installRoles base frost keep) r = .unknown := by
  have t : (s.installRoles base frost keep).tables = s.tables := rfl
  unfold roleConfirmedRaw
  rw [t]
  by_cases hr : r < 12
  · have installed := s.installedRole_installed (frost r) r (base r)
    cases target : (s.tables.role r).target with
    | none => rfl
    | line l =>
      have settling := s.installRoles_line base frost keep (lines r l hr target)
      dsimp only
      rw [lineConfirmed, settling]
      rfl
    | field n c =>
      obtain ⟨running, -⟩ := installed.field n c target
      dsimp only
      rw [s.installRoles_role base frost keep hr, fieldConfirmed, installed.shape, running]
      rfl
  · have entry : s.tables.role r = RoleEntry.initial := by
      rw [Tables.role, getD_of_ge _ _ (by omega)]
    rw [entry]
    rfl

end

end Sys2Proof.Machine
end

section
/-! SUPPORT. The completion of a commit: O52. -/

namespace Sys2Proof.Machine

/-! ### What the commit leaves of the units (R126, R166) -/

/-- The table set installed, before the address of the controller is looked at. -/
def State.installing (s : State) : State :=
  s.commitUnits.installRoles (commitBase s s.commitUnits.tables) s.commitUnits.frostClaim (keepsMark s.tables s.commitUnits.tables)

theorem State.committed_presence (s : State) : s.committed = s.installing.commitPresence s.tables.device.ctlAddr := rfl

theorem State.commitPresence_eq (s : State) (old : Nat) : s.commitPresence old = { s with
    seq := (s.commitPresence old).seq
    gate := { s.gate with present := (s.commitPresence old).gate.present, absence := (s.commitPresence old).gate.absence } } := by
  rcases s.commitPresence_cases old with e | e
  · rw [e]
  · rw [e]
    rfl

theorem State.commitPresence_role (s : State) (old r : Nat) : (s.commitPresence old).role r = s.role r := by
  rw [State.commitPresence_eq]
  rfl

theorem State.commitPresence_line (s : State) (old l : Nat) : (s.commitPresence old).line l = s.line l := by
  rw [State.commitPresence_eq]
  rfl

theorem State.commitPresence_slot (s : State) (old r : Nat) : (s.commitPresence old).slot r = s.slot r := by
  rw [State.commitPresence_eq]
  rfl

theorem State.commitPresence_absent {s : State} {old : Nat} (moved : s.tables.device.ctlAddr ≠ old) (present : s.gate.present = true) :
    (s.commitPresence old).gate.present = false ∧ (s.commitPresence old).gate.absence = none := by
  rw [State.commitPresence, if_pos ⟨moved, present⟩]
  exact ⟨rfl, rfl⟩

theorem State.commitPresence_kept {s : State} {old : Nat} (h : s.tables.device.ctlAddr = old ∨ s.gate.present = false) :
    s.commitPresence old = s := by
  refine if_neg fun k => ?_
  obtain ⟨moved, present⟩ := k
  rcases h with same | absent
  · exact moved same
  · rw [absent] at present
    cases present

theorem Store.startWrite_kept (x : Store) (d : LockoutData) : (x.startWrite d).image = x.image ∧ (x.startWrite d).commit = x.commit := by
  unfold Store.startWrite
  split <;> exact ⟨rfl, rfl⟩

theorem Store.imageWritten_kept (x : Store) (t : Tables) (d : LockoutData) :
    (x.imageWritten t d).image = some t ∧ (x.imageWritten t d).commit = .none := by
  have e : x.imageWritten t d = if x.again then Store.startWrite { x with image := some t, commit := .none, again := false } d
    else { x with image := some t, commit := .none } := rfl
  rw [e]
  split
  · exact Store.startWrite_kept _ d
  · exact ⟨rfl, rfl⟩

theorem State.committed_idleSeq {s : State} (purge : s.seq.purgeDue = false) (demand : s.seq.demand = false) :
    s.committed.seq = SeqUnit.reset := by
  have kept : s.installing.seq = SeqUnit.reset := by
    have e : s.installing.seq = { SeqUnit.reset with demand := s.seq.demand, purgeDue := s.seq.purgeDue } := rfl
    rw [e, purge, demand]
    rfl
  rw [State.committed_presence]
  rcases s.installing.commitPresence_cases s.tables.device.ctlAddr with e | e
  · rw [e, kept]
  · have cleared : ((s.installing.setGate { s.installing.gate with present := false, absence := none }).setSeq
        { s.installing.seq with demand := false }).seq = { s.installing.seq with demand := false } := rfl
    rw [e, cleared, kept]
    rfl

theorem State.committed_role (s : State) {r : Nat} (h : r < 12) :
    s.committed.role r = s.commitUnits.installedRole (s.commitUnits.frostClaim r) r (commitBase s s.staging r) := by
  rw [State.committed_presence, State.commitPresence_role]
  exact s.commitUnits.installRoles_role _ _ _ h

theorem State.committed_circuit (s : State) {c : Nat} (h : c < 6) :
    s.committed.circuit c = rederive (s.staging.circuit c) (s.circuit c) := by
  have e : s.committed.circuits = s.commitUnits.circuits := by
    rw [State.committed_presence, State.commitPresence_eq]
    rfl
  rw [State.circuit, e]
  exact (getD_map_range 6 c (fun c => rederive (s.staging.circuit c) (s.circuit c)) _).trans (if_pos h)

theorem State.committed_unknowing {s : State} (sized : s.staging.sized)
    (lines : ∀ r l, r < 12 → (s.staging.role r).target = .line l → l < 8) : s.committed.Unknowing := by
  have roles : s.staging.roles.length = 12 := by obtain ⟨-, -, -, -, -, roles⟩ := sized; exact roles
  refine ⟨by rw [State.committed_eq], by rw [State.committed_eq], by rw [State.committed_eq], fun r => ?_⟩
  have same : roleConfirmedRaw s.committed r = roleConfirmedRaw s.installing r := by
    rw [State.committed_presence, State.commitPresence_eq]
    rfl
  rw [same]
  exact s.commitUnits.installRoles_unconfirmed _ _ _ roles lines r

/-! ### What the commit hands on (R95, R96, R111) -/

theorem State.Unknowing.withNotices {s : State} (h : s.Unknowing) (ns : List Notice) : (s.withNotices ns).Unknowing :=
  ⟨h.points, h.conds, h.flue, h.roles⟩

theorem commitSequence_leads {s : State} (idle : s.seq = SeqUnit.reset) :
    Leads 3 (Work.waiting s [.commitSequence]) (Work.waiting s []) := by
  have first := Leads.take (Work.take_waiting s .commitSequence [])
  have due : act .commitSequence (Work.waiting s []) = { Work.waiting s [] with stack := [.examineTriggers, .examineDemand] } := by
    have e : act .commitSequence (Work.waiting s []) = actCommitSequence (Work.waiting s []) := rfl
    have none : ((Work.waiting s []).push [.examineTriggers, .examineDemand]).st.seq.purgeDue = false := by
      show s.seq.purgeDue = false
      rw [idle]
      rfl
    rw [e, actCommitSequence]
    dsimp only
    rw [none]
    rfl
  have triggers : act .examineTriggers { Work.waiting s [] with stack := [.examineDemand] } =
      { Work.waiting s [] with stack := [.examineDemand] } :=
    actExamineTriggers_of_none (by show s.noTriggers = true; rw [State.noTriggers, idle]; decide)
  have demand : act .examineDemand (Work.waiting s []) = Work.waiting s [] :=
    actExamineDemand_of_idle (by
      show s.demandIdle
      rw [State.demandIdle, State.demandServed, idle]
      simp [SeqUnit.reset])
  rw [due] at first
  have second := Leads.take (w := { Work.waiting s [] with stack := [.examineTriggers, .examineDemand] }) (a := .examineTriggers)
    (w' := { Work.waiting s [] with stack := [.examineDemand] }) rfl
  rw [triggers] at second
  have third := Leads.take (w := { Work.waiting s [] with stack := [.examineDemand] }) (a := .examineDemand) (w' := Work.waiting s []) rfl
  rw [demand] at third
  exact (first.trans second).trans third

/-- A commit under which no purge and no demand waits ends with the notices of its circuits raised, and nothing else follows. -/
theorem finish_commit {s : State} (purge : s.seq.purgeDue = false) (demand : s.seq.demand = false) (sized : s.staging.sized)
    (lines : ∀ r l, r < 12 → (s.staging.role r).target = .line l → l < 8) :
    ∃ ns, finish (commitCompleted s) = .next (s.committed.withNotices ns).arbitrate := by
  have few := movedCircuits_length s s.committed
  have unknowing := State.committed_unknowing sized lines
  have idle := State.committed_idleSeq purge demand
  have e : commitCompleted s =
      ((Work.idle s.committed).frostMoved (movedCircuits s s.committed)).emit [.condWalk .all, .commitSequence] := rfl
  rw [e]
  generalize s.committed = c at *
  obtain ⟨ds, hd, shape⟩ := frostMoved_fins (Work.idle c) [] (movedCircuits s c) rfl
  rw [List.length_nil] at hd
  obtain ⟨ns, -, notices⟩ := frostNotices_lead c ds [.condWalk .all, .commitSequence]
  rw [shape]
  have walk := Leads.take (Work.take_waiting (c.withNotices ns) (.condWalk .all) [.commitSequence])
  rw [actCondWalk_unknowing (w := Work.waiting (c.withNotices ns) [.commitSequence]) (unknowing.withNotices ns)] at walk
  exact ⟨ns, ((notices.trans walk).trans (commitSequence_leads (s := c.withNotices ns) idle)).finish
    (by unfold Config.cascadeLimit; omega) rfl⟩

/-! ### The outputs under the new tables (R126) -/

/-- What the statement asks of a role after a commit of the staging image. -/
structure CommittedRole (s u : State) (r : Nat) : Prop where
  shape : u.role r = { RoleRun.reset with
    limit := (u.role r).limit, lockout := (u.role r).lockout, frost := (u.role r).frost, ctlFilled := (u.role r).ctlFilled
    requested := (u.role r).requested, applied := (u.role r).applied, owner := (u.role r).owner, confirm := (u.role r).confirm
    refresh := (u.role r).refresh }
  limit : (u.role r).limit = if s.pins.limitClosed = false ∧ r < 3 then some 0 else none
  lockout : (u.role r).lockout = if s.locked = true ∧ (r = 0 ∨ r = 1 ∨ r = 2 ∨ r = 4) then some 0
    else if s.locked = true ∧ r = 7 then some 1000 else none
  frost : (u.role r).frost = u.frostClaim r
  kept : s.phase = .normal ∧ (s.staging.role r).ctlAllowed = true →
    (u.role r).ctlFilled = (s.role r).ctlFilled ∧ (u.role r).requested = clampRequest (s.staging.role r) (s.role r).requested
  dropped : ¬ (s.phase = .normal ∧ (s.staging.role r).ctlAllowed = true) → (u.role r).ctlFilled = false ∧ (u.role r).requested = 0
  claimed : ((u.role r).owner, (u.role r).applied) = (u.role r).claim
  field : ∀ n c, (s.staging.role r).target = .field n c → (u.role r).confirm = some ((s.staging.role r).confirmWindow * 10) ∧
    (u.role r).refresh = (if (u.role r).owner = .controller ∨ (u.role r).owner = .default then none
      else some (s.staging.device.refresh * 10)) ∧
    u.slot r = some { node := n, channel := c, last := some (u.role r).applied, pending := true, newer := true }
  direct : (∀ n c, (s.staging.role r).target ≠ .field n c) →
    (u.role r).confirm = none ∧ (u.role r).refresh = none ∧ u.slot r = none

/-- What of the controller's request a commit keeps (R126). -/
theorem commitBase_request (s : State) (t : Tables) (r : Nat) :
    (s.phase = .normal ∧ (t.role r).ctlAllowed = true → (commitBase s t r).ctlFilled = (s.role r).ctlFilled ∧
      (commitBase s t r).requested = clampRequest (t.role r) (s.role r).requested) ∧
    (¬ (s.phase = .normal ∧ (t.role r).ctlAllowed = true) →
      (commitBase s t r).ctlFilled = false ∧ (commitBase s t r).requested = 0) := by
  unfold commitBase
  by_cases hn : s.phase = .normal
  · rw [if_pos (State.normal_of_phase hn), commitRequest]
    by_cases allowed : (t.role r).ctlAllowed = true
    · rw [if_pos allowed]
      exact ⟨fun _ => ⟨rfl, rfl⟩, fun k => absurd ⟨hn, allowed⟩ k⟩
    · rw [if_neg allowed]
      exact ⟨fun ⟨_, k⟩ => absurd k allowed, fun _ => ⟨rfl, rfl⟩⟩
  · rw [if_neg (by rw [State.normal, decide_eq_true_iff]; exact hn)]
    exact ⟨fun ⟨k, _⟩ => absurd k hn, fun _ => ⟨rfl, rfl⟩⟩

theorem State.committed_frostClaim (s : State) (r : Nat) : s.committed.frostClaim r = s.commitUnits.frostClaim r := by
  rw [State.committed_presence, State.commitPresence_eq]
  rfl

theorem State.committed_slot (s : State) {r : Nat} (h : r < 12) : s.committed.slot r =
    match (s.staging.role r).target with
    | .field n c => some (placedSlot n c (s.committed.role r).applied)
    | _ => none := by
  have slot := s.commitUnits.installRoles_slot (commitBase s s.commitUnits.tables) s.commitUnits.frostClaim
    (keepsMark s.tables s.commitUnits.tables) h
  rw [State.committed_presence, State.commitPresence_slot, State.commitPresence_role]
  have tables : s.commitUnits.tables = s.staging := rfl
  rw [tables] at slot
  cases target : (s.staging.role r).target with
  | none | line l | field n c =>
    rw [target] at slot
    exact slot

theorem committed_committedRole (s : State) {r : Nat} (h : r < 12) : CommittedRole s s.committed r := by
  have role := s.committed_role h
  have installed := s.commitUnits.installedRole_installed (s.commitUnits.frostClaim r) r (commitBase s s.staging r)
  have limit := s.commitUnits.installedRole_limit (s.commitUnits.frostClaim r) r (commitBase s s.staging r)
  have lockout := s.commitUnits.installedRole_lockout (s.commitUnits.frostClaim r) r (commitBase s s.staging r)
  have frost := s.commitUnits.installedRole_frost (s.commitUnits.frostClaim r) r (commitBase s s.staging r)
  have slot := s.committed_slot h
  obtain ⟨kept, dropped⟩ := commitBase_request s s.staging r
  rw [← role] at installed limit lockout frost
  rw [← s.committed_frostClaim r] at frost
  exact {
    shape := installed.shape
    limit := limit
    lockout := lockout
    frost := frost
    kept := fun k => by rw [installed.ctlFilled, installed.requested]; exact kept k
    dropped := fun k => by rw [installed.ctlFilled, installed.requested]; exact dropped k
    claimed := installed.claimed
    field := fun n c target => by
      obtain ⟨confirm, refresh⟩ := installed.field n c target
      rw [target] at slot
      exact ⟨confirm, refresh, slot⟩
    direct := fun other => by
      obtain ⟨confirm, refresh⟩ := installed.direct other
      refine ⟨confirm, refresh, slot.trans ?_⟩
      cases target : (s.staging.role r).target with
      | field n c => exact absurd target (other n c)
      | line l => rfl
      | none => rfl }

theorem keepsMark_iff (old new : Tables) (l : Nat) :
    keepsMark old new l = true ↔ ∃ r, old.roleOfLine l = some r ∧ new.roleOfLine l = some r := by
  unfold keepsMark
  rw [Bool.and_eq_true, decide_eq_true_iff]
  cases new.roleOfLine l <;> simp

theorem State.committed_line (s : State) {l : Nat} (h : l < 8) : (s.committed.line l).settle = some 2 ∧
    (s.committed.line l).commanded = (match s.staging.roleOfLine l with
      | some r => (s.committed.role r).applied != 0
      | none => false) ∧
    ((s.committed.line l).mismatch = true ↔ (s.line l).mismatch = true ∧
      ∃ r, s.tables.roleOfLine l = some r ∧ s.staging.roleOfLine l = some r) := by
  have line := s.commitUnits.installRoles_line (commitBase s s.commitUnits.tables) s.commitUnits.frostClaim
    (keepsMark s.tables s.commitUnits.tables) h
  have e : s.committed.line l = s.installing.line l := by rw [State.committed_presence, State.commitPresence_line]
  have same (r : Nat) : s.committed.role r = s.installing.role r := by rw [State.committed_presence, State.commitPresence_role]
  have mark : (s.committed.line l).mismatch = (keepsMark s.tables s.staging l && (s.line l).mismatch) := by
    rw [e]
    exact congrArg LineRun.mismatch line
  refine ⟨by rw [e]; exact congrArg LineRun.settle line, ?_, ?_⟩
  · rw [e]
    have commanded := congrArg LineRun.commanded line
    have tables : s.commitUnits.tables = s.staging := rfl
    rw [tables] at commanded
    cases role : s.staging.roleOfLine l with
    | none =>
      rw [role] at commanded
      exact commanded
    | some r =>
      rw [role] at commanded
      exact commanded.trans (congrArg (fun x : RoleRun => x.applied != 0) (same r).symm)
  · rw [mark, Bool.and_eq_true, keepsMark_iff, and_comm]

end Sys2Proof.Machine
end

section
open Sys2Proof Sys2Proof.Machine

/-- Settles O52: the installation of the staging image, and a cascade in which nothing is known and nothing waits. -/
theorem commitCompletes : Obligations.CommitCompletes := by
  unfold Obligations.CommitCompletes
  refine fun s => ⟨fun idle => if_neg idle, fun writing purge demand sized lines => ?_⟩
  obtain ⟨ns, run⟩ := finish_commit purge demand sized lines
  have start : exec .commitCompletion s = finish (commitCompleted s) := if_pos writing
  have seq := State.committed_idleSeq purge demand
  have store := s.store.imageWritten_kept s.staging s.fault.data
  have circuits : ∀ c, c < 6 → s.committed.circuit c = rederive (s.staging.circuit c) (s.circuit c) := fun c h => s.committed_circuit h
  have roles : ∀ r, r < 12 → CommittedRole s s.committed r := fun r h => committed_committedRole s h
  have outputs : ∀ l, l < 8 → _ := fun l h => s.committed_line (l := l) h
  have absent : s.staging.device.ctlAddr ≠ s.tables.device.ctlAddr → s.gate.present = true → _ :=
    State.commitPresence_absent (s := s.installing) (old := s.tables.device.ctlAddr)
  have present : s.staging.device.ctlAddr = s.tables.device.ctlAddr ∨ s.gate.present = false → s.committed = s.installing :=
    State.commitPresence_kept (s := s.installing) (old := s.tables.device.ctlAddr)
  rw [← s.committed_presence] at absent
  have frame := s.committed_eq
  have same : s.installing.gate.present = s.gate.present ∧ s.installing.gate.absence = s.gate.absence := ⟨rfl, rfl⟩
  generalize s.committed = c at *
  obtain ⟨image, commit⟩ := store
  have kept : c.staging = s.staging ∧ c.fault = s.fault ∧ c.trace = s.trace ∧ c.pins = s.pins ∧ c.gate.up = s.gate.up ∧
      c.gate.down = s.gate.down ∧ c.gate.reply = s.gate.reply := by
    rw [frame]
    exact ⟨rfl, rfl, rfl, rfl, rfl, rfl, rfl⟩
  have fresh : c.phase = .normal ∧ c.tables = s.staging ∧ c.store = s.store.imageWritten s.staging s.fault.data ∧
      c.points = List.replicate 24 PointRun.empty ∧ c.conds = List.replicate 32 CondRun.reset ∧ c.flue = FlueRun.reset := by
    rw [frame]
    exact ⟨rfl, rfl, rfl, rfl, rfl, rfl⟩
  obtain ⟨staging, fault, trace, pins, up, down, reply⟩ := kept
  obtain ⟨phase, tables, written, points, conds, flue⟩ := fresh
  rw [← written] at image commit
  refine ⟨c.withNotices ns, start.trans run, phase, tables, staging, image, commit, points, conds, flue, seq, circuits,
    fun r h => ?_, outputs, absent, fun k => ?_, fault, trace, pins, up, down, reply⟩
  · obtain ⟨shape, limit, lockout, frost, kept, dropped, claimed, field, direct⟩ := roles r h
    exact ⟨shape, limit, lockout, frost, kept, dropped, claimed, field, direct⟩
  · obtain ⟨standing, absence⟩ := same
    have e := present k
    exact ⟨(congrArg (fun x : State => x.gate.present) e).trans standing, (congrArg (fun x : State => x.gate.absence) e).trans absence⟩

end

section
/-! SUPPORT. What the claim slots depend on, and how each operation of a unit leaves it, or notes the hand-over of claims that is
due: the ground of O40. -/

namespace Sys2Proof.Machine

/-! ### What the claims depend on (R63, R105, R116, R120) -/

/-- The claim slots of a role above the controller's. -/
def RoleRun.slots (x : RoleRun) : Option Nat × Option Nat × Option Nat × Option Nat := (x.limit, x.lockout, x.sequence, x.frost)

/-- The step whose outputs are claimed: the running step while the chain has a member (R63). -/
def State.claimingStep (s : State) : Option Nat := if s.seq.chain.isEmpty then none else s.seq.running.map (·.step)

theorem State.sequenceClaim_eq (s : State) (r : Nat) :
    s.sequenceClaim r = s.claimingStep.bind fun k => ((s.tables.step k).output r).claim := by
  unfold State.sequenceClaim State.claimingStep
  cases s.seq.running with
  | none => cases s.seq.chain.isEmpty <;> rfl
  | some x => cases s.seq.chain.isEmpty <;> rfl

/-- The slots stand, and so do the tables and the LIMIT input. -/
structure SlotsKept (s t : State) : Prop where
  phase : t.phase = s.phase
  tables : t.tables = s.tables
  limitClosed : t.pins.limitClosed = s.pins.limitClosed
  roles : ∀ r, (t.role r).slots = (s.role r).slots

/-- The circuits claim what they claimed (R105). -/
def SameStages (s t : State) : Prop := ∀ c, c < 6 → (t.circuit c).stage = (s.circuit c).stage ∧ (t.circuit c).blocked = (s.circuit c).blocked

/-- The chain and the lockout state claim what they claimed (R63, R116). -/
def SameSteps (s t : State) : Prop := t.claimingStep = s.claimingStep ∧ t.locked = s.locked

/-- Neither the slots nor what they are to hold is touched. -/
structure Untouched (s t : State) : Prop where
  slots : SlotsKept s t
  stages : SameStages s t
  steps : SameSteps s t

theorem untouched {s t : State} (phase : t.phase = s.phase) (tables : t.tables = s.tables)
    (limitClosed : t.pins.limitClosed = s.pins.limitClosed) (roles : t.roles = s.roles) (circuits : t.circuits = s.circuits)
    (chain : t.seq.chain = s.seq.chain) (running : t.seq.running = s.seq.running) (locked : t.locked = s.locked) : Untouched s t where
  slots := ⟨phase, tables, limitClosed, fun r => by rw [State.role, roles]; rfl⟩
  stages c _ := by
    rw [State.circuit, circuits]
    exact ⟨rfl, rfl⟩
  steps := ⟨by rw [State.claimingStep, chain, running]; rfl, locked⟩

theorem SlotsKept.trans {s t u : State} (h : SlotsKept s t) (g : SlotsKept t u) : SlotsKept s u where
  phase := g.phase.trans h.phase
  tables := g.tables.trans h.tables
  limitClosed := g.limitClosed.trans h.limitClosed
  roles r := (g.roles r).trans (h.roles r)

theorem SameStages.trans {s t u : State} (h : SameStages s t) (g : SameStages t u) : SameStages s u := fun c hc => by
  obtain ⟨stage, blocked⟩ := h c hc
  obtain ⟨stage', blocked'⟩ := g c hc
  exact ⟨stage'.trans stage, blocked'.trans blocked⟩

theorem SameSteps.trans {s t u : State} (h : SameSteps s t) (g : SameSteps t u) : SameSteps s u := by
  obtain ⟨step, locked⟩ := h
  obtain ⟨step', locked'⟩ := g
  exact ⟨step'.trans step, locked'.trans locked⟩

theorem Untouched.refl (s : State) : Untouched s s := untouched rfl rfl rfl rfl rfl rfl rfl rfl

theorem Untouched.trans {s t u : State} (h : Untouched s t) (g : Untouched t u) : Untouched s u :=
  ⟨h.slots.trans g.slots, h.stages.trans g.stages, h.steps.trans g.steps⟩

theorem SlotsKept.limitSlot {s t : State} (h : SlotsKept s t) (r : Nat) : t.limitSlot r = s.limitSlot r := by
  rw [State.limitSlot, h.limitClosed]
  rfl

theorem SameSteps.lockoutSlot {s t : State} (h : SameSteps s t) (r : Nat) : t.lockoutSlot r = s.lockoutSlot r := by
  obtain ⟨-, locked⟩ := h
  rw [State.lockoutSlot, locked]
  rfl

theorem SameSteps.sequenceClaim {s t : State} (h : SameSteps s t) (tables : t.tables = s.tables) (r : Nat) :
    t.sequenceClaim r = s.sequenceClaim r := by
  obtain ⟨step, -⟩ := h
  rw [State.sequenceClaim_eq, State.sequenceClaim_eq, step, tables]

theorem SameStages.frostClaim {s t : State} (h : SameStages s t) (tables : t.tables = s.tables) (r : Nat) :
    t.frostClaim r = s.frostClaim r := by
  have claim (c : Nat) (hc : c ∈ List.range 6) :
      circuitClaim (t.tables.circuit c) (t.circuit c) r = circuitClaim (s.tables.circuit c) (s.circuit c) r := by
    obtain ⟨stage, -⟩ := h c (List.mem_range.1 hc)
    rw [circuitClaim, tables, stage]
    rfl
  have any : t.anyBlocked = s.anyBlocked := by
    unfold State.anyBlocked
    rw [tables]
    rw [Bool.eq_iff_iff, List.any_eq_true, List.any_eq_true]
    refine exists_congr fun c => and_congr_right fun hc => ?_
    obtain ⟨-, blocked⟩ := h c (List.mem_range.1 hc)
    rw [blocked]
  unfold State.frostClaim
  rw [any]
  exact foldl_agree _ _ _ fun m c hc => by rw [claim c hc]

/-! ### Works that leave the claims in order, or note their hand-over -/

/-- From `w` to `w'` the slots stand, a change of what FROST claims is noted, and nothing noted is lost. An entry, which may find
its step refused and leave no step running, waits only in an event that hands the claims of the sequence over at its end. -/
structure Carries (w w' : Work) : Prop where
  slots : SlotsKept w.st w'.st
  frost : SameStages w.st w'.st ∨ .frostClaims ∈ w'.emitted
  emitted : ∀ a ∈ w.emitted, a ∈ w'.emitted
  queue : w'.queue = w.queue
  fins : .sequenceClaims ∈ w.fins → .sequenceClaims ∈ w'.fins
  entries : ∀ n, .enterEntry n ∈ w'.stack → .enterEntry n ∈ w.stack ∨ .sequenceClaims ∈ w'.fins
  fresh : ∀ n, .enterEntry n ∈ w'.fins ++ w'.emitted → .enterEntry n ∈ w.fins ++ w.emitted

/-- And a change of what SEQUENCE and LOCKOUT claim is noted as well. -/
structure Owes (w w' : Work) : Prop where
  carries : Carries w w'
  steps : SameSteps w.st w'.st ∨ .sequenceClaims ∈ w'.fins

theorem Carries.trans {u v w : Work} (h : Carries u v) (g : Carries v w) : Carries u w where
  slots := h.slots.trans g.slots
  frost := by
    rcases h.frost with stages | noted
    · exact g.frost.imp stages.trans id
    · exact .inr (g.emitted _ noted)
  emitted a ha := g.emitted a (h.emitted a ha)
  queue := g.queue.trans h.queue
  fins hf := g.fins (h.fins hf)
  entries n hn := by
    rcases g.entries n hn with before | noted
    · exact (h.entries n before).imp_right g.fins
    · exact .inr noted
  fresh n hn := h.fresh n (g.fresh n hn)

theorem Owes.trans {u v w : Work} (h : Owes u v) (g : Owes v w) : Owes u w where
  carries := h.carries.trans g.carries
  steps := by
    rcases h.steps with steps | noted
    · exact g.steps.imp steps.trans id
    · exact .inr (g.carries.fins noted)

theorem Carries.owes {v w : Work} (h : Carries v w) (noted : .sequenceClaims ∈ w.fins) : Owes v w := ⟨h, .inr noted⟩

theorem carries_withSt {w : Work} {t : State} (slots : SlotsKept w.st t) (stages : SameStages w.st t) : Carries w (w.withSt t) :=
  ⟨slots, .inl stages, fun _ h => h, rfl, id, fun _ h => .inl h, fun _ h => h⟩

theorem owes_withSt {w : Work} {t : State} (h : Untouched w.st t) : Owes w (w.withSt t) :=
  ⟨carries_withSt h.slots h.stages, .inl h.steps⟩

theorem Owes.refl (w : Work) : Owes w w := owes_withSt (Untouched.refl w.st)

theorem owes_push (w : Work) {l : List Act} (h : ∀ n, .enterEntry n ∉ l) : Owes w (w.push l) where
  carries := ⟨(Untouched.refl w.st).slots, .inl (Untouched.refl w.st).stages, fun _ h => h, rfl, id,
    fun n hn => .inl ((List.mem_append.1 hn).resolve_left (h n)), fun _ h => h⟩
  steps := .inl (Untouched.refl w.st).steps

/-- Where the claims are handed over anyway, an entry may wait. -/
theorem owes_push_noted {w : Work} (noted : .sequenceClaims ∈ w.fins) (l : List Act) : Owes w (w.push l) where
  carries := ⟨(Untouched.refl w.st).slots, .inl (Untouched.refl w.st).stages, fun _ h => h, rfl, id, fun _ _ => .inr noted, fun _ h => h⟩
  steps := .inr noted

theorem owes_emit (w : Work) {l : List Act} (h : ∀ n, .enterEntry n ∉ l) : Owes w (w.emit l) where
  carries := ⟨(Untouched.refl w.st).slots, .inl (Untouched.refl w.st).stages, fun _ ha => List.mem_append_left _ ha, rfl, id,
    fun _ hn => .inl hn, fun n hn => by
      rcases List.mem_append.1 hn with fin | emitted
      · exact List.mem_append_left _ fin
      · exact List.mem_append_right _ ((List.mem_append.1 emitted).resolve_right (h n))⟩
  steps := .inl (Untouched.refl w.st).steps

theorem Work.mem_fin (w : Work) (a : Act) : a ∈ (w.fin a).fins := List.mem_append_right _ (List.mem_singleton_self a)

theorem Work.mem_fins_fin (w : Work) (a b : Act) : b ∈ (w.fin a).fins ↔ b ∈ w.fins ∨ b = a := by
  by_cases e : b = a <;> simp [Work.fin, e]

theorem owes_fin (w : Work) {a : Act} (h : ∀ n, a ≠ .enterEntry n) : Owes w (w.fin a) where
  carries := ⟨(Untouched.refl w.st).slots, .inl (Untouched.refl w.st).stages, fun _ h => h, rfl,
    fun hf => (w.mem_fins_fin a _).2 (.inl hf), fun _ hn => .inl hn, fun n hn => by
      rcases List.mem_append.1 hn with fin | emitted
      · exact List.mem_append_left _ (((w.mem_fins_fin a _).1 fin).resolve_right fun e => h n e.symm)
      · exact List.mem_append_right _ emitted⟩
  steps := .inl (Untouched.refl w.st).steps

theorem owes_claims (w : Work) : Owes w (w.fin .sequenceClaims) := owes_fin w fun _ h => nomatch h

theorem owes_chainNotice (w : Work) (c : Option Cause) (k : SwitchKind) (n : Option Nat) : Owes w (w.fin (.chainNotice c k n)) :=
  owes_fin w fun _ h => nomatch h

/-- A hand-over of the claims at the end of the event pays for any change of the step before it. -/
theorem Carries.claimed {v w : Work} (h : Carries v w) : Owes v (w.fin .sequenceClaims) :=
  (h.trans (owes_claims w).carries).owes (w.mem_fin _)

/-! ### The trace, the flue, the circuits -/

theorem owes_setTrace (w : Work) (t : TraceUnit) : Owes w (w.setTrace t) := by
  have half (v : Work) (n : Nat) : Owes v (v.fin (.traceNotice n)) := owes_fin v fun _ h => nomatch h
  have start : Owes w (w.withSt (w.st.setTrace t)) := owes_withSt (untouched rfl rfl rfl rfl rfl rfl rfl rfl)
  unfold Work.setTrace
  dsimp only
  split
  · split
    · exact (start.trans (half _ 0)).trans (half _ 1)
    · exact start.trans (half _ 1)
  · split
    · exact start.trans (half _ 0)
    · exact start

theorem owes_trace (w : Work) (k : TraceKind) : Owes w (w.trace k) := by
  unfold Work.trace
  split
  · split
    · exact owes_setTrace w _
    · exact Owes.refl w
  · exact Owes.refl w

theorem owes_traceTop (w : Work) (n : Nat) : Owes w (w.traceTop n) := by
  unfold Work.traceTop
  split
  · have start (t : TraceUnit) : Owes w (w.withSt (w.st.setTrace t)) := owes_withSt (untouched rfl rfl rfl rfl rfl rfl rfl rfl)
    exact (start _).trans (owes_trace _ _)
  · exact Owes.refl w

theorem owes_traceFinish (w : Work) : Owes w w.traceFinish := by
  unfold Work.traceFinish
  split
  · split
    · dsimp only
      split
      · exact owes_withSt (untouched rfl rfl rfl rfl rfl rfl rfl rfl)
      · exact owes_setTrace w _
    · exact Owes.refl w
  · exact Owes.refl w

theorem owes_setFlue (w : Work) (f : FlueRun) : Owes w (w.setFlue f) := by
  have start : Owes w (w.withSt (w.st.setFlue f)) := owes_withSt (untouched rfl rfl rfl rfl rfl rfl rfl rfl)
  unfold Work.setFlue
  dsimp only
  split
  · exact start
  · exact start.trans (owes_emit _ fun n hn => nomatch List.mem_singleton.1 hn)

theorem owes_frostMoved (l : List Nat) (w : Work) : Owes w (w.frostMoved l) := by
  unfold Work.frostMoved
  induction l generalizing w with
  | nil => exact Owes.refl w
  | cons c l ih =>
    rw [List.foldl_cons]
    exact (owes_fin w (a := .frostNotice c) fun _ h => nomatch h).trans (ih _)

theorem claimsIfMoved_entries (moved : List Nat) (n : Nat) : .enterEntry n ∉ claimsIfMoved moved := by
  unfold claimsIfMoved
  split
  · exact fun h => nomatch h
  · exact fun h => nomatch List.mem_singleton.1 h

theorem sameStages_of_unmoved {s t : State} (h : (movedCircuits s t).isEmpty = true) : SameStages s t := fun c hc => by
  have still := List.filter_eq_nil_iff.1 (List.isEmpty_iff.1 h) c (List.mem_range.2 hc)
  rw [circuitMoved, Bool.or_eq_true, not_or, bne_iff_ne, bne_iff_ne, Classical.not_not, Classical.not_not] at still
  obtain ⟨stage, blocked⟩ := still
  exact ⟨stage.symm, blocked.symm⟩

/-- Circuits changed with the notes of what moved (R105, R110). -/
theorem carries_circuits {w : Work} {t : State} {acts : List Act} (slots : SlotsKept w.st t)
    (claims : ∀ a ∈ claimsIfMoved (movedCircuits w.st t), a ∈ acts) (entries : ∀ n, .enterEntry n ∉ acts) :
    Carries w (((w.withSt t).emit acts).frostMoved (movedCircuits w.st t)) := by
  have notices := owes_frostMoved (movedCircuits w.st t) ((w.withSt t).emit acts)
  refine Carries.trans (v := (w.withSt t).emit acts) ?_ notices.carries
  refine ⟨slots, ?_, fun _ ha => List.mem_append_left _ ha, rfl, id, fun _ hn => .inl hn, fun n hn => ?_⟩
  · by_cases unmoved : (movedCircuits w.st t).isEmpty = true
    · exact .inl (sameStages_of_unmoved unmoved)
    · refine .inr (List.mem_append_right _ (claims _ ?_))
      rw [claimsIfMoved, if_neg unmoved]
      exact List.mem_singleton_self _
  · rcases List.mem_append.1 hn with fin | emitted
    · exact List.mem_append_left _ fin
    · exact List.mem_append_right _ ((List.mem_append.1 emitted).resolve_right (entries n))

theorem owes_mapCircuits (f : CircuitEntry → CircuitRun → CircuitRun) (w : Work) : Owes w (mapCircuits f w) := by
  refine ⟨carries_circuits ⟨rfl, rfl, rfl, fun _ => rfl⟩ (fun _ h => h) (claimsIfMoved_entries _), .inl ?_⟩
  have st : (mapCircuits f w).st = w.st.mappedCircuits f := by
    unfold mapCircuits
    rw [Work.frostMoved_st]
    rfl
  rw [st]
  exact ⟨rfl, rfl⟩

end Sys2Proof.Machine
end

section
/-! SUPPORT. Every action but the two hand-overs of claims leaves the claims in order, or notes the hand-over that is due. -/

namespace Sys2Proof.Machine

theorem owes_foldl {α : Type} {f : Work → α → Work} (hf : ∀ w a, Owes w (f w a)) (l : List α) (w : Work) : Owes w (l.foldl f w) := by
  induction l generalizing w with
  | nil => exact Owes.refl w
  | cons a l ih => exact (hf w a).trans (ih (f w a))

/-- What follows the note of the hand-over is paid for by it. -/
theorem Carries.paid {u v w : Work} (h : Carries u v) (noted : .sequenceClaims ∈ v.fins) (g : Carries v w) : Owes u w :=
  (h.trans g).owes (g.fins noted)

theorem sameSteps_setRunning {s : State} {x y : Running} (h : s.seq.running = some x) (step : y.step = x.step) :
    SameSteps s (s.setRunning (some y)) := by
  refine ⟨?_, rfl⟩
  have e : (s.setRunning (some y)).claimingStep = if s.seq.chain.isEmpty then none else some y.step := rfl
  rw [e, State.claimingStep, h, step]
  rfl

/-- A running step that goes on claims what it claimed. -/
theorem owes_setRunning {w : Work} {x y : Running} (h : w.st.seq.running = some x) (step : y.step = x.step) :
    Owes w (w.withSt (w.st.setRunning (some y))) :=
  owes_withSt ⟨⟨rfl, rfl, rfl, fun _ => rfl⟩, fun _ _ => ⟨rfl, rfl⟩, sameSteps_setRunning h step⟩

/-- The Sequence Unit's record of chain and running step replaced, which a hand-over has yet to pay for. -/
theorem carries_seq (w : Work) {t : State} (h : t = { w.st with seq := t.seq }) : Carries w (w.withSt t) := by
  obtain ⟨u, e⟩ : ∃ u, t = { w.st with seq := u } := ⟨_, h⟩
  subst e
  exact carries_withSt ⟨rfl, rfl, rfl, fun _ => rfl⟩ fun _ _ => ⟨rfl, rfl⟩

/-! ### The chain (R86 to R90, R94) -/

theorem owes_leaveHead (w : Work) : Owes w (leaveHead w) := by
  unfold leaveHead
  split
  · exact ((carries_seq w rfl).trans (owes_mapCircuits _ _).carries).claimed
  · exact Owes.refl w

theorem carries_joinTop (n : Nat) (w : Work) : Carries w (joinTop n w) :=
  (((carries_seq w rfl).trans (owes_mapCircuits _ _).carries).trans (owes_traceTop _ n).carries).trans (owes_claims _).carries

theorem joinTop_noted (n : Nat) (w : Work) : .sequenceClaims ∈ (joinTop n w).fins := Work.mem_fin _ _

/-- A switch hands the claims over, whatever was done to the chain before it. -/
theorem Carries.switched {v w : Work} (h : Carries v w) (n : Nat) (c : Cause) (k : SwitchKind) :
    Owes v (((joinTop n w).fin (.chainNotice (some c) k (some n))).push (switchTail n)) := by
  have notice := owes_chainNotice (joinTop n w) (some c) k (some n)
  have noted := notice.carries.fins (joinTop_noted n w)
  exact (h.trans (carries_joinTop n w)).paid (joinTop_noted n w) (notice.trans (owes_push_noted noted _)).carries

theorem owes_doEnter (n : Nat) (c : Cause) (w : Work) : Owes w (doEnter n c w) := (owes_leaveHead w).carries.switched n c .enter

theorem carries_suspendTop (w : Work) : Carries w (suspendTop w) := by
  unfold suspendTop
  split
  · exact carries_seq w rfl
  · exact (Owes.refl w).carries

theorem owes_doCall (n : Nat) (c : Cause) (w : Work) : Owes w (doCall n c w) := by
  unfold doCall
  split
  · exact owes_doEnter n c w
  · exact (carries_suspendTop w).switched n c .call

theorem owes_chainEmptied (w : Work) : Owes w (chainEmptied w) :=
  ((((owes_setFlue w _).trans (owes_traceFinish _)).trans (owes_claims _)).trans (owes_chainNotice _ none .empty none)).trans
    (owes_push _ (by simp))

theorem owes_afterLeaving (w : Work) : Owes w (afterLeaving w) := by
  unfold afterLeaving
  split
  · exact owes_chainEmptied w
  · exact owes_push w (by simp)

theorem owes_replaceByStop (c : Cause) (l : Nat) (w : Work) : Owes w (replaceByStop c l w) := by
  unfold replaceByStop
  split
  · exact owes_doEnter _ c w
  · exact (owes_leaveHead w).trans (owes_afterLeaving _)

theorem carries_clearChain (w : Work) : Carries w (clearChain w) := by
  have discarded (v : Work) (n : Nat) : Owes v (v.withSt (v.st.discardSaved n)) :=
    owes_withSt (untouched rfl rfl rfl rfl rfl rfl rfl rfl)
  have left (v : Work) (n : Nat) : Owes v (reportLeft n (v.withSt (v.st.discardSaved n))) :=
    (discarded v n).trans (owes_mapCircuits _ _)
  exact ((owes_foldl left w.st.seq.chain w).carries.trans (carries_seq _ rfl)).trans (owes_claims _).carries

theorem clearChain_noted (w : Work) : .sequenceClaims ∈ (clearChain w).fins := Work.mem_fin _ _

theorem owes_updateTriggers (f : Nat → Trigger → Trigger) (w : Work) : Owes w (updateTriggers f w) := by
  have start (ts : List Trigger) : Owes w (w.withSt (w.st.setSeq { w.st.seq with triggers := ts })) :=
    owes_withSt (untouched rfl rfl rfl rfl rfl rfl rfl rfl)
  unfold updateTriggers
  dsimp only
  refine (start _).trans (owes_push _ fun n hn => ?_)
  rcases List.mem_append.1 hn with h | h
  all_goals
    split at h
    · exact nomatch List.mem_singleton.1 h
    · exact nomatch h

theorem owes_setTrigger (w : Work) (n : Nat) (t : Trigger) : Owes w (w.withSt (w.st.setTrigger n t)) :=
  owes_withSt (untouched rfl rfl rfl rfl rfl rfl rfl rfl)

theorem owes_setDemand (w : Work) (b : Bool) : Owes w (w.withSt (w.st.setSeq { w.st.seq with demand := b })) :=
  owes_withSt (untouched rfl rfl rfl rfl rfl rfl rfl rfl)

theorem owes_examineTriggers (w : Work) : Owes w (actExamineTriggers w) := by
  unfold actExamineTriggers
  split
  · split
    · split
      · exact (owes_setTrigger w _ _).trans (owes_doCall _ _ _)
      · exact (owes_setTrigger w _ _).trans (owes_push _ (by simp))
      · exact Owes.refl w
    · exact Owes.refl w
  · exact Owes.refl w

theorem owes_examineDemand (w : Work) : Owes w (actExamineDemand w) := by
  unfold actExamineDemand
  split
  · exact owes_doEnter _ _ w
  · exact Owes.refl w

theorem owes_clearDemand (absent : Bool) (w : Work) : Owes w (clearDemand absent w) := by
  have start := owes_setDemand w false
  unfold clearDemand
  dsimp only
  split
  · split
    · exact start.trans (owes_replaceByStop _ _ _)
    · split
      · exact start.trans (owes_replaceByStop _ _ _)
      · exact start
    · exact start
  · exact start

/-! ### The running step (R62 to R71) -/

theorem owes_applyArming (k : Nat) (w : Work) : Owes w (applyArming k w) := by
  unfold applyArming
  split
  · exact owes_setFlue w _
  · exact Owes.refl w

theorem owes_entryOutcome (n k : Nat) (w : Work) : Owes w (entryOutcome n k w) := by
  unfold entryOutcome
  split
  · exact owes_push w (by simp)
  · split
    · exact owes_push w (by simp)
    · exact Owes.refl w

theorem carries_startStep (n k : Nat) (w : Work) : Carries w (w.withSt (startStep n k w.st)) := by
  unfold startStep
  dsimp only
  split
  · exact carries_seq w rfl
  · exact carries_seq w rfl

theorem carries_applyAllowance (k : Nat) (w : Work) : Carries w (w.withSt (applyAllowance k w.st)) := by
  unfold applyAllowance
  split
  · exact carries_withSt ⟨rfl, rfl, rfl, fun _ => rfl⟩ fun _ _ => ⟨rfl, rfl⟩
  · exact (Owes.refl w).carries

theorem owes_stepEntry (k : Nat) (w : Work) : Owes w (actStepEntry k w) := by
  unfold actStepEntry
  split
  · next n _ =>
    refine ((carries_startStep n k w).trans (owes_claims _).carries).paid (Work.mem_fin _ _) ?_
    exact (((carries_applyAllowance k _).trans (owes_applyArming k _).carries).trans (owes_trace _ _).carries).trans
      (owes_entryOutcome n k _).carries
  · exact Owes.refl w

/-- An entry refused for a role that is not heard leaves no step running, within an event that hands the claims over. -/
theorem owes_enterEntry (n : Nat) {w : Work} (noted : .sequenceClaims ∈ w.fins) : Owes w (actEnterEntry n w) := by
  unfold actEnterEntry
  split
  · exact owes_push w (by simp)
  · exact ((carries_seq w rfl).trans (owes_push _ (by simp)).carries).owes noted

theorem owes_callRequest (m : Nat) (w : Work) : Owes w (actCallRequest m w) := by
  unfold actCallRequest
  split
  · split
    · exact owes_doCall _ _ w
    · exact owes_push w (by simp)
  · exact Owes.refl w

theorem owes_minMark (w : Work) : Owes w (actMinMark w) := by
  unfold actMinMark
  split
  · next x running =>
    have marked := owes_setRunning (w := w) (y := { x with markTaken := true }) running rfl
    dsimp only
    split
    · exact Owes.refl w
    · split
      · exact marked.trans (owes_push _ (by simp))
      · exact marked
  · exact Owes.refl w

theorem timeoutActs_entries (s : State) (n : Nat) (x : Running) (m : Nat) : .enterEntry m ∉ timeoutActs s n x := by
  unfold timeoutActs
  split <;> simp

theorem owes_maxExpiry (w : Work) : Owes w (actMaxExpiry w) := by
  unfold actMaxExpiry
  split
  · split
    · exact Owes.refl w
    · exact owes_push w (timeoutActs_entries _ _ _)
  · exact Owes.refl w

theorem owes_advance (w : Work) : Owes w (actAdvance w) := by
  unfold actAdvance
  split
  · next x running =>
    split
    · exact owes_push w (by simp)
    · exact owes_push w (by simp)
    · exact owes_setRunning running rfl
  · exact Owes.refl w

theorem owes_finishTop (w : Work) : Owes w (actFinishTop w) := by
  unfold actFinishTop
  split
  · next n _ =>
    have start : Owes w (w.withSt (w.st.setRecycle n 0)) := owes_withSt (untouched rfl rfl rfl rfl rfl rfl rfl rfl)
    exact (start.trans (owes_leaveHead _)).trans (owes_afterLeaving _)
  · exact Owes.refl w

theorem resumeActs_entries (s : State) (n : Nat) (x : Running) (m : Nat) : .enterEntry m ∉ resumeActs s n x := by
  unfold resumeActs
  repeat' split
  all_goals simp

theorem carries_resume (n : Nat) (c : Saved) (w : Work) : Carries w (resume n c w) := by
  unfold resume
  split
  · exact (owes_push w (by simp)).carries
  · exact ((carries_seq w rfl).trans (owes_trace _ _).carries).trans (owes_push _ (resumeActs_entries _ _ _)).carries

theorem owes_takeUp (w : Work) : Owes w (actTakeUp w) := by
  unfold actTakeUp
  split
  · next l _ =>
    split
    · exact owes_replaceByStop _ _ w
    · split
      · have discarded : Owes w (w.withSt (w.st.discardSaved l)) := owes_withSt (untouched rfl rfl rfl rfl rfl rfl rfl rfl)
        refine (discarded.trans (owes_claims _)).carries.paid (Work.mem_fin _ _) ?_
        exact (((owes_chainNotice _ none .ret (some l)).trans (owes_traceTop _ l)).trans (owes_push _ (by simp))).carries.trans
          (carries_resume l _ _)
      · exact Owes.refl w
  · exact Owes.refl w

theorem faultTop_entries (w : Work) (n : Nat) : .enterEntry n ∉ faultTop w := by
  unfold faultTop
  split <;> simp

theorem owes_handoff (set : List (Nat × Tri)) (w : Work) : Owes w (actHandoff set w) := by
  unfold actHandoff
  split
  · split
    · exact owes_push w fun n hn => (List.mem_append.1 hn).elim (faultTop_entries w n) (by simp)
    · split
      · exact owes_push w (by simp)
      · exact owes_push w (by simp)
  · exact owes_push w (by simp)

/-! ### Faults (R142 to R147) -/

theorem owes_noteFault (w : Work) (r : FaultRecord) : Owes w (w.withSt (w.st.noteFault r)) :=
  owes_withSt (untouched rfl rfl rfl rfl rfl rfl rfl rfl)

theorem owes_setRecycle (w : Work) (n k : Nat) : Owes w (w.withSt (w.st.setRecycle n k)) :=
  owes_withSt (untouched rfl rfl rfl rfl rfl rfl rfl rfl)

theorem carries_teardown (w : Work) : Carries w (teardown w) :=
  (((carries_clearChain w).trans (carries_seq _ rfl)).trans (owes_setFlue _ _).carries).trans (owes_traceFinish _).carries

theorem teardown_noted (w : Work) : .sequenceClaims ∈ (teardown w).fins :=
  (((carries_seq (clearChain w) rfl).trans (owes_setFlue _ _).carries).trans (owes_traceFinish _).carries).fins (clearChain_noted w)

theorem owes_enterPurge (w : Work) : Owes w (enterPurge w) := by
  unfold enterPurge
  split
  · exact owes_doEnter _ _ w
  · exact owes_withSt (untouched rfl rfl rfl rfl rfl rfl rfl rfl)
  · exact Owes.refl w

theorem owes_lockOut (f : FaultIn) (mark : Bool) (w : Work) : Owes w (lockOut f mark w) := by
  obtain ⟨r, hr⟩ : ∃ r, r = w.st.faultRecord f .lockout .lockedOut mark := ⟨_, rfl⟩
  have locked : Carries w (w.withSt ((w.st.setData (w.st.fault.data.lock r)).noteFault r)) :=
    carries_withSt ⟨rfl, rfl, rfl, fun _ => rfl⟩ fun _ _ => ⟨rfl, rfl⟩
  unfold lockOut
  rw [← hr]
  refine (locked.trans (carries_teardown _)).paid (teardown_noted _) ?_
  have asked (v : Work) : Owes v (v.withSt v.st.raiseLockout.requestPersist) :=
    owes_withSt (untouched rfl rfl rfl rfl rfl rfl rfl rfl)
  exact (((owes_mapCircuits _ _).trans (asked _)).trans (owes_enterPurge _)).carries

theorem owes_recycle (f : FaultIn) (n : Nat) (w : Work) : Owes w (recycle f n w) := by
  have counted := owes_setRecycle w n ((w.st.seqRun n).recycle + 1)
  unfold recycle
  dsimp only
  split
  · exact counted.trans (owes_lockOut f true _)
  · split
    · exact (counted.trans (owes_noteFault _ _)).trans (owes_doEnter _ _ _)
    · exact counted.trans (owes_lockOut f false _)

theorem owes_faultUnlocked (f : FaultIn) (w : Work) : Owes w (faultUnlocked f w) := by
  unfold faultUnlocked
  split
  · exact owes_noteFault w _
  · exact owes_recycle f _ w
  · exact owes_lockOut f false w
  · exact owes_lockOut f false w

theorem owes_endPurge (w : Work) : Owes w (endPurge w) := by
  unfold endPurge
  split
  · exact Owes.refl w
  · exact (carries_clearChain w).paid (clearChain_noted w) (owes_chainEmptied _).carries

theorem recordSecond_untouched (code : Nat) (s : State) : Untouched s (recordSecond code s) := by
  unfold recordSecond
  split
  · exact untouched rfl rfl rfl rfl rfl rfl rfl rfl
  · exact Untouched.refl s

theorem owes_takeFault (f : FaultIn) (w : Work) : Owes w (actTakeFault f w) := by
  have traced := owes_trace w (.fault f.code)
  unfold actTakeFault
  dsimp only
  split
  · have purged := owes_endPurge (w.trace (.fault f.code))
    have second (v : Work) : Owes v (v.withSt (recordSecond f.code v.st)) := owes_withSt (recordSecond_untouched f.code v.st)
    exact ((traced.trans purged).trans (second _)).trans (owes_noteFault _ _)
  · exact traced.trans (owes_faultUnlocked f _)

theorem owes_commitSequence (w : Work) : Owes w (actCommitSequence w) := by
  have examined : Owes w (w.push [.examineTriggers, .examineDemand]) := owes_push w (by simp)
  have undue (v : Work) : Owes v (v.withSt (v.st.setSeq { v.st.seq with purgeDue := false })) :=
    owes_withSt (untouched rfl rfl rfl rfl rfl rfl rfl rfl)
  unfold actCommitSequence
  dsimp only
  split
  · exact (examined.trans (undue _)).trans (owes_enterPurge _)
  · exact examined

end Sys2Proof.Machine
end

section
/-! SUPPORT. The claims through a cascade: whatever is due is handed over before the cascade ends. -/

namespace Sys2Proof.Machine

/-! ### The actions of the other units -/

theorem mem_arrange {o : HandoffOrder} {x y z : List Act} {a : Act} (h : a ∈ arrange o x y z) : a ∈ x ∨ a ∈ y ∨ a ∈ z := by
  unfold arrange at h
  cases o
  all_goals
    simp only [List.mem_append] at h
    grind

theorem arrange_entries {o : HandoffOrder} {x y z : List Act} (hx : ∀ n, .enterEntry n ∉ x) (hy : ∀ n, .enterEntry n ∉ y)
    (hz : ∀ n, .enterEntry n ∉ z) (n : Nat) : .enterEntry n ∉ arrange o x y z := fun h => by
  rcases mem_arrange h with h | h | h
  · exact hx n h
  · exact hy n h
  · exact hz n h

theorem entries_ite {p : Prop} [Decidable p] {a : Act} (h : ∀ n, a ≠ .enterEntry n) (n : Nat) :
    .enterEntry n ∉ (if p then [a] else []) := by
  split
  · exact fun k => h n (List.mem_singleton.1 k).symm
  · exact fun k => nomatch k

theorem owes_setPoint (w : Work) (p : Nat) (x : PointRun) : Owes w (w.withSt (w.st.setPoint p x)) :=
  owes_withSt (untouched rfl rfl rfl rfl rfl rfl rfl rfl)

theorem owes_readAt (p c : Nat) (w : Work) : Owes w (readAt p c w) :=
  (owes_setPoint w p _).trans (owes_emit _ (arrange_entries (entries_ite fun _ h => nomatch h) (entries_ite fun _ h => nomatch h)
    (entries_ite fun _ h => nomatch h)))

theorem owes_reading (source channel code : Nat) (w : Work) : Owes w (actReading source channel code w) := by
  unfold actReading
  split
  · split
    · exact owes_readAt _ _ w
    · exact Owes.refl w
  · exact Owes.refl w

theorem owes_ageMark (w : Work) : Owes w (actAgeMark w) := by
  unfold actAgeMark
  split
  · refine owes_foldl (fun w p => ?_) _ w
    unfold agePoint
    split
    · exact (owes_setPoint w p _).trans (owes_emit _ (arrange_entries (entries_ite fun _ h => nomatch h)
        (entries_ite fun _ h => nomatch h) fun _ h => nomatch h))
    · exact Owes.refl w
  · exact Owes.refl w

theorem owes_condWalk (i : CondInput) (w : Work) : Owes w (actCondWalk i w) := by
  have walked : Owes w (w.withSt (w.st.walkedFrom i)) := by
    obtain ⟨conds, e⟩ : ∃ conds, w.st.walkedFrom i = { w.st with conds := conds } := ⟨_, w.st.walkedFrom_eq i⟩
    rw [e]
    exact owes_withSt (untouched rfl rfl rfl rfl rfl rfl rfl rfl)
  unfold actCondWalk
  split
  · dsimp only
    split
    · exact walked
    · exact walked.trans (owes_emit _ fun n h => nomatch List.mem_singleton.1 h)
  · exact Owes.refl w

theorem owes_flueInput (p : Nat) (x : Option Int) (w : Work) : Owes w (actFlueInput p x w) := by
  unfold actFlueInput
  split
  · exact owes_setFlue w _
  · exact Owes.refl w

theorem owes_traceSample (p : Nat) (v : Int) (w : Work) : Owes w (actTraceSample p v w) := by
  unfold actTraceSample
  split
  · exact owes_trace w _
  · exact Owes.refl w

/-- A role's runtime replaced by one with the same slots. -/
theorem untouched_setRole {s : State} {r : Nat} {x : RoleRun} (h : x.slots = (s.role r).slots) : Untouched s (s.setRole r x) where
  slots := ⟨rfl, rfl, rfl, fun q => by
    have e : (s.setRole r x).role q = (s.roles.set r x).getD q RoleRun.reset := rfl
    rw [e, getD_set]
    split
    · next at_r =>
      obtain ⟨rfl, -⟩ := at_r
      exact h
    · rfl⟩
  stages _ _ := ⟨rfl, rfl⟩
  steps := ⟨rfl, rfl⟩

theorem owes_roleState (r level : Nat) (w : Work) : Owes w (actRoleState r level w) := by
  unfold actRoleState
  split
  · exact (owes_withSt (untouched_setRole (by exact rfl))).trans (owes_emit _ fun n h => nomatch List.mem_singleton.1 h)
  · exact Owes.refl w

theorem owes_raiseNotice (w : Work) (k : NoticeKind) (x : List Byte) : Owes w (w.withSt (w.st.raiseNotice k x)) :=
  owes_withSt (untouched rfl rfl rfl rfl rfl rfl rfl rfl)

/-- Every action but the two hand-overs themselves; an entry within an event that hands the claims over. -/
theorem act_owes {a : Act} {w : Work} (frost : a ≠ .frostClaims) (sequence : a ≠ .sequenceClaims)
    (entry : ∀ n, a = .enterEntry n → .sequenceClaims ∈ w.fins) : Owes w (act a w) := by
  cases a with
  | reading source channel code => exact owes_reading source channel code w
  | ageMark => exact owes_ageMark w
  | condWalk i => exact owes_condWalk i w
  | flueInput p x => exact owes_flueInput p x w
  | traceSample p v => exact owes_traceSample p v w
  | roleState r level => exact owes_roleState r level w
  | handoff set => exact owes_handoff set w
  | applyTriggers set => exact owes_updateTriggers _ w
  | frostHandoff adds removes => exact owes_updateTriggers _ w
  | minMark => exact owes_minMark w
  | maxExpiry => exact owes_maxExpiry w
  | advance => exact owes_advance w
  | enterEntry n => exact owes_enterEntry n (entry n rfl)
  | stepEntry k => exact owes_stepEntry k w
  | callRequest m => exact owes_callRequest m w
  | finishTop => exact owes_finishTop w
  | takeUp => exact owes_takeUp w
  | examineTriggers => exact owes_examineTriggers w
  | examineDemand => exact owes_examineDemand w
  | absenceStart => exact owes_clearDemand true w
  | commitSequence => exact owes_commitSequence w
  | takeFault f => exact owes_takeFault f w
  | frostClaims => exact absurd rfl frost
  | sequenceClaims => exact absurd rfl sequence
  | frostNotice c => exact owes_raiseNotice w _ _
  | chainNotice c k n => exact owes_raiseNotice w _ _
  | traceNotice half => exact owes_raiseNotice w _ _

/-! ### What a cascade owes -/

/-- The slots of the roles hold what is claimed, but for the hand-overs that the work still has to make, the action `a` that has
just been taken among them. -/
structure Due (a : Option Act) (w : Work) : Prop where
  sized : w.st.sized
  limit : w.st.phase = .normal → ∀ r, r < 12 → (w.st.role r).limit = w.st.limitSlot r
  frost : w.st.phase = .normal → (∀ r, r < 12 → (w.st.role r).frost = w.st.frostClaim r) ∨ a = some .frostClaims ∨
    .frostClaims ∈ w.emitted ++ w.queue
  sequence : w.st.phase = .normal → (∀ r, r < 12 → (w.st.role r).lockout = w.st.lockoutSlot r ∧
    (w.st.role r).sequence = w.st.sequenceClaim r) ∨ a = some .sequenceClaims ∨ .sequenceClaims ∈ w.fins
  entries : ∀ n, .enterEntry n ∈ w.stack ∨ a = some (.enterEntry n) → .sequenceClaims ∈ w.fins
  others : ∀ n, .enterEntry n ∉ w.fins ++ w.emitted ++ w.queue

theorem Due.take {w w' : Work} {a : Act} (h : Due none w) (taken : w.take = some (a, w')) : Due (some a) w' := by
  obtain ⟨sized, limit, frost, sequence, entries, others⟩ := h
  have waits (p : Act) (pending : p ∈ w.emitted ++ w.queue) (l : List Act) (e : w.emitted ++ w.queue = a :: l) :
      a = p ∨ p ∈ l := by
    rw [e] at pending
    exact (List.mem_cons.1 pending).imp Eq.symm id
  unfold Work.take at taken
  cases stack : w.stack with
  | cons b rest =>
    rw [stack] at taken
    cases taken
    refine ⟨sized, limit, fun n => (frost n).imp id fun k => .inr (k.resolve_left nofun),
      fun n => (sequence n).imp id fun k => .inr (k.resolve_left nofun), fun n hn => entries n (.inl ?_), others⟩
    rw [stack]
    rcases hn with below | first
    · exact List.mem_cons_of_mem _ below
    · cases first
      exact List.mem_cons_self
  | nil =>
    cases fins : w.fins with
    | cons b rest =>
      rw [stack, fins] at taken
      cases taken
      refine ⟨sized, limit, fun n => (frost n).imp id fun k => .inr (k.resolve_left nofun), fun n => (sequence n).imp id fun k => ?_,
        fun n hn => ?_, fun n hn => others n ?_⟩
      · have due := k.resolve_left nofun
        rw [fins] at due
        exact (List.mem_cons.1 due).imp (fun e => by rw [e]) id
      · rcases hn with below | first
        · cases below
        · cases first
          exact absurd (List.mem_append_left _ (List.mem_append_left _ (by rw [fins]; exact List.mem_cons_self))) (others n)
      · rw [fins]
        exact List.mem_cons_of_mem _ hn
    | nil =>
      cases queue : w.emitted ++ w.queue with
      | nil =>
        rw [stack, fins] at taken
        dsimp only at taken
        rw [queue] at taken
        cases taken
      | cons b rest =>
        rw [stack, fins] at taken
        dsimp only at taken
        rw [queue] at taken
        cases taken
        rw [fins, List.nil_append, queue] at others
        refine ⟨sized, limit, fun n => (frost n).imp id fun k => ?_, fun n => (sequence n).imp id fun k => ?_, fun n hn => ?_,
          fun n hn => others n (List.mem_cons_of_mem _ hn)⟩
        · exact (waits _ (k.resolve_left nofun) rest queue).imp (fun e => by rw [e]) id
        · have due := k.resolve_left nofun
          rw [fins] at due
          cases due
        · rcases hn with below | first
          · cases below
          · cases first
            exact absurd List.mem_cons_self (others n)

/-- A work that leaves the claims in order keeps what is due. -/
theorem Due.owes {a : Option Act} {v w : Work} (h : Due a v) (g : Owes v w) (frost : a ≠ some .frostClaims)
    (sequence : a ≠ some .sequenceClaims) (sized : w.st.sized) : Due none w := by
  obtain ⟨-, limit, frosts, sequences, entries, others⟩ := h
  obtain ⟨⟨slots, stages, emitted, queue, fins, stack, fresh⟩, steps⟩ := g
  have role (r : Nat) : (w.st.role r).limit = (v.st.role r).limit ∧ (w.st.role r).lockout = (v.st.role r).lockout ∧
      (w.st.role r).sequence = (v.st.role r).sequence ∧ (w.st.role r).frost = (v.st.role r).frost := by
    have e := slots.roles r
    unfold RoleRun.slots at e
    simpa only [Prod.mk.injEq] using e
  have normal (k : w.st.phase = .normal) : v.st.phase = .normal := slots.phase ▸ k
  have late {p : Act} (k : p ∈ v.emitted ++ v.queue) : p ∈ w.emitted ++ w.queue := by
    rw [queue]
    rcases List.mem_append.1 k with k | k
    · exact List.mem_append_left _ (emitted p k)
    · exact List.mem_append_right _ k
  refine ⟨sized, fun k r hr => ?_, fun k => ?_, fun k => ?_, fun n hn => ?_, fun n hn => ?_⟩
  · obtain ⟨same, -⟩ := role r
    rw [same, limit (normal k) r hr, slots.limitSlot]
  · rcases frosts (normal k) with hold | taken | due
    · rcases stages with stages | noted
      · refine .inl fun r hr => ?_
        obtain ⟨-, -, -, same⟩ := role r
        rw [same, hold r hr, stages.frostClaim slots.tables]
      · exact .inr (.inr (List.mem_append_left _ noted))
    · exact absurd taken frost
    · exact .inr (.inr (late due))
  · rcases sequences (normal k) with hold | taken | due
    · rcases steps with steps | noted
      · refine .inl fun r hr => ?_
        obtain ⟨-, lockout, same, -⟩ := role r
        obtain ⟨held, claimed⟩ := hold r hr
        rw [lockout, same, held, claimed, steps.lockoutSlot, steps.sequenceClaim slots.tables]
        exact ⟨rfl, rfl⟩
      · exact .inr (.inr noted)
    · exact absurd taken sequence
    · exact .inr (.inr (fins due))
  · rcases stack n (hn.resolve_right nofun) with before | noted
    · exact fins (entries n (.inl before))
    · exact noted
  · rw [queue] at hn
    rcases List.mem_append.1 hn with k | k
    · exact others n (List.mem_append_left _ (fresh n k))
    · exact others n (List.mem_append_right _ k)

/-! ### The two hand-overs (R63, R94, R105) -/

theorem applied_sames (s : State) (f : Nat → RoleRun → RoleRun) (l : List Nat) : SameStages s (s.appliedSlots f l) ∧
    SameSteps s (s.appliedSlots f l) ∧ (s.appliedSlots f l).phase = s.phase ∧ (s.appliedSlots f l).tables = s.tables ∧
    (s.appliedSlots f l).pins = s.pins := by
  have e := State.appliedSlots_eq s f l
  generalize s.appliedSlots f l = t at e
  generalize t.roles = a at e
  generalize t.lines = b at e
  generalize t.gate.slots = c at e
  subst e
  exact ⟨fun _ _ => ⟨rfl, rfl⟩, ⟨rfl, rfl⟩, rfl, rfl, rfl⟩

theorem movesApplied_entries (s : State) (f : Nat → RoleRun → RoleRun) (n : Nat) :
    .enterEntry n ∉ ((List.range 12).filter (s.movesApplied f)).map fun r => Act.condWalk (.role r) := fun h => by
  obtain ⟨r, -, e⟩ := List.mem_map.1 h
  cases e

/-- A change of the claim slots of all roles: each role holds what `f` gives it, and every other claim is as due as it was. -/
theorem due_applied {w : Work} (sized : w.st.sized) (entries : ∀ n, .enterEntry n ∈ w.stack → .sequenceClaims ∈ w.fins)
    (others : ∀ n, .enterEntry n ∉ w.fins ++ w.emitted ++ w.queue) (f : Nat → RoleRun → RoleRun)
    (limit : w.st.phase = .normal → ∀ r, r < 12 → (f r (w.st.role r)).limit = w.st.limitSlot r)
    (frost : w.st.phase = .normal → (∀ r, r < 12 → (f r (w.st.role r)).frost = w.st.frostClaim r) ∨ .frostClaims ∈ w.emitted ++ w.queue)
    (sequence : w.st.phase = .normal → (∀ r, r < 12 → (f r (w.st.role r)).lockout = w.st.lockoutSlot r ∧
      (f r (w.st.role r)).sequence = w.st.sequenceClaim r) ∨ .sequenceClaims ∈ w.fins) : Due none (applySlots f w) := by
  have claims {r : Nat} (hr : r < 12) := State.appliedSlot_claims sized f hr
  have sized' := State.appliedSlots_sized sized f (List.range 12)
  obtain ⟨stages, steps, phase, tables, pins⟩ := applied_sames w.st f (List.range 12)
  have walks := movesApplied_entries w.st f
  rw [applySlots_eq f sized]
  generalize w.st.appliedSlots f (List.range 12) = t at *
  generalize ((List.range 12).filter (w.st.movesApplied f)).map (fun r => Act.condWalk (.role r)) = acts at *
  have input (r : Nat) : t.limitSlot r = w.st.limitSlot r := by
    rw [State.limitSlot, pins]
    rfl
  refine ⟨sized', fun k r hr => ?_, fun k => (frost (phase ▸ k)).imp (fun hold r hr => ?_) fun due => .inr ?_,
    fun k => (sequence (phase ▸ k)).imp (fun hold r hr => ?_) .inr, fun n hn => entries n (hn.resolve_right nofun), fun n hn => ?_⟩
  · obtain ⟨same, -⟩ := claims hr
    exact same.trans ((limit (phase ▸ k) r hr).trans (input r).symm)
  · obtain ⟨-, -, -, same⟩ := claims hr
    exact same.trans ((hold r hr).trans (stages.frostClaim tables r).symm)
  · rcases List.mem_append.1 due with due | due
    · exact List.mem_append_left _ (List.mem_append_left _ due)
    · exact List.mem_append_right _ due
  · obtain ⟨-, lockout, same, -⟩ := claims hr
    obtain ⟨held, claimed⟩ := hold r hr
    exact ⟨lockout.trans (held.trans (steps.lockoutSlot r).symm), same.trans (claimed.trans (steps.sequenceClaim tables r).symm)⟩
  · simp only [Work.emit, Work.withSt, List.mem_append] at hn
    have away := others n
    simp only [List.mem_append] at away
    rcases hn with (fin | emitted | walk) | queue
    · exact away (.inl (.inl fin))
    · exact away (.inl (.inr emitted))
    · exact walks n walk
    · exact away (.inr queue)

theorem Due.frostClaims {w : Work} (h : Due (some .frostClaims) w) : Due none (act .frostClaims w) := by
  have e : act .frostClaims w = actFrostClaims w := rfl
  rw [e, actFrostClaims]
  split
  · exact due_applied h.sized (fun n hn => h.entries n (.inl hn)) h.others _ h.limit (fun _ => .inl fun r _ => rfl) fun k => (h.sequence k).imp id fun due => due.resolve_left nofun
  · next off =>
    have never (k : w.st.phase = .normal) : False := off (State.normal_of_phase k)
    exact ⟨h.sized, h.limit, fun k => (never k).elim, fun k => (never k).elim, fun n hn => h.entries n (.inl (hn.resolve_right nofun)), h.others⟩

theorem Due.sequenceClaims {w : Work} (h : Due (some .sequenceClaims) w) : Due none (act .sequenceClaims w) := by
  have e : act .sequenceClaims w = actSequenceClaims w := rfl
  rw [e, actSequenceClaims]
  split
  · exact due_applied h.sized (fun n hn => h.entries n (.inl hn)) h.others _ h.limit (fun k => (h.frost k).imp id fun due => due.resolve_left nofun) fun _ => .inl fun r _ => ⟨rfl, rfl⟩
  · next off =>
    have never (k : w.st.phase = .normal) : False := off (State.normal_of_phase k)
    exact ⟨h.sized, h.limit, fun k => (never k).elim, fun k => (never k).elim, fun n hn => h.entries n (.inl (hn.resolve_right nofun)), h.others⟩

/-! ### The cascade -/

theorem Due.act {a : Act} {w : Work} (h : Due (some a) w) : Due none (act a w) := by
  by_cases frost : a = .frostClaims
  · subst frost
    exact h.frostClaims
  by_cases sequence : a = .sequenceClaims
  · subst sequence
    exact h.sequenceClaims
  have entry (n : Nat) (e : a = .enterEntry n) : .sequenceClaims ∈ w.fins := h.entries n (.inr (by rw [e]))
  exact h.owes (act_owes frost sequence entry) (fun e => frost (Option.some.inj e)) (fun e => sequence (Option.some.inj e))
    ((act_moves a w).keeps Move.sized h.sized)

theorem Work.empty_of_take {w : Work} (h : w.take = none) : w.fins = [] ∧ w.emitted ++ w.queue = [] := by
  unfold Work.take at h
  split at h
  · cases h
  · split at h
    · cases h
    · next fins =>
      split at h
      · cases h
      · next waits => exact ⟨fins, waits⟩

theorem runWork_due {n : Nat} {w : Work} {s : State} (h : Due none w) (run : runWork n w = some s) : s.slotsLaw := by
  have ended {w : Work} (h : Due none w) (idle : w.take = none) : w.st.slotsLaw := fun normal r hr => by
    obtain ⟨-, limit, frost, sequence, -, -⟩ := h
    obtain ⟨fins, waits⟩ := Work.empty_of_take idle
    rw [fins] at sequence
    rw [waits] at frost
    have frosted := (frost normal).resolve_right fun k => k.elim nofun nofun
    have claimed := (sequence normal).resolve_right fun k => k.elim nofun nofun
    obtain ⟨lockout, step⟩ := claimed r hr
    exact ⟨limit normal r hr, lockout, step, frosted r hr⟩
  induction n generalizing w with
  | zero =>
    cases taken : w.take with
    | none =>
      rw [runWork_done 0 taken] at run
      cases run
      exact ended h taken
    | some p =>
      rw [runWork, taken] at run
      cases run
  | succ n ih =>
    cases taken : w.take with
    | none =>
      rw [runWork_done (n + 1) taken] at run
      cases run
      exact ended h taken
    | some p =>
      obtain ⟨a, w'⟩ := p
      rw [runWork_take n taken] at run
      exact ih (h.take taken).act run

theorem Untouched.slotsLaw {s t : State} (h : Untouched s t) (law : s.slotsLaw) : t.slotsLaw := fun normal r hr => by
  obtain ⟨limit, lockout, sequence, frost⟩ := law (h.slots.phase ▸ normal) r hr
  have e := h.slots.roles r
  simp only [RoleRun.slots, Prod.mk.injEq] at e
  obtain ⟨a, b, c, d⟩ := e
  rw [a, b, c, d, limit, lockout, sequence, frost, h.slots.limitSlot, h.steps.lockoutSlot, h.steps.sequenceClaim h.slots.tables,
    h.stages.frostClaim h.slots.tables]
  exact ⟨rfl, rfl, rfl, rfl⟩

theorem arbitrate_untouched (s : State) : Untouched s s.arbitrate := by
  have e := s.arbitrate_frame
  generalize s.arbitrate = t at e
  generalize t.gate = g at e
  generalize t.ctlPort.hand = c at e
  generalize t.fieldPort.hand = f at e
  subst e
  exact untouched rfl rfl rfl rfl rfl rfl rfl rfl

theorem finish_due {w : Work} {t : State} (h : Due none w) (run : finish w = .next t) : t.slotsLaw := by
  unfold finish at run
  cases ran : runWork Config.cascadeLimit w with
  | none =>
    rw [ran] at run
    cases run
  | some s =>
    rw [ran] at run
    cases run
    exact (arbitrate_untouched s).slotsLaw (runWork_due h ran)

end Sys2Proof.Machine
end

section
/-! SUPPORT. The claims at the start of each command: ports, the gate and its frames. -/

namespace Sys2Proof.Machine

/-! ### Changes of a state that no claim sees -/

theorem untouched_setGate (s : State) (g : Gate) : Untouched s (s.setGate g) := untouched rfl rfl rfl rfl rfl rfl rfl rfl

theorem untouched_setPort (s : State) (p : Port) (x : PortState) : Untouched s (s.setPort p x) := by
  cases p
  all_goals exact untouched rfl rfl rfl rfl rfl rfl rfl rfl

theorem untouched_setLine (s : State) (l : Nat) (x : LineRun) : Untouched s (s.setLine l x) := untouched rfl rfl rfl rfl rfl rfl rfl rfl

theorem untouched_setSlot (s : State) (r : Nat) (x : Option Slot) : Untouched s (s.setSlot r x) :=
  untouched rfl rfl rfl rfl rfl rfl rfl rfl

theorem untouched_setPins (s : State) (p : Pins) (h : p.limitClosed = s.pins.limitClosed) : Untouched s (s.setPins p) :=
  untouched rfl rfl h rfl rfl rfl rfl rfl

theorem untouched_clearSent (s : State) (t : HandTag) : Untouched s (s.clearSent t) := by
  unfold State.clearSent
  split
  · split
    · exact untouched_setSlot s _ _
    · exact Untouched.refl s
  · dsimp only
    split
    · exact (untouched_setGate s _).trans (untouched_setGate _ _)
    · exact untouched_setGate s _
  · exact Untouched.refl s
  · exact Untouched.refl s

theorem untouched_frameSent (s : State) (p : Port) : Untouched s (s.frameSent p) := by
  unfold State.frameSent
  split
  · split
    · exact (untouched_setPort s p _).trans (untouched_clearSent _ _)
    · exact Untouched.refl s
  · exact Untouched.refl s

theorem untouched_transmitStart (s : State) (p : Port) : Untouched s (s.transmitStart p) := by
  unfold State.transmitStart
  dsimp only
  split
  · exact untouched_setPort s p _
  · exact Untouched.refl s

theorem untouched_quiet (s : State) (p : Port) : Untouched s (s.quiet p) := by
  unfold State.quiet
  split
  · exact untouched_setPort s p _
  · exact Untouched.refl s

theorem untouched_discardFrame (s : State) (p : Port) (bytes : List Byte) (ending : ReceptionEnd) :
    Untouched s (s.discardFrame p bytes ending) := by
  unfold State.discardFrame
  split
  · exact untouched_setPort s p _
  · exact Untouched.refl s

theorem untouched_seeSource (s : State) (src : Byte) : Untouched s (s.seeSource src) := by
  unfold State.seeSource
  split
  · exact untouched_setGate s _
  · exact Untouched.refl s

theorem untouched_raiseDrive (s : State) (reason : Nat) (node : Option Nat) (setting : Option (Nat × Nat)) (role : Option Nat) :
    Untouched s (s.raiseDrive reason node setting role) := untouched rfl rfl rfl rfl rfl rfl rfl rfl

theorem untouched_recordLast (s : State) (r v : Nat) : Untouched s (s.recordLast r v) := by
  unfold State.recordLast
  split
  · exact untouched_setSlot s r _
  · exact Untouched.refl s

theorem untouched_placeSub (s : State) (r v : Nat) : Untouched s (s.placeSub r v) := by
  unfold State.placeSub
  split
  · exact untouched_setSlot s r _
  · exact Untouched.refl s

theorem untouched_linkReset (s : State) : Untouched s s.linkReset := untouched rfl rfl rfl rfl rfl rfl rfl rfl

/-- A role whose slots are asked to stand keeps them, whatever becomes of its owner and its target (R117). -/
theorem untouched_changedRole {s : State} (carried : Bool) {r : Nat} {x : RoleRun} (h : x.slots = (s.role r).slots) :
    Untouched s (s.changedRole carried r x) := by
  have roles (q : Nat) : ((s.changedRole carried r x).role q).slots = (s.role q).slots := by
    rcases Nat.lt_or_ge r s.roles.length with hr | hr
    · rw [State.changedRole_role s carried x hr]
      split
      · next same =>
        have kept := s.actedRole_claims carried r x
        rw [same, ← h, RoleRun.slots, kept.limit, kept.lockout, kept.sequence, kept.frost]
        rfl
      · rfl
    · rw [State.role, State.changedRole_roles_of_ge s carried x hr]
      rfl
  have e := State.changedRole_eq s carried r x
  generalize s.changedRole carried r x = t at e roles
  have frame : t.phase = s.phase ∧ t.tables = s.tables ∧ t.pins = s.pins ∧ t.circuits = s.circuits ∧ t.seq = s.seq ∧ t.fault = s.fault := by
    rw [e]
    exact ⟨rfl, rfl, rfl, rfl, rfl, rfl⟩
  obtain ⟨phase, tables, pins, circuits, seq, fault⟩ := frame
  exact {
    slots := ⟨phase, tables, by rw [pins], roles⟩
    stages := fun c _ => by
      rw [State.circuit, circuits]
      exact ⟨rfl, rfl⟩
    steps := ⟨by rw [State.claimingStep, seq]; rfl, by rw [State.locked, fault]; rfl⟩ }

/-! ### DRIVE frames (R117, R130) -/

theorem owes_changeRole (carried : Bool) {r : Nat} {x : RoleRun} {w : Work} (h : x.slots = (w.st.role r).slots) :
    Owes w (changeRole carried r x w) := by
  have changed : Owes w (w.withSt (w.st.changedRole carried r x)) := owes_withSt (untouched_changedRole carried h)
  rw [changeRole_eq]
  split
  · exact changed
  · exact changed.trans (owes_emit _ fun n h => nomatch List.mem_singleton.1 h)

theorem owes_referRole (carried : Bool) (r v : Nat) (w : Work) : Owes w (referRole carried r v w).2 := by
  have asked (q : Nat) : Owes w (changeRole carried r { w.st.role r with ctlFilled := true, requested := q } w) :=
    owes_changeRole carried rfl
  unfold referRole
  dsimp only
  split
  · split
    · exact asked _
    · exact asked _
  · exact Owes.refl w

theorem owes_referSetting (node ch v : Nat) (w : Work) : Owes w (referSetting node ch v w).2 := by
  unfold referSetting
  split
  · exact owes_referRole true _ v w
  · exact Owes.refl w

theorem owes_raiseDrive (w : Work) (reason : Nat) (node : Option Nat) (setting : Option (Nat × Nat)) (role : Option Nat) :
    Owes w (w.withSt (w.st.raiseDrive reason node setting role)) := owes_withSt (untouched_raiseDrive _ _ _ _ _)

theorem owes_driveSetting (node : Nat) (acc : Work × List Kept) (g : Nat × Nat) : Owes acc.1 (driveSetting node acc g).1 := by
  have referred := owes_referSetting node g.1 (min g.2 1000) acc.1
  unfold driveSetting
  dsimp only
  generalize referSetting node g.1 (min g.2 1000) acc.1 = answered at referred
  obtain ⟨answer, w⟩ := answered
  cases answer with
  | unrouted =>
    dsimp only
    split
    · exact referred
    · exact referred.trans (owes_raiseDrive _ _ _ _ _)
  | notPermitted r => exact referred.trans (owes_raiseDrive _ _ _ _ _)
  | held r => exact referred.trans (owes_raiseDrive _ _ _ _ _)
  | forward r q => exact referred.trans (owes_withSt (untouched_recordLast _ _ _))

theorem owes_driveSettings (node : Nat) (l : List (Nat × Nat)) (acc : Work × List Kept) :
    Owes acc.1 (l.foldl (driveSetting node) acc).1 := by
  induction l generalizing acc with
  | nil => exact Owes.refl acc.1
  | cons g l ih => exact (owes_driveSetting node acc g).trans (ih _)

theorem untouched_queueKept (f : Frame) (kept : List Kept) (s : State) : Untouched s (queueKept f kept s) := by
  have placed (s : State) : Untouched s (placeKept s kept) := by
    unfold placeKept
    induction kept generalizing s with
    | nil => exact Untouched.refl s
    | cons k kept ih =>
      rw [List.foldl_cons]
      refine Untouched.trans ?_ (ih _)
      split
      · exact untouched_placeSub s _ _
      · exact Untouched.refl s
  unfold queueKept
  split
  · exact Untouched.refl s
  · split
    · exact untouched_setGate s _
    · exact placed s

theorem owes_intercept (f : Frame) (w : Work) : Owes w (intercept f w) := by
  unfold intercept
  split
  · exact owes_raiseDrive w _ _ _ _
  · split
    · exact owes_raiseDrive w _ _ _ _
    · exact (owes_driveSettings f.dst.toNat (groups f.payload) (w, [])).trans (owes_withSt (untouched_queueKept f _ _))

theorem owes_driveFrame (f : Frame) (w : Work) : Owes w (driveFrame f w) := by
  unfold driveFrame
  split
  · exact owes_intercept f w
  · split
    · exact owes_raiseDrive w _ _ _ _
    · exact Owes.refl w

theorem owes_controlOther (f : Frame) (w : Work) : Owes w (controlOther f w) := by
  unfold controlOther
  split
  · exact owes_driveFrame f w
  · split
    · exact owes_withSt (untouched_setGate _ _)
    · exact Owes.refl w
  · split
    · exact owes_withSt (untouched_linkReset _)
    · exact Owes.refl w
  all_goals exact Owes.refl w

/-! ### Frames of the field segment (R129) -/

theorem tap_entries (s : State) (f : Frame) (n : Nat) : .enterEntry n ∉ tap s f := fun h => by
  unfold tap sampleTap stateTap at h
  split at h
  · split at h
    · obtain ⟨g, -, e⟩ := List.mem_map.1 h
      cases e
    · cases h
  · split at h
    · obtain ⟨g, -, e⟩ := List.mem_filterMap.1 h
      obtain ⟨r, -, e⟩ := Option.map_eq_some_iff.1 e
      cases e
    · cases h
  · cases h

theorem owes_fieldArrival (f : Frame) (w : Work) : Owes w (fieldArrival f w) := by
  unfold fieldArrival
  dsimp only
  refine Owes.trans (owes_withSt ?_) (owes_emit _ (tap_entries w.st f))
  split
  · exact untouched_setGate _ _
  · exact Untouched.refl _

/-! ### Management requests (R133, R163) -/

theorem owes_answer (w : Work) (dst : Byte) (r : Result) : Owes w (w.answer dst r) := owes_withSt (untouched_setGate _ _)

theorem untouched_takePart (s : State) (a : Assembly) : Untouched s (takePart s a).1 := by
  unfold takePart
  split
  · exact untouched rfl rfl rfl rfl rfl rfl rfl rfl
  · unfold finishLoad
    dsimp only
    split
    all_goals exact untouched rfl rfl rfl rfl rfl rfl rfl rfl

theorem untouched_doLoad (k : TableKind) (i p : Nat) (fields : List Byte) (s : State) : Untouched s (doLoad k i p fields s).1 := by
  unfold doLoad
  split
  · exact untouched_takePart s _
  · split
    · split
      · exact untouched_takePart s _
      · exact untouched rfl rfl rfl rfl rfl rfl rfl rfl
    · exact untouched rfl rfl rfl rfl rfl rfl rfl rfl

theorem untouched_doCommit (s : State) : Untouched s (doCommit s).1 := by
  unfold doCommit
  split
  · exact Untouched.refl s
  · split
    · exact Untouched.refl s
    · exact untouched rfl rfl rfl rfl rfl rfl rfl rfl

theorem owes_doRun (dst : Byte) (n : Nat) (w : Work) : Owes w (doRun dst n w) := by
  unfold doRun
  split
  · exact owes_answer w dst _
  · split
    · exact owes_answer w dst _
    · split
      · exact (owes_answer w dst _).trans (owes_doEnter n .run _)
      · exact owes_answer w dst _

theorem owes_stopTop (dst : Byte) (t : Nat) (w : Work) : Owes w (stopTop dst t w) := by
  unfold stopTop
  split
  · exact (owes_answer w dst _).trans (owes_doEnter _ .stopLink _)
  · exact owes_answer w dst _
  · exact owes_answer w dst _

theorem owes_doStop (dst : Byte) (w : Work) : Owes w (doStop dst w) := by
  unfold doStop
  split
  · exact owes_answer w dst _
  · split
    · split
      · exact owes_stopTop dst _ w
      · exact owes_answer w dst _
    · exact owes_answer w dst _

theorem owes_doSetRole (dst : Byte) (r v : Nat) (w : Work) : Owes w (doSetRole dst r v w) := by
  have placed (a : Answer) (u : Work) : Owes u (a.place u) := by
    unfold Answer.place
    split
    · exact owes_withSt (untouched_placeSub _ _ _)
    · exact Owes.refl u
  unfold doSetRole
  split
  · exact owes_answer w dst _
  · exact ((owes_referRole false r v w).trans (placed _ _)).trans (owes_answer _ dst _)

/-- An unlock releases the LOCKOUT claims, and has them handed over (R148). -/
theorem owes_acceptUnlock (w : Work) : Owes w (acceptUnlock w) := by
  have unlocked : Carries w (w.withSt ((w.st.setFault w.st.fault.unlock).raiseLockout.requestPersist)) :=
    carries_withSt ⟨rfl, rfl, rfl, fun _ => rfl⟩ fun _ _ => ⟨rfl, rfl⟩
  exact (unlocked.trans (owes_mapCircuits _ _).carries).claimed.trans (owes_emit _ (by simp))

theorem owes_doUnlock (dst : Byte) (w : Work) : Owes w (doUnlock dst w) := by
  unfold doUnlock
  split
  · exact owes_answer w dst _
  · exact (owes_answer w dst _).trans (owes_acceptUnlock _)

theorem owes_doRelease (dst : Byte) (half : Nat) (w : Work) : Owes w (doRelease dst half w) := by
  unfold doRelease
  split
  · exact ((owes_answer w dst _).trans (owes_setTrace _ _)).trans (owes_setTrace _ _)
  · exact owes_answer w dst _

theorem owes_answerWith (dst : Byte) {r : State × Result} {w : Work} (h : Untouched w.st r.1) : Owes w (answerWith dst r w) :=
  (owes_withSt h).trans (owes_answer _ dst _)

theorem owes_perform (dst : Byte) (q : Request) (w : Work) : Owes w (perform dst q w) := by
  cases q with
  | load kind i p fields => exact owes_answerWith dst (untouched_doLoad kind i p fields w.st)
  | read active kind i p => exact owes_answer w dst _
  | discard => exact owes_answerWith dst (untouched rfl rfl rfl rfl rfl rfl rfl rfl)
  | commit => exact owes_answerWith dst (untouched_doCommit w.st)
  | demandOn => exact ((owes_setDemand w true).trans (owes_answer _ dst _)).trans (owes_examineDemand _)
  | demandOff => exact (owes_answer w dst _).trans (owes_clearDemand false _)
  | run n => exact owes_doRun dst n w
  | stop => exact owes_doStop dst w
  | setRole r v => exact owes_doSetRole dst r v w
  | unlock => exact owes_doUnlock dst w
  | status page => exact owes_answer w dst _
  | traceRead i n => exact owes_answer w dst _
  | traceRelease half => exact owes_doRelease dst half w

theorem owes_manageFrame (f : Frame) (w : Work) : Owes w (manageFrame f w) := by
  have dropped : Owes w (w.withSt { w.st with assembly := none }) := owes_withSt (untouched rfl rfl rfl rfl rfl rfl rfl rfl)
  have refused (sub : Nat) : Owes w (badRequest f.src sub w) := by
    unfold badRequest
    split
    · exact dropped.trans (owes_answer _ f.src _)
    · exact owes_answer w f.src _
  unfold manageFrame
  split
  · exact Owes.refl w
  · split
    · exact owes_answer w f.src _
    · unfold handle
      split
      · exact refused _
      · split
        · exact owes_answer w f.src _
        · exact owes_perform f.src _ w

theorem owes_controlArrival (f : Frame) (w : Work) : Owes w (controlArrival f w) := by
  have seen : Owes w (w.withSt (w.st.seeSource f.src)) := owes_withSt (untouched_seeSource _ _)
  unfold controlArrival
  dsimp only
  split
  · exact seen.trans (owes_manageFrame f _)
  · exact seen.trans (owes_controlOther f _)

theorem owes_receive (p : Port) (f : Frame) {gate : Frame → Work → Work} (h : ∀ w, Owes w (gate f w)) (s : State) :
    Owes (Work.idle s) (receive p f gate s) := by
  have heard : Owes (Work.idle s) ((Work.idle s).withSt (s.hear p .waiting)) := owes_withSt (untouched_setPort s p _)
  unfold receive
  split
  · dsimp only
    split
    · exact heard.trans (h _)
    · exact heard
  · exact Owes.refl _

end Sys2Proof.Machine
end

section
/-! SUPPORT. Every step keeps the claim slots in order: O40. -/

namespace Sys2Proof.Machine

/-! ### The starts of cascades -/

theorem due_idle {s : State} (sized : s.sized) (law : s.slotsLaw) : Due none (Work.idle s) where
  sized := sized
  limit normal r hr := by
    obtain ⟨limit, -⟩ := law normal r hr
    exact limit
  frost normal := .inl fun r hr => by
    obtain ⟨-, -, -, frost⟩ := law normal r hr
    exact frost
  sequence normal := .inl fun r hr => by
    obtain ⟨-, lockout, sequence, -⟩ := law normal r hr
    exact ⟨lockout, sequence⟩
  entries _ h := h.elim nofun nofun
  others _ h := nomatch h

theorem due_step {v w : Work} (h : Due none v) (g : Owes v w) (sized : w.st.sized) : Due none w := h.owes g nofun nofun sized

/-- A command that leaves the claims in order, or notes the hand-over that is due, keeps the slots in order. -/
theorem slotsLaw_of_finish {s t : State} {w : Work} (sized : s.sized) (law : s.slotsLaw) (ran : Ran s w.st)
    (owes : Owes (Work.idle s) w) (run : finish w = .next t) : t.slotsLaw :=
  finish_due (due_step (due_idle sized law) owes (ran.keeps Move.sized Start.sized sized)) run

theorem slotsLaw_of_finishState {s u t : State} (law : s.slotsLaw) (h : Untouched s u) (run : finishState u = .next t) : t.slotsLaw := by
  cases run
  exact (arbitrate_untouched u).slotsLaw (h.slotsLaw law)

theorem slotsLaw_of_phase {s : State} (h : s.phase ≠ .normal) : s.slotsLaw := fun normal => absurd normal h

/-! ### LIMIT (R120) -/

/-- What a unit has emitted may be put among other hand-offs. -/
theorem Due.rearranged {w : Work} (h : Due none w) {acts : List Act} (kept : ∀ a ∈ w.emitted, a ∈ acts)
    (entries : ∀ n, .enterEntry n ∉ acts) : Due none { w with emitted := acts } := by
  obtain ⟨sized, limit, frost, sequence, stack, others⟩ := h
  refine ⟨sized, limit, fun normal => (frost normal).imp id fun due => .inr ?_, sequence, stack, fun n hn => ?_⟩
  · rcases List.mem_append.1 (due.resolve_left nofun) with due | due
    · exact List.mem_append_left _ (kept _ due)
    · exact List.mem_append_right _ due
  · simp only [List.mem_append] at hn
    have away := others n
    simp only [List.mem_append] at away
    rcases hn with (fin | emitted) | queue
    · exact away (.inl (.inl fin))
    · exact entries n emitted
    · exact away (.inr queue)

theorem due_limit {s : State} (sized : s.sized) (law : s.slotsLaw) (closed : Bool) : Due none (applyLimit (Work.idle (s.setLimit closed))) := by
  have stages : SameStages s (s.setLimit closed) := fun _ _ => ⟨rfl, rfl⟩
  have steps : SameSteps s (s.setLimit closed) := ⟨rfl, rfl⟩
  have sized' : (s.setLimit closed).sized := Start.sized (.limit s closed) sized
  unfold applyLimit
  split
  · refine due_applied sized' (fun _ h => absurd h List.not_mem_nil) (fun _ => List.not_mem_nil) _ (fun _ _ _ => rfl) (fun normal => .inl fun r hr => ?_)
      fun normal => .inl fun r hr => ?_
    · obtain ⟨-, -, -, frost⟩ := law normal r hr
      exact frost.trans (stages.frostClaim rfl r).symm
    · obtain ⟨-, lockout, sequence, -⟩ := law normal r hr
      exact ⟨lockout.trans (steps.lockoutSlot r).symm, sequence.trans (steps.sequenceClaim rfl r).symm⟩
  · next off => exact due_idle sized' (slotsLaw_of_phase fun k => off (State.normal_of_phase k))

theorem applyLimit_entries {s : State} (sized : s.sized) (law : s.slotsLaw) (closed : Bool) (n : Nat) :
    .enterEntry n ∉ (applyLimit (Work.idle (s.setLimit closed))).emitted := fun h => by
  obtain ⟨-, -, -, -, -, others⟩ := due_limit sized law closed
  exact others n (List.mem_append_left _ (List.mem_append_right _ h))

theorem mem_arrange_first {o : HandoffOrder} {x y z : List Act} {a : Act} (h : a ∈ x) : a ∈ arrange o x y z := by
  unfold arrange
  cases o
  all_goals
    simp only [List.mem_append]
    grind

theorem due_limitOpened {s : State} (sized : s.sized) (law : s.slotsLaw) : Due none (limitOpened s) :=
  (due_limit sized law false).rearranged (fun _ h => mem_arrange_first h)
    (arrange_entries (applyLimit_entries sized law false) (fun _ h => nomatch h) fun _ h => nomatch List.mem_singleton.1 h)

/-! ### The image check and the commit (R126, R166, R167) -/

theorem State.installedRole_slots (s : State) (frost : Option Nat) (r : Nat) (x : RoleRun) :
    (s.installedRole frost r x).slots = (s.limitSlot r, s.lockoutSlot r, none, frost) := by
  unfold State.installedRole
  dsimp only
  split <;> rfl

/-- A table installed fills the slots with what is claimed, where no step is running. -/
theorem installRoles_slotsLaw {s : State} (still : s.claimingStep = none) (base : Nat → RoleRun) (keep : Nat → Bool) :
    (s.installRoles base s.frostClaim keep).slotsLaw := fun _ r hr => by
  have stages : SameStages s (s.installRoles base s.frostClaim keep) := fun _ _ => ⟨rfl, rfl⟩
  have steps : SameSteps s (s.installRoles base s.frostClaim keep) := ⟨rfl, rfl⟩
  have slots := s.installedRole_slots (s.frostClaim r) r (base r)
  simp only [RoleRun.slots, Prod.mk.injEq] at slots
  obtain ⟨limit, lockout, sequence, frost⟩ := slots
  have claim : s.sequenceClaim r = none := by
    rw [State.sequenceClaim_eq, still]
    rfl
  rw [s.installRoles_role base s.frostClaim keep hr, limit, lockout, sequence, frost, stages.frostClaim rfl, steps.lockoutSlot,
    steps.sequenceClaim rfl, claim]
  exact ⟨rfl, rfl, rfl, rfl⟩

theorem State.activated_slotsLaw (s : State) (t : Tables) : (s.activated t).slotsLaw := installRoles_slotsLaw rfl _ _

theorem untouched_commitPresence (s : State) (old : Nat) : Untouched s (s.commitPresence old) := by
  rcases s.commitPresence_cases old with e | e
  · rw [e]
    exact Untouched.refl s
  · rw [e]
    exact untouched rfl rfl rfl rfl rfl rfl rfl rfl

theorem State.committed_slotsLaw (s : State) : s.committed.slotsLaw := by
  have installed : s.installing.slotsLaw := installRoles_slotsLaw (s := s.commitUnits) rfl _ _
  rw [State.committed_presence]
  exact (untouched_commitPresence _ _).slotsLaw installed

theorem due_commitCompleted {s : State} (sized : s.sized) : Due none (commitCompleted s) := by
  have after := due_idle (State.committed_sized sized) s.committed_slotsLaw
  have owes : Owes (Work.idle s.committed) (commitCompleted s) :=
    (owes_frostMoved (movedCircuits s s.committed) (Work.idle s.committed)).trans (owes_emit _ (by simp))
  exact due_step after owes (by rw [commitCompleted_st]; exact State.committed_sized sized)

theorem due_imageChecked {s : State} (sized : s.sized) : Due none (imageChecked s) := by
  unfold imageChecked
  split
  · next t _ =>
    have after := due_idle (State.activated_sized t sized) (s.activated_slotsLaw t)
    exact due_step after (owes_emit _ (by simp)) (State.activated_sized t sized)
  · have after := due_idle (State.fallen_sized sized) (slotsLaw_of_phase (s := s.fallen) (by show Phase.fallback ≠ .normal; decide))
    exact due_step after (owes_push _ (by simp)) (State.fallen_sized sized)

/-! ### Timers and inputs -/

theorem owes_frostMark (w : Work) : Owes w (frostMark w) := by
  have requests (a r : List (Nat × Nat)) (n : Nat) :
      Act.enterEntry n ∉ (if a.isEmpty && r.isEmpty then [] else [Act.frostHandoff a r]) := by
    split
    · exact fun h => nomatch h
    · exact fun h => nomatch List.mem_singleton.1 h
  have faults (s : State) (a : List (Nat × Nat)) (n : Nat) : .enterEntry n ∉ blockedFaults s a := fun h => by
    unfold blockedFaults at h
    split at h
    · obtain ⟨x, -, e⟩ := List.mem_map.1 h
      cases e
    · cases h
  unfold frostMark
  split
  · refine ⟨carries_circuits ⟨rfl, rfl, rfl, fun _ => rfl⟩ (fun _ h => mem_arrange_first h)
      (arrange_entries (claimsIfMoved_entries _) (requests _ _) (faults _ _)), .inl ?_⟩
    rw [Work.frostMoved_st]
    exact ⟨rfl, rfl⟩
  · exact Owes.refl w

theorem untouched_refreshExpired (r : Nat) (s : State) : Untouched s (refreshExpired r s) := by
  have renewed (period : Nat) (window : Nat) :
      Untouched s (s.setRole r { (s.role r).renew window with refresh := some period }) := by
    refine untouched_setRole ?_
    unfold RoleRun.renew
    split <;> rfl
  unfold refreshExpired
  split
  · exact (renewed _ _).trans (untouched_placeSub _ _ _)
  · exact Untouched.refl s

theorem owes_confirmExpired (r : Nat) (w : Work) : Owes w (confirmExpired r w) := by
  have expired : Owes w (w.withSt (w.st.setRole r { w.st.role r with confirm := none })) := owes_withSt (untouched_setRole rfl)
  unfold confirmExpired
  split
  · exact expired.trans (owes_emit _ fun n h => nomatch List.mem_singleton.1 h)
  · exact Owes.refl w

theorem untouched_heardExpired (r : Nat) (s : State) : Untouched s (heardExpired r s) := by
  unfold heardExpired
  split
  · exact untouched_setRole rfl
  · exact Untouched.refl s

theorem lineToConditions_entries (s : State) (l n : Nat) : .enterEntry n ∉ s.lineToConditions l := by
  unfold State.lineToConditions
  split
  · exact fun h => nomatch List.mem_singleton.1 h
  · exact fun h => nomatch h

theorem owes_compareLine (l : Nat) (w : Work) : Owes w (compareLine l w) :=
  (owes_withSt (untouched_setLine w.st l _)).trans (owes_emit _ (arrange_entries (lineToConditions_entries _ l) (fun _ h => nomatch h)
    (entries_ite fun _ h => nomatch h)))

theorem owes_settleExpired (l : Nat) (w : Work) : Owes w (settleExpired l w) := by
  unfold settleExpired
  split
  · exact (owes_withSt (untouched_setLine w.st l _)).trans (owes_compareLine l _)
  · exact Owes.refl w

theorem owes_senseChanged (l : Nat) (on : Bool) (w : Work) : Owes w (senseChanged l on w) := by
  have sensed : Owes w (w.withSt (w.st.setSense l on)) := owes_withSt (untouched_setPins w.st _ rfl)
  unfold senseChanged
  split
  · exact Owes.refl w
  · dsimp only
    split
    · split
      · exact sensed.trans (owes_emit _ (lineToConditions_entries _ l))
      · exact sensed.trans (owes_compareLine l _)
    · exact sensed

theorem owes_edgeRequest (s : State) : Owes (Work.idle s) (edgeRequest s) := by
  unfold edgeRequest
  split
  · exact owes_raiseNotice (Work.idle s) _ _
  · exact owes_acceptUnlock _

theorem owes_absenceExpired (w : Work) : Owes w (absenceExpired w) := by
  have absent : Owes w (w.withSt (w.st.setGate { w.st.gate with present := false, absence := none })) :=
    owes_withSt (untouched_setGate _ _)
  unfold absenceExpired
  split
  · exact absent.trans (owes_emit _ fun n h => nomatch List.mem_singleton.1 h)
  · exact Owes.refl w

theorem untouched_regained (s : State) : Untouched s (regained s) := by
  unfold regained
  split
  · exact untouched rfl rfl rfl rfl rfl rfl rfl rfl
  · exact Untouched.refl s

theorem untouched_writeCompleted (s : State) : Untouched s (writeCompleted s) := by
  rw [writeCompleted_eq]
  exact untouched rfl rfl rfl rfl rfl rfl rfl rfl

theorem inputSamples_entries (s : State) (n : Nat) : .enterEntry n ∉ inputSamples s := by
  simp [inputSamples, sampleInput]

theorem untouched_tick (s : State) : Untouched s s.tick := by
  by_cases off : s.phase = .off
  · rw [State.tick, if_pos off]
    exact Untouched.refl s
  · have role (r : Nat) : (s.tick.role r).slots = (s.role r).slots := by
      have e : s.tick.role r = (s.roles.map RoleRun.tick).getD r RoleRun.reset := by
        rw [State.tick_of_powered off]
        rfl
      rw [e, getD_map_of_fixed _ _ _ _ rfl]
      rfl
    have steps : SameSteps s s.tick := by
      rw [State.tick_of_powered off]
      refine ⟨?_, rfl⟩
      have e : (s.seq.running.map Running.tick).map (·.step) = s.seq.running.map (·.step) := by
        cases s.seq.running <;> rfl
      exact congrArg (fun o : Option Nat => if s.seq.chain.isEmpty then none else o) e
    refine ⟨⟨?_, ?_, ?_, role⟩, fun c _ => ?_, steps⟩
    all_goals rw [State.tick_of_powered off]
    exact ⟨rfl, rfl⟩

/-! ### Every command -/

theorem request_slotsLaw {s t : State} (sized : s.sized) (law : s.slotsLaw) {src : Byte} {sub : Nat} {p : List Byte}
    (run : request src sub p s = .next t) : t.slotsLaw :=
  slotsLaw_of_finish sized law (receiveControl_ran _ s) (owes_receive .control _ (owes_controlArrival _) s) run

theorem exec_slotsLaw {c : Instr} {s t : State} (sized : s.sized) (law : s.slotsLaw) (h : exec c s = .next t) : t.slotsLaw := by
  have control {f : Frame} (run : finish (receive .control f controlArrival s) = .next t) : t.slotsLaw :=
    slotsLaw_of_finish sized law (receiveControl_ran f s) (owes_receive .control f (owes_controlArrival f) s) run
  have field {f : Frame} (run : finish (receive .field f fieldArrival s) = .next t) : t.slotsLaw :=
    slotsLaw_of_finish sized law (receiveField_ran f s) (owes_receive .field f (owes_fieldArrival f) s) run
  have same (run : finishState s = .next t) : t.slotsLaw := slotsLaw_of_finishState law (Untouched.refl s) run
  have pushed {acts : List Act} (entries : ∀ n, .enterEntry n ∉ acts) (run : finish (startWith s acts) = .next t) : t.slotsLaw :=
    slotsLaw_of_finish sized law (Moves.refl s).ran (owes_push (Work.idle s) entries) run
  cases c with
  | deviceReset adr =>
    change Host.Outcome.next (if adr < 4 then s.restarted s.resetStore adr else s) = .next t at h
    cases h
    split
    · exact slotsLaw_of_phase (by show Phase.checking ≠ .normal; decide)
    · exact law
  | powerOnImageCheck =>
    change execPowerOnImageCheck s = .next t at h
    unfold execPowerOnImageCheck at h
    split at h
    · exact finish_due (due_imageChecked sized) h
    · exact same h
  | frameReceiveDiscard p bytes ending => exact slotsLaw_of_finishState law (untouched_discardFrame s p bytes ending) h
  | transmitStart p => exact slotsLaw_of_finishState law (untouched_transmitStart s p) h
  | arbitrationLost p winner =>
    refine slotsLaw_of_finishState law ?_ h
    split
    · exact untouched_setPort s p _
    · exact Untouched.refl s
  | collision p =>
    refine slotsLaw_of_finishState law ?_ h
    split
    · exact untouched_setPort s p _
    · exact Untouched.refl s
  | frameSent p => exact slotsLaw_of_finishState law (untouched_frameSent s p) h
  | controlFrame f => exact control h
  | driveInterception src dst sub payload => exact control h
  | linkreset src sub => exact control h
  | fieldFrame f => exact field h
  | sample src dst sub payload => exact field h
  | state src dst sub payload => exact field h
  | inputLevelChange i high =>
    change execInputLevelChange i high s = .next t at h
    have start : Start s (s.setInput i high) := by cases i <;> exact .input s _ rfl rfl
    have input : Untouched s (s.setInput i high) := by
      cases i
      all_goals exact untouched_setPins s _ rfl
    unfold execInputLevelChange at h
    split at h
    · exact same h
    · exact slotsLaw_of_finish sized law (start.ran (Moves.refl _))
        (Owes.trans (v := (Work.idle s).withSt (s.setInput i high)) (owes_withSt input) (owes_emit _ (inputSamples_entries _))) h
  | pointSecondMark =>
    change execPointSecondMark s = .next t at h
    have marked : Owes (Work.idle s) ((Work.idle s).withSt { s with pointTimer := 0 }) :=
      owes_withSt (untouched rfl rfl rfl rfl rfl rfl rfl rfl)
    unfold execPointSecondMark at h
    split at h
    · exact slotsLaw_of_finish sized law (Move.pointTimer s 0).run.ran (marked.trans (owes_push _ (by simp [inputSamples, sampleInput]))) h
    · exact same h
  | holdExpiry c =>
    change execHoldExpiry c s = .next t at h
    unfold execHoldExpiry at h
    split at h
    · exact pushed (by simp) h
    · exact same h
  | riseWindowExpiry =>
    change execRiseWindowExpiry s = .next t at h
    unfold execRiseWindowExpiry at h
    split at h
    · exact slotsLaw_of_finish sized law (Work.setFlue_moves (Work.idle s) _).ran (owes_setFlue (Work.idle s) _) h
    · exact same h
  | minDwellMark => exact pushed (acts := [.minMark]) (by simp) h
  | maxDwellExpiry => exact pushed (acts := [.maxExpiry]) (by simp) h
  | frostSecondMark =>
    change execFrostSecondMark s = .next t at h
    have marked : Owes (Work.idle s) ((Work.idle s).withSt { s with frostTimer := 0 }) :=
      owes_withSt (untouched rfl rfl rfl rfl rfl rfl rfl rfl)
    unfold execFrostSecondMark at h
    split at h
    · exact slotsLaw_of_finish sized law (Moves.ran ((Move.frostTimer s 0).run.trans (frostMark_moves (Work.idle _))))
        (marked.trans (owes_frostMark _)) h
    · exact same h
  | refreshExpiry r => exact slotsLaw_of_finishState law (untouched_refreshExpired r s) h
  | confirmExpiry r => exact slotsLaw_of_finish sized law (confirmExpired_moves r (Work.idle s)).ran (owes_confirmExpired r _) h
  | heardTimerExpiry r => exact slotsLaw_of_finishState law (untouched_heardExpired r s) h
  | senseChange l on =>
    change execSenseChange l on s = .next t at h
    unfold execSenseChange at h
    split at h
    · exact slotsLaw_of_finish sized law (senseChanged_ran l on (Work.idle s)) (owes_senseChanged l on _) h
    · exact same h
  | settleExpiry l => exact slotsLaw_of_finish sized law (settleExpired_moves l (Work.idle s)).ran (owes_settleExpired l _) h
  | limitOpening =>
    change execLimitOpening s = .next t at h
    unfold execLimitOpening at h
    split at h
    · split at h
      · exact finish_due (due_limitOpened sized law) h
      · next idle =>
        cases h
        refine slotsLaw_of_phase fun normal => idle ?_
        have phase : s.phase = .normal := (arbitrate_untouched (s.setLimit false)).slots.phase ▸ normal
        rw [State.serving, phase]
        rfl
    · exact same h
  | limitClosing =>
    change execLimitClosing s = .next t at h
    unfold execLimitClosing at h
    split at h
    · exact same h
    · exact finish_due (due_limit sized law true) h
  | unlockEdge =>
    change execUnlockEdge s = .next t at h
    have start : Start s (s.setUnlock true) := .input s _ rfl rfl
    have edge : Untouched s (s.setUnlock true) := untouched_setPins s _ rfl
    unfold execUnlockEdge at h
    split at h
    · exact same h
    · split at h
      · exact slotsLaw_of_finish sized law (start.ran (edgeRequest_moves _))
          (Owes.trans (v := (Work.idle s).withSt (s.setUnlock true)) (owes_withSt edge) (owes_edgeRequest _)) h
      · exact slotsLaw_of_finishState law edge h
  | absenceTimerExpiry => exact slotsLaw_of_finish sized law (absenceExpired_moves (Work.idle s)).ran (owes_absenceExpired _) h
  | regainExpiry => exact slotsLaw_of_finishState law (untouched_regained s) h
  | persistenceWriteComplete => exact slotsLaw_of_finishState law (untouched_writeCompleted s) h
  | commitCompletion =>
    change execCommitCompletion s = .next t at h
    unfold execCommitCompletion at h
    split at h
    · exact finish_due (due_commitCompleted sized) h
    · exact same h
  | quietInterval p => exact slotsLaw_of_finishState law (untouched_quiet s p) h
  | unlockInputLeavesActiveLevel => exact slotsLaw_of_finishState law (u := s.setUnlock false) (untouched_setPins s _ rfl) h
  | powerLoss =>
    change Host.Outcome.next (if s.powered then s.unpowered else s) = .next t at h
    cases h
    split
    · exact slotsLaw_of_phase (by show Phase.off ≠ .normal; decide)
    · exact law
  | _ => exact request_slotsLaw sized law h

end Sys2Proof.Machine

section
open Sys2Proof Sys2Proof.Machine

/-- Settles O40: through a cascade each change of what is claimed is noted, and the hand-over it asks for made before the end. -/
theorem stepKeepsSlotsLaw : Obligations.StepKeepsSlotsLaw := by
  intro s t sized law h
  unfold step at h
  split at h
  · next c rest _ =>
    have taken : Untouched s { s with pending := rest } := untouched rfl rfl rfl rfl rfl rfl rfl rfl
    exact exec_slotsLaw (s := { s with pending := rest }) sized (taken.slotsLaw law) h
  · cases h
    exact (untouched_tick s).slotsLaw law

end
end
